-- ==== Sys2Proof/Word.lean ====
section
/-! DEFINITION. Words of the model: bytes, the two ports, ticks. -/
namespace Sys2Proof

/-- One byte of a tile, a buffer or a register. -/
abbrev Byte := BitVec 8

/-- The bits of an FP32 value (07 R176). -/
abbrev F32 := BitVec 32

/-- A tick number (00 R2): the 64-bit counter's value, kept as a number; reports narrow it (R3). -/
abbrev Tick := Nat

/-- The two PCI Express ports (12 R291, R292). -/
inductive Port where
  | A
  | B
  deriving DecidableEq, Repr

/-- 0 for port A, 1 for port B (12 R316; 14 R375). -/
def Port.num : Port → Nat
  | .A => 0
  | .B => 1

end Sys2Proof
end

