-- ==== Sys2Proof/Syntax.lean ====
section
/-! DEFINITION. The commands of the block: one constructor per row of the table of operations and events. Data that
comes from outside the module (host buffer bytes, a submission entry, sensor readings, frames) and every choice the manual
leaves open (where the device allocates, which graph a form 0 build gives) are operands. -/
namespace Sys2Proof

/-- A string of bytes, first byte first. -/
abbrev Bytes := List Byte

/-- A path by which an object is written (14 R371). -/
inductive Via where
  /-- The BAR4 window of a function. -/
  | win (p : Port) (fn : Fin 64)
  /-- A fetched OBJ_WRITE command, by its number in `State.cmds`. -/
  | cmd (cid : Nat)
  /-- The Beadline manager, with its frame sequence. -/
  | manager (seq : BitVec 16)
  deriving DecidableEq, Repr

/-- Host writes into the object window before its commit word (14 R374). -/
structure WinFields where
  index : BitVec 16
  sub : BitVec 8
  arg : BitVec 32
  len : BitVec 32
  token : BitVec 16
  deriving DecidableEq, Repr

/-- Where a Beadline frame arrived (15 R377, R384). -/
inductive BdlDir where
  /-- The upstream receive pair: travel forward. -/
  | up
  /-- The downstream receive pair: travel back in a wrapped ring. -/
  | down
  deriving DecidableEq, Repr

/-- A received Beadline frame after line decoding (15 R381). `crcOk` and `violation` are what the line island saw. -/
structure BdlFrame where
  dir : BdlDir
  type : BitVec 8
  source : BitVec 8
  dest : BitVec 8
  seq : BitVec 16
  payload : Bytes
  crc : BitVec 16
  violation : Bool
  deriving DecidableEq, Repr

/-- The outcomes of a PRI page request (10 R261). -/
inductive PrgCode where
  | success
  | invalid
  | failure
  deriving DecidableEq, Repr

/-- What waits for a translation of host memory: a frame, for one of its streams (10 R260), or a command, for its buffers (12 R295). -/
inductive PageUser where
  | frame (f : Fin 16)
  | buffer (cid : Nat)
  deriving DecidableEq, Repr

/-- How a read of host memory fails (12 R310; 17 R449): Unsupported Request, Completer Abort, poisoned data, or no completion. -/
inductive ReadError where
  | unsupported
  | abort
  | poisoned
  | timeout
  deriving DecidableEq, Repr

/-- A read of host memory that fails, and the command it was made for. -/
structure FailedRead where
  cid : Nat
  how : ReadError
  deriving DecidableEq, Repr

/-- Where an internal fault arises (18 R451, R452). -/
inductive FaultSite where
  | rod (r : Fin 64)
  | reckoner (n : Fin 16)
  | tally
  | scanner
  | streamEngine
  | frame (f : Fin 16)
  | walker
  | hub
  /-- Uncorrected HBM error in a command's operands. -/
  | hbmCommand
  /-- Uncorrected HBM error in the system region (fatal cause 5). -/
  | hbmSystem
  /-- A tile that failed its check for the command. -/
  | checksum (tile : Nat)
  /-- A fault met by the running carry pass. -/
  | carryStep (checksum : Bool)
  deriving DecidableEq, Repr

/-- What a link of a PCI Express port trained to (12 R289, R316). -/
structure LinkInfo where
  up : Bool
  rate : Fin 7
  width : Fin 17
  flit : Bool
  l0pWidth : Fin 17
  state : Fin 3
  deriving DecidableEq, Repr

/-- The outcome the hardware reports of a boot stage (17 R428). -/
inductive StageResult where
  /-- The stage's work succeeded; `failed` lists the unit numbers (18 R473) that failed bring-up in stages 4 and 5. -/
  | ok (failed : List Nat)
  /-- Stage 1: the fingerprint cannot be corrected, or stage 8: the identity key fails to unwrap (17 R443). -/
  | identityFailed
  /-- Stage 2: the boot area cannot be read (17 R438). -/
  | bootAreaUnreadable
  /-- Stage 4: an HBM4E stack fails (01 R15). -/
  | hbmFailed
  deriving DecidableEq, Repr

/-- Measurements a boot stage makes (17 R428, R440; 16 R407, R408). -/
structure StageData where
  /-- Stage 1: bits corrected in the fingerprint (17 R440). -/
  fingerprintErrors : BitVec 16
  /-- Stage 6: capacitance in microfarads (16 R408). -/
  capacitance : BitVec 32
  /-- Stage 7: dump pages whose CRC failed, by page number (16 R407). -/
  pagesLost : List Nat
  /-- Stage 7: the dump header cannot be read (16 R407). -/
  headerLost : Bool
  deriving DecidableEq, Repr

/-- The steps of the part, one constructor per row of the table. `cid` is the number of a fetched command in
`State.cmds`; `ix` is the query of a SEARCH_BATCH (0 otherwise); `f` a frame; `i` a stream of that frame. -/
inductive Instr where
  -- 02 tick
  | tick
  | tickSymbol (chip : Fin 8) (low : BitVec 12) (full : Option (BitVec 64))
  | tickSymbolTimeout (chip : Fin 8)
  | tickSyncWaitLimit
  | tickTableSwitch (via : Via)
  | bankExchange
  -- 13 submission commands, after ENTRY_FETCH, with the bytes the host holds in the input buffer
  | nop (cid : Nat)
  | nopWaitEnd (cid : Nat)
  | search (cid : Nat) (inbuf : Bytes)
  | searchBatch (cid : Nat) (inbuf : Bytes)
  | encodeSearch (cid : Nat) (inbuf : Bytes)
  | rerank (cid : Nat) (inbuf : Bytes)
  | fetch (cid : Nat) (inbuf : Bytes)
  | insert (cid : Nat) (inbuf : Bytes)
  | upsert (cid : Nat) (inbuf : Bytes)
  | delete (cid : Nat)
  | stage (cid : Nat)
  | commit (cid : Nat)
  | carry (cid : Nat)
  | passStart
  | plan
  | segmentRewrite (place : Nat)
  | directorySwitch
  | itemRelease (coll : Fin 64)
  | tileRelease (coll : Fin 64)
  | bulkBuild (cid : Nat) (inbuf : Bytes) (graph : List (List Nat))
  | rehome (cid : Nat) (inbuf : Bytes)
  | collectionCreate (cid : Nat) (inbuf : Bytes) (place : Nat)
  | collectionDrop (cid : Nat)
  | modelLoad (cid : Nat) (inbuf : Bytes) (place : Nat)
  | loadComplete (handle : Fin 1024)
  | modelEvict (cid : Nat)
  | run (cid : Nat) (inbuf : Bytes)
  | objRead (cid : Nat)
  | objWrite (cid : Nat) (inbuf : Bytes)
  | tierMove (cid : Nat) (place : Nat)
  | moveComplete (id : Fin 4096)
  | flush (cid : Nat)
  | fwLoad (cid : Nat) (inbuf : Bytes)
  | fwCommit (cid : Nat) (programFails : Bool)
  | queueCreate (cid : Nat)
  | queueDelete (cid : Nat)
  | queueReset (cid : Nat)
  -- 12 queues
  | sqTailDoorbell (p : Port) (fn : Fin 64) (q : Nat) (value : BitVec 32)
  | cqHeadDoorbell (p : Port) (fn : Fin 64) (q : Nat) (value : BitVec 32)
  | entryFetch (q : Nat) (entry : Bytes)
  | cqStall (q : Nat)
  | sqReadError (q : Nat)
  | bufferReadError (r : FailedRead)
  -- 04, 05 searches
  | admission (cid : Nat) (ix : Nat)
  | round (cid : Nat) (ix : Nat)
  | expansionRequest (cid : Nat) (ix : Nat) (node : Nat)
  | expansionReply (cid : Nat) (ix : Nat) (node : Nat)
  | replyDeadline (cid : Nat) (ix : Nat)
  | cutTick (cid : Nat) (ix : Nat)
  | remainderPassStart
  | remainderPassEnd
  | vectorRead (cid : Nat) (ix : Nat) (slot : Nat)
  | vectorReply (cid : Nat) (ix : Nat) (slot : Nat)
  | rescoringCut (cid : Nat) (ix : Nat)
  -- 09 tile instructions: the next instruction of the context running on frame f
  | matmul (f : Fin 16)
  | xorpop (f : Fin 16)
  | ewise (f : Fin 16)
  | curve (f : Fin 16)
  | norm (f : Fin 16)
  | softnorm (f : Fin 16)
  | gather (f : Fin 16)
  | argmax (f : Fin 16)
  | topk (f : Fin 16)
  | rotate (f : Fin 16)
  | streamSwap (f : Fin 16)
  | streamReArm (f : Fin 16)
  | sync (f : Fin 16)
  | endStep (f : Fin 16)
  -- 10 stream programs: the next instruction of stream i of frame f
  | streamBase (f : Fin 16) (i : Fin 16)
  | streamLoop (f : Fin 16) (i : Fin 16)
  | streamNext (f : Fin 16) (i : Fin 16)
  | streamEmit (f : Fin 16) (i : Fin 16)
  | streamAdd (f : Fin 16) (i : Fin 16)
  | streamEnd (f : Fin 16) (i : Fin 16)
  | streamTileArrival (f : Fin 16) (i : Fin 16)
  | stepBoundary (handle : Fin 1024) (part : Fin 16)
  | save (f : Fin 16)
  | restore (f : Fin 16)
  | prgResponse (u : PageUser) (i : Fin 16) (code : PrgCode)
  | pageRequestTimeout (u : PageUser) (i : Fin 16)
  | atsInvalidation (p : Port) (fn : Fin 64) (addr : Nat) (len : Nat)
  -- 16 power and heat
  | grantRelease (gid : Nat)
  | guard (sample : BitVec 16)
  | pwrLimitActiveClear
  | thermalSample (readings : List Int)
  | thermalStepFall
  | coldPowerOn
  | inputLoss
  | overvoltage
  | lowInput
  | railFault (rail : Fin 12)
  -- 17 reset and boot
  | moduleReset (via : Via)
  | moduleResetEffect
  | mrst (asserted : Bool)
  | resetRelease
  | perst (p : Port) (asserted : Bool)
  | hotReset (p : Port)
  | functionLevelReset (p : Port) (fn : Fin 64)
  | bootStage (result : StageResult) (data : StageData)
  | managementStartTimeout
  | fullIndexAvailability
  -- 18 faults
  | internalFault (site : FaultSite) (cids : List Nat)
  | rodLinkFailure (chip : Fin 8) (retrained : Bool)
  | noReadyStatus (die : Fin 128)
  | unitOut (unit : Nat) (cause : Fin 10)
  | unitTakeOut (via : Via) (value : BitVec 16)
  | lostTile (tile : Nat) (system : Bool) (bothCopies : Bool)
  | mapRepair (coll : Fin 64)
  | returnScan (rod : Fin 64)
  | reload (handle : Fin 1024) (block : Nat) (flashOk : Bool)
  | fatal (cause : Fin 8)
  -- 12 power states
  | powerStateEntry
  | powerStateExit
  -- 14 registers and objects
  | registerWrite (p : Port) (offset : Nat) (size : Nat) (value : BitVec 64)
  | tckCount (p : Port) (high : Bool) (size : Nat)
  | hifEvtClear (p : Port) (value : BitVec 32)
  | hifEvtStatus (p : Port)
  | adminPairEnable (p : Port) (vector : BitVec 11) (ien : Bool)
  | adminPairDisable (p : Port)
  | secLock (p : Port) (value : BitVec 32)
  | configDefaults (via : Via)
  | tierModeRequest (via : Via)
  | winRead (p : Port) (fn : Fin 64) (w : WinFields)
  | winWrite (p : Port) (fn : Fin 64) (w : WinFields) (data : Bytes)
  | winReadDescriptor (p : Port) (fn : Fin 64) (w : WinFields)
  | mbxSend (p : Port) (fn : Fin 64) (dest : BitVec 16) (msg : Bytes)
  | mbxInHead (p : Port) (fn : Fin 64) (value : BitVec 32)
  -- 15 Beadline
  | syncSend
  | syncFrame (fr : BdlFrame) (localNs : Nat) (residence : Nat)
  | syncLoss
  | delayMeasurement (dir : BdlDir) (sentNs : Nat)
  | delayReq (fr : BdlFrame) (turnaround : BitVec 32)
  | delayResp (fr : BdlFrame) (recvNs : Nat)
  | odRead (fr : BdlFrame)
  | odWrite (fr : BdlFrame)
  | odTransferTimeout
  | frameForward (fr : BdlFrame)
  | report (row : Fin 8)
  | heartbeatSend
  | heartbeat (fr : BdlFrame)
  | managerHeartbeatLoss
  | assign (fr : BdlFrame)
  | release (fr : BdlFrame)
  | start (fr : BdlFrame)
  | stop (fr : BdlFrame)
  | reset (fr : BdlFrame)
  | linkUp (dir : BdlDir)
  | linkDown (dir : BdlDir)
  -- 17 attestation, 19 debug
  | getVersion (p : Port)
  | getCapabilities (p : Port)
  | negotiateAlgorithms (p : Port) (asym : BitVec 32) (hash : BitVec 32)
  | getDigests (p : Port)
  | getCertificate (p : Port) (slot : Fin 8) (offset : Nat) (len : Nat)
  | challenge (p : Port) (slot : Fin 8) (nonce : Bytes)
  | getMeasurements (p : Port) (index : BitVec 8) (nonce : Bytes)
  | idcode
  | debugAccess
  | testLogicReset (dbgSel : Bool)
  -- 12, 10, 19
  | linkTraining (p : Port) (info : LinkInfo)
  | atsTranslationCompletion (u : PageUser) (i : Fin 16) (granted : Bool) (data : Bytes)
  | doeDiscovery (p : Port) (index : BitVec 8)
  | vfEnable (p : Port) (count : Fin 64)
  | inrushRestart
  | eventQueueSend
  deriving DecidableEq, Repr

end Sys2Proof
end

