-- ==== Sys2Proof/Machine/Sparse.lean ====
section
/-! DEFINITION. Sparse data by number, in one canonical form: keys strictly rising and no entry equal to what an
unlisted key reads as. Used for memory, flash, the object dictionary, the tick table and the accounts. -/
namespace Sys2Proof.Machine

/-- What key `k` holds; `d` gives what an unlisted key reads as. -/
def Sparse.get {α : Type} (d : Nat → α) : List (Nat × α) → Nat → α
  | [], k => d k
  | e :: m, k => if k = e.1 then e.2 else Sparse.get d m k

/-- Write `v` at `k`; writing what an unlisted key reads as removes the entry. -/
def Sparse.put {α : Type} [DecidableEq α] (d : Nat → α) : List (Nat × α) → Nat → α → List (Nat × α)
  | [], k, v => if v = d k then [] else [(k, v)]
  | e :: m, k, v =>
    if k < e.1 then (if v = d k then e :: m else (k, v) :: e :: m)
    else if k = e.1 then (if v = d k then m else (k, v) :: m)
    else e :: Sparse.put d m k v

/-- Every key is at least `lo`, keys rise strictly, and no entry reads as unlisted. -/
def Sparse.okFrom {α : Type} [DecidableEq α] (d : Nat → α) : Nat → List (Nat × α) → Bool
  | _, [] => true
  | lo, e :: m => decide (lo ≤ e.1) && decide (e.2 ≠ d e.1) && Sparse.okFrom d (e.1 + 1) m

/-- The canonical form. -/
def Sparse.wf {α : Type} [DecidableEq α] (d : Nat → α) (m : List (Nat × α)) : Bool :=
  Sparse.okFrom d 0 m

/-- Keep the entries whose key satisfies `p`. -/
def Sparse.keep {α : Type} (p : Nat → Bool) (m : List (Nat × α)) : List (Nat × α) :=
  m.filter (fun e => p e.1)

/-- Add to a count kept by key, unlisted keys reading 0. -/
def Sparse.bump (m : List (Nat × Nat)) (k n : Nat) : List (Nat × Nat) :=
  Sparse.put (fun _ => 0) m k (Sparse.get (fun _ => 0) m k + n)

/-- A count kept by key. -/
def Sparse.count (m : List (Nat × Nat)) (k : Nat) : Nat :=
  Sparse.get (fun _ => 0) m k

end Sys2Proof.Machine
end

