-- ==== Sys2Proof/Machine/Bytes.lean ====
section
/-! DEFINITION. Byte order, bit fields, and the check codes of the manual: CRC-32C (03 R54), CRC-16 (15 R382),
SHA-256 (17 R433). -/
namespace Sys2Proof.Machine

/-- Bits [hi:lo] of a value (00 R4). -/
def bits (v hi lo : Nat) : Nat := v / 2 ^ lo % 2 ^ (hi + 1 - lo)

/-- Bit i of a value. -/
def bit (v i : Nat) : Bool := v / 2 ^ i % 2 = 1

/-- 1 for true. -/
def b2n (b : Bool) : Nat := if b then 1 else 0

/-- The n low bytes of v, least significant first (00 R5). -/
def leBytes : Nat → Nat → Bytes
  | 0, _ => []
  | n + 1, v => BitVec.ofNat 8 v :: leBytes n (v / 256)

/-- The value of bytes, least significant first (00 R5). -/
def leNat : Bytes → Nat
  | [] => 0
  | b :: bs => b.toNat + 256 * leNat bs

/-- The n low bytes of v, most significant first (15 R381). -/
def beBytes (n v : Nat) : Bytes := (leBytes n v).reverse

/-- The value of bytes, most significant first. -/
def beNat (bs : Bytes) : Nat := leNat bs.reverse

/-- `len` bytes from offset `off`. -/
def slice (bs : Bytes) (off len : Nat) : Bytes := (bs.drop off).take len

/-- The little-endian value of `len` bytes at `off`. -/
def fieldAt (bs : Bytes) (off len : Nat) : Nat := leNat (slice bs off len)

/-- The first `n` little-endian numbers of `w` bytes each. -/
def words (w : Nat) : Nat → Bytes → List Nat
  | 0, _ => []
  | n + 1, bs => leNat (bs.take w) :: words w n (bs.drop w)

/-- Are the `len` bytes at `off` all zero? -/
def zeroAt (bs : Bytes) (off len : Nat) : Bool := (slice bs off len).all (· == 0)

/-- Zero bytes. -/
def zeros (n : Nat) : Bytes := List.replicate n 0

/-- Extend with zeros, or cut, to exactly n bytes. -/
def fit (n : Nat) (bs : Bytes) : Bytes := bs.take n ++ zeros (n - bs.length)

/-- Replace the bytes from `off` by `new`. -/
def patch (bs : Bytes) (off : Nat) (new : Bytes) : Bytes :=
  bs.take off ++ new ++ bs.drop (off + new.length)

/-- Round n up to a multiple of a. -/
def roundUp (n a : Nat) : Nat := (n + a - 1) / a * a

/-- Quotient rounded up. -/
def ceilDiv (n a : Nat) : Nat := (n + a - 1) / a

/-- One bit step of a reflected CRC-32C (03 R54). -/
def crc32cBit (c : BitVec 32) : BitVec 32 :=
  if c.getLsbD 0 then (c >>> 1) ^^^ 0x82F63B78#32 else c >>> 1

/-- Eight bit steps. -/
def crc32cByte (c : BitVec 32) (b : Byte) : BitVec 32 :=
  (List.range 8).foldl (fun c _ => crc32cBit c) (c ^^^ b.zeroExtend 32)

/-- CRC-32C with initial value and final XOR of all ones (03 R54). -/
def crc32c (bs : Bytes) : BitVec 32 :=
  bs.foldl crc32cByte 0xFFFFFFFF#32 ^^^ 0xFFFFFFFF#32

/-- One bit step of the CRC-16 of the Beadline (15 R382). -/
def crc16Bit (c : BitVec 16) : BitVec 16 :=
  if c.getLsbD 15 then (c <<< 1) ^^^ 0x1021#16 else c <<< 1

/-- Eight bit steps, most significant bit of the byte first. -/
def crc16Byte (c : BitVec 16) (b : Byte) : BitVec 16 :=
  (List.range 8).foldl (fun c _ => crc16Bit c) (c ^^^ (b.zeroExtend 16 <<< 8))

/-- CRC-16: polynomial 0x1021, initial value 0xFFFF, no reflection, no final XOR (15 R382). -/
def crc16 (bs : Bytes) : BitVec 16 := bs.foldl crc16Byte 0xFFFF#16

/-- Does no smaller number above 1 divide `p`? -/
def isPrime (p : Nat) : Bool := decide (2 ≤ p) && (List.range p).all (fun d => decide (d < 2) || decide (p % d ≠ 0))

/-- The first `n` primes; the 64th is 311. -/
def primes (n : Nat) : List Nat := ((List.range 312).filter isPrime).take n

/-- The largest r below `top + 2 ^ bits` with r to the power `k` at most `x`, found bit by bit from `top`. -/
def rootBelow (k x : Nat) : Nat → Nat → Nat
  | 0, top => top
  | bits + 1, top => rootBelow k x bits (if (top + 2 ^ bits) ^ k ≤ x then top + 2 ^ bits else top)

/-- The first 32 bits of the fraction of the k-th root of `p`: the words from which SHA-256 takes its constants. -/
def rootWord (k p : Nat) : BitVec 32 := BitVec.ofNat 32 (rootBelow k (p * 2 ^ (32 * k)) 40 0)

/-- The round constants of SHA-256: of the cube roots of the first 64 primes. -/
def shaConstants : List (BitVec 32) := (primes 64).map (rootWord 3)

/-- The eight working words of SHA-256. -/
structure Sha where
  a : BitVec 32
  b : BitVec 32
  c : BitVec 32
  d : BitVec 32
  e : BitVec 32
  f : BitVec 32
  g : BitVec 32
  h : BitVec 32
  deriving DecidableEq, Repr

/-- One round with constant plus schedule word `kw`. -/
def Sha.round (s : Sha) (kw : BitVec 32) : Sha :=
  let s1 := s.e.rotateRight 6 ^^^ s.e.rotateRight 11 ^^^ s.e.rotateRight 25
  let ch := (s.e &&& s.f) ^^^ (~~~s.e &&& s.g)
  let t1 := s.h + s1 + ch + kw
  let s0 := s.a.rotateRight 2 ^^^ s.a.rotateRight 13 ^^^ s.a.rotateRight 22
  let maj := (s.a &&& s.b) ^^^ (s.a &&& s.c) ^^^ (s.b &&& s.c)
  ⟨t1 + (s0 + maj), s.a, s.b, s.c, s.d + t1, s.e, s.f, s.g⟩

/-- Extend the schedule by one word: `w` holds the last sixteen words, newest first. -/
def shaNext (w : List (BitVec 32)) : BitVec 32 :=
  let x2 := w.getD 1 0
  let x15 := w.getD 14 0
  let s1 := x2.rotateRight 17 ^^^ x2.rotateRight 19 ^^^ (x2 >>> 10)
  let s0 := x15.rotateRight 7 ^^^ x15.rotateRight 18 ^^^ (x15 >>> 3)
  s1 + w.getD 6 0 + s0 + w.getD 15 0

/-- Run the rounds: the last sixteen schedule words newest first, and the constants still to use. The round of a
constant uses the word sixteen back in `w` once extended. -/
def shaRounds : List (BitVec 32) → List (BitVec 32) → Sha → Sha
  | [], _, s => s
  | k :: ks, w, s => shaRounds ks ((shaNext w :: w).take 16) (s.round (k + w.getD 15 0))

/-- One 64-byte block. -/
def shaBlock (s : Sha) (blk : Bytes) : Sha :=
  let w := (List.range 16).map (fun i => BitVec.ofNat 32 (beNat (slice blk (4 * i) 4)))
  let t := shaRounds shaConstants w.reverse s
  ⟨s.a + t.a, s.b + t.b, s.c + t.c, s.d + t.d, s.e + t.e, s.f + t.f, s.g + t.g, s.h + t.h⟩

/-- The blocks of a padded message. -/
def shaBlocks : Nat → Bytes → Sha → Sha
  | 0, _, s => s
  | n + 1, bs, s => shaBlocks n (bs.drop 64) (shaBlock s (bs.take 64))

/-- SHA-256 of a string of bytes (17 R433, R447); it starts from the square roots of the first eight primes. -/
def sha256 (bs : Bytes) : Bytes :=
  let z := (119 - bs.length % 64) % 64
  let msg := bs ++ [0x80] ++ zeros z ++ beBytes 8 (8 * bs.length)
  let first (i : Nat) : BitVec 32 := rootWord 2 ((primes 8).getD i 0)
  let s := shaBlocks (msg.length / 64) msg ⟨first 0, first 1, first 2, first 3, first 4, first 5, first 6, first 7⟩
  ([s.a, s.b, s.c, s.d, s.e, s.f, s.g, s.h].map (fun w => beBytes 4 w.toNat)).flatten

/-- Insert into a list kept ascending by a key. -/
def insertBy {α : Type} (le : α → α → Bool) (x : α) : List α → List α
  | [] => [x]
  | y :: ys => if le x y then x :: y :: ys else y :: insertBy le x ys

/-- Stable insertion sort: earlier elements stay ahead of equal later ones. -/
def sortBy {α : Type} (le : α → α → Bool) : List α → List α
  | [] => []
  | x :: xs => insertBy le x (sortBy le xs)

/-- Change the elements that satisfy `p`. -/
def mapWhere {α : Type} (p : α → Bool) (f : α → α) (l : List α) : List α :=
  l.map (fun x => if p x then f x else x)

end Sys2Proof.Machine
end

