-- ==== Sys2Proof/Machine/State.lean ====
section
/-! DEFINITION. The state of the module: plain data, everything the manual gives it. The values of the object
dictionary (14 R366) stand in `dict`, by index, sub-index and argument; a read-only object that only shows other state is
computed from that state (Machine/Dict.lean). -/
namespace Sys2Proof.Machine

/-- Why a run stops. No meaning of this model ends in a fault: failures complete with a status (12 R305) or leave the
module fatal (18 R467). The constructor is kept for a corrupted queue of commands and is never raised (safe). -/
inductive Fault where
  | neverRaised
  deriving DecidableEq, Repr

/-- Why a command is turned away. -/
inductive Refusal where
  /-- Raised by exec's arm of a row that has no meaning yet: none is left (safe). -/
  | notModelled (mnemonic : String)
  /-- Raised by DEBUG_ACCESS while debug_active is 1: the manual says such an access is served (17 R448, 19 R487) and
  not what it does to the module (safe). -/
  | debugAccessUnspecified
  deriving DecidableEq, Repr

/-! ### Tick (02) -/

/-- A channel chip's copy of the counter (02 R29, R30). -/
structure ChipClock where
  count : Nat
  /-- Tick of the last symbol received. -/
  lastSymbol : Nat
  /-- A mismatch was seen: reload at the next full-value symbol. -/
  reload : Bool
  /-- No symbol for 4 tk: the rods of the chip issue no reads. -/
  stopped : Bool
  deriving DecidableEq, Repr

/-- The tick master (02 R21-R27; 15 R391, R392). -/
structure Clock where
  counter : Tick
  /-- Ticks' worth of time since power was first applied: runs in reset too (the model's own clock). -/
  world : Nat
  chips : List ChipClock
  /-- A lock has happened since module reset (R24, R27). -/
  everLocked : Bool
  /-- Free-running until the next module reset (R26). -/
  freeRun : Bool
  /-- Offset still to be slewed, ns; positive when late (R391). -/
  slewNs : Int
  /-- Ticks since the last adjusted tick (R25). -/
  sinceAdjust : Nat
  /-- Reference periods of the present tick: 99, 100 or 101 (R22). -/
  period : Nat
  lastOffset : Option Int
  /-- Counter at the last accepted SYNC (R392). -/
  lastSync : Nat
  /-- The interval that the last SYNC stated (R389). -/
  syncInterval : Nat
  /-- A phase step of the tick edge made at the first lock, in ns (R391). -/
  phaseStepNs : Int
  /-- The counter value whose tick symbol the hub sent on every rod link at the last tick edge (R29); none before the first. -/
  sent : Option Tick
  /-- The largest channel-chip skew measured since reset, in ns (R29, R50). -/
  skewMax : Nat
  deriving DecidableEq, Repr

/-! ### Orders: inputs stamped and not yet in effect (02 R32-R42) -/

/-- What an order does when it takes effect. -/
inductive OrderBody where
  | moduleReset (cause : Nat)
  /-- A hot reset. -/
  | portReset (p : Port)
  /-- An edge of PERST#. -/
  | perst (p : Port) (asserted : Bool)
  | flr (p : Port) (fn : Fin 64)
  | odWrite (index sub arg offset : Nat) (data : Bytes) (seq : Nat)
  /-- The first segment of an OD_READ: the value is copied at the end of phase 2 (15 R394). -/
  | odRead (index sub arg count seq : Nat)
  /-- A GET_MEASUREMENTS (17 R447). -/
  | measure (p : Port) (index : Nat) (nonce : Bytes)
  | barWrite (p : Port) (offset size value : Nat)
  /-- A read of TCK_COUNT that waits for the writes its port sent before it (14 R354). -/
  | tckRead (p : Port) (high : Bool) (size : Nat)
  | win (p : Port) (fn : Fin 64) (op : Nat) (w : WinFields) (data : Bytes)
  | mbxSend (p : Port) (fn : Fin 64) (dest : Nat) (msg : Bytes)
  | mbxHead (p : Port) (fn : Fin 64) (value : Nat)
  | sqDoorbell (p : Port) (fn : Fin 64) (q : Nat) (value : Nat)
  | cqDoorbell (p : Port) (fn : Fin 64) (q : Nat) (value : Nat)
  /-- The phase-2 effect of a fetched command (02 R33, R39). -/
  | effect (cid : Nat) (place : Nat)
  /-- A staged mutation at its commit tick (R34). -/
  | mutation (cid : Nat)
  | unitOut (unit cause : Nat)
  /-- A NODE_CTRL assign, release, start or stop, and the id it gives (15 R387). -/
  | nodeCtrl (op id : Nat)
  /-- A manager's HEARTBEAT was heard (15 R398). -/
  | managerSeen
  /-- A new SYNC with the offset measured at its arrival and the interval it states (15 R391). -/
  | sync (offset : Int) (interval : Nat)
  /-- A manager has received a SYNC it did not send, with this tag (15 R388). -/
  | rivalTag (tag : Nat)
  /-- Thermal step 4: the hold-up sequence from phase 1 of the tick (16 R418). -/
  | holdUp
  deriving DecidableEq, Repr

/-- An order with its stamp and its place in the precedence of R36. -/
structure Order where
  stamp : Tick
  /-- Rank of R36: 1 reset, 2 Beadline manager, 3 port A, 4 port B, 5 internal. -/
  rank : Nat
  /-- Within the rank: 0 for accesses, SQ id + 1 for commands; the listed order for resets. -/
  sub : Nat
  /-- Order of receipt or submission. -/
  seq : Nat
  body : OrderBody
  deriving DecidableEq, Repr

/-! ### Host interface (12, 14) -/

/-- The admin registers of a port (14 R358). -/
structure AdminRegs where
  en : Bool
  ien : Bool
  halted : Bool
  active : Bool
  vector : Nat
  depth : BitVec 32
  sqBase : BitVec 64
  cqBase : BitVec 64
  deriving DecidableEq, Repr

/-- One port (12 R289, R307, R316; 14 R357). -/
structure PortState where
  /-- PERST# is asserted. -/
  inReset : Bool
  linkUp : Bool
  rate : Nat
  width : Nat
  flit : Bool
  l0pWidth : Nat
  linkState : Nat
  /-- Virtual functions 1 to this number are enabled (13 R344). -/
  vfs : Nat
  /-- PENDING: bit n for ATTN code n (R307). -/
  pending : BitVec 16
  /-- Raise sequence of each code (14 R361). -/
  raiseSeq : List Nat
  evCount : Nat
  wrStatus : Nat
  wrOffset : Nat
  wrFails : Nat
  wrTick : Nat
  admin : AdminRegs
  /-- Latched high half of TCK_COUNT (14 R352). -/
  tckHigh : BitVec 32
  /-- Low halves of 64-bit registers written and waiting for their high halves, by offset (14 R352). -/
  halfWrite : List (Nat × BitVec 32)
  /-- Functions after a PRI Response Failure (10 R261). -/
  priBlocked : List Nat
  doorbellErrors : Nat
  cqFetchHolds : Nat
  sqsHalted : Nat
  aerCorrectable : Nat
  aerUncorrectable : Nat
  /-- AER's uncorrectable error status, and the header and prefix logs of the first error in it (12 R289, R310). -/
  aerStatus : BitVec 32
  aerHeader : BitVec 128
  aerPrefix : BitVec 128
  /-- Bit n: Enable Relaxed Ordering in the Device Control register of function n (12 R290). -/
  relaxed : BitVec 64
  /-- Masked MSI-X vectors, as (function, vector), and those pending behind the mask (12 R304). -/
  vecMask : List (Nat × Nat)
  vecPending : List (Nat × Nat)
  msixSent : Nat
  /-- Value returned by the last BAR0 read (read completions). -/
  readData : BitVec 64
  deriving DecidableEq, Repr

/-- SQ states (12 R311). -/
inductive SqState where
  | absent
  | active
  | halted
  | resetting
  | deleting
  deriving DecidableEq, Repr

/-- A submission queue (12 R294, R297, R311, R316; 11 R272, R285). An absent queue is not listed. -/
structure Sq where
  qid : Nat
  state : SqState
  port : Port
  fn : Nat
  part : Nat
  cls : Nat
  cq : Nat
  base : Nat
  depth : Nat
  head : Nat
  tail : Nat
  admin : Bool
  pasid : Option Nat
  /-- Doorbell stamps of the entries not yet fetched, as (tail index, stamp). -/
  stamps : List (Nat × Tick)
  /-- Tick since which the full CQ holds entries (R301). -/
  heldSince : Option Tick
  /-- The present hold has been counted as an overrun. -/
  stallCounted : Bool
  overruns : Nat
  /-- Tick since which the next entry has waited for a sequence entry (09 R234), and whether it has been held for want of
  room to stage (06 R148). -/
  entryHeld : Option Tick
  stageHeld : Bool
  jobsSubmitted : Nat
  jobsCompleted : Nat
  /-- Failed jobs of status classes 1, 2, 3, 4, 5, 0xF. -/
  jobsFailed : List Nat
  /-- Delete the pair's CQ too when the commands have completed (13 R345). -/
  deleteCq : Bool
  /-- The admin command that resets or deletes it, or none. -/
  drain : Option Nat
  deriving DecidableEq, Repr

/-- A completion queue (12 R294, R297, R301-R304). -/
structure Cq where
  qid : Nat
  port : Port
  fn : Nat
  part : Nat
  base : Nat
  depth : Nat
  write : Nat
  head : Nat
  reserved : Nat
  phase : Bool
  ien : Bool
  vector : Nat
  /-- A completion without NOINT was written in this tick (R304). -/
  signal : Bool
  deriving DecidableEq, Repr

/-- An MSI-X message sent (12 R304). -/
structure Msix where
  port : Port
  fn : Nat
  vector : Nat
  tick : Tick
  deriving DecidableEq, Repr

/-- A posted write of bytes to host memory, with its Relaxed Ordering attribute (12 R290). -/
structure Posted where
  port : Port
  fn : Nat
  addr : Nat
  length : Nat
  relaxed : Bool
  deriving DecidableEq, Repr

/-- An object window (14 R374): what WIN_STATUS, WIN_TICK and WIN_DATA show. -/
structure Window where
  index : Nat
  sub : Nat
  op : Nat
  arg : Nat
  len : Nat
  status : Nat
  done : Bool
  pending : Bool
  token : Nat
  tick : Tick
  data : Bytes
  deriving DecidableEq, Repr

/-- A message in an inbox (14 R375). -/
structure MbxMsg where
  data : Bytes
  source : Nat
  tick : Tick
  deriving DecidableEq, Repr

/-- The mailbox of a function (14 R375). -/
structure Mailbox where
  outStatus : Nat
  outDone : Bool
  head : Nat
  inbox : List MbxMsg
  /-- Slot of the inbox that the next message takes. -/
  tailSlot : Nat
  deriving DecidableEq, Repr

/-! ### Commands in flight -/

/-- Sticky flags of a command (07 R190) and NONDET (08 R211). -/
structure Flags where
  nanSeen : Bool
  flushed : Bool
  overflow : Bool
  invalid : Bool
  saturated : Bool
  longsum : Bool
  nondet : Bool
  deriving DecidableEq, Repr

/-- An item ready to be stored (06 R147; 13 R330): its vector slot in the stored format. -/
structure Item where
  ext : BitVec 64
  attrs : BitVec 128
  slot : Bytes
  payload : Bytes
  sketch : Nat
  deriving DecidableEq, Repr

/-- Where a fetched command stands. -/
inductive CmdStage where
  /-- Fetched, its checks passed; waits for its buffer or its execution. -/
  | fetched
  /-- Registered to take effect at this tick (02 R33). -/
  | effect (tick : Tick)
  /-- A mutation with its item formed that waits to be staged (06 R148). -/
  | formed
  /-- Staged; commits at this tick (02 R34). -/
  | staged (tick : Tick)
  /-- Its effect is over; its completion is written in a tick after this one (06 R147). -/
  | ended (tick : Tick) (status quals dw3 dw5 dw6 dw7 : Nat)
  /-- A search, or the searches of a batch, waiting or running. -/
  | searching
  /-- CARRY waiting for the pass (06 R156). -/
  | passWait
  | nopWait (count0 : Nat) (limit : Tick)
  /-- MODEL_LOAD, RUN, ENCODE_SEARCH or MODEL_EVICT waiting on the state of a handle (09 R231). -/
  | modelWait (handle : Nat)
  /-- Holds an entry of the active sequence table (09 R234). -/
  | sequence
  /-- BULK_BUILD whose tiles are being programmed; does it carry the finish flag (06 R166)? -/
  | building (finish : Bool)
  /-- MODEL_LOAD whose package is being copied into the flash placement named (13 R337). -/
  | copying (id : Nat)
  /-- TIER_MOVE waiting for the copy (10 R244). -/
  | moving (id : Nat)
  /-- FLUSH waiting for the tiles it asked to be written (10 R246). -/
  | flushing (tiles : Nat)
  /-- FW_COMMIT whose checks have passed: the old header still stands, or is erased (17 R435). -/
  | committing (erased : Bool)
  /-- QUEUE_DELETE or QUEUE_RESET waiting for the queue's commands (13 R345). -/
  | draining (q : Nat)
  deriving DecidableEq, Repr

/-- Where the translations of a stream, or of a command's buffer, stand (10 R260, R261): its page request group names the pages without access and the PASID;
`answered` is a response that came while the context was saved, to be applied at its restore. -/
inductive PageReq where
  | none
  | translating
  | asked (since : Tick) (pages : List Nat) (pasid : Option Nat)
  | answered (code : PrgCode)
  | retranslating
  deriving DecidableEq, Repr

/-- A fetched and not completed command. -/
structure Cmd where
  cid : Nat
  sq : Nat
  port : Port
  fn : Nat
  part : Nat
  cls : Nat
  admin : Bool
  pasid : Option Nat
  /-- Its queue is gone: it ends without completion entry or output (12 R313). -/
  silent : Bool
  entry : Bytes
  /-- Stamp of its doorbell. -/
  stamp : Tick
  fetchTick : Tick
  stage : CmdStage
  /-- Its input buffer as the host held it. -/
  inbuf : Bytes
  item : Option Item
  /-- Verdict of R42 once judged at the commit tick: true when it loses. -/
  superseded : Bool
  judged : Bool
  flags : Flags
  restarted : Bool
  /-- The restart begins in the tick after this one (18 R453). -/
  restartAt : Option Tick
  /-- Admission tick of the first attempt (04 R112). -/
  admTick : Option Tick
  waitTicks : Nat
  /-- FETCH: the tiles it still has to ask of the rods, once it has looked up what it needs, those asked, and the tick of the
  last request (13 R329; 02 R44). -/
  todo : Option (List Nat)
  asked : List Nat
  askTick : Tick
  /-- Where the translations of its buffers stand (10 R260, R261; 12 R295). -/
  page : PageReq
  /-- A mutation that has waited for the change log (04 R94, R115). -/
  logWait : Bool
  dw5 : Nat
  dw6 : Nat
  dw7 : Nat
  deriving DecidableEq, Repr

/-! ### Collections (03, 06) -/

/-- A segment-directory entry (03 R67). -/
structure DirEntry where
  segment : Nat
  generation : Nat
  issued : Nat
  bNode : Nat
  bVec : Nat
  bPay : Nat
  slice : Nat
  switchTick : Tick
  carryPass : Nat
  tombstoned : Nat
  dropped : Bool
  deriving DecidableEq, Repr

/-- An attribute schema entry (03 R58). -/
structure SchemaField where
  low : Nat
  width : Nat
  kind : Nat
  deriving DecidableEq, Repr

/-- An entry of an external-id map bucket (03 R70). -/
structure MapEntry where
  ext : BitVec 64
  node : Nat
  gen : Nat
  /-- 1 in use, 2 deleted. -/
  state : Nat
  deriving DecidableEq, Repr

/-- An item held in the remainder (06 R150, R151). -/
structure RemItem where
  ext : BitVec 64
  commitTick : Tick
  deleteTick : Option Tick
  seq : Nat
  attrs : BitVec 128
  sketch : Nat
  payload : Bytes
  slot : Bytes
  retiredTick : Option Tick
  /-- Its journal tile has been programmed (R153). -/
  programmed : Bool
  deriving DecidableEq, Repr

/-- A locator: node id and generation (03 R56). -/
structure Loc where
  node : Nat
  gen : Nat
  deriving DecidableEq, Repr

/-- A collection not in state absent (03 R51, R76; 04 R116; 05 R141; 06 R174). Its settings and counters that are
objects of their own stand in `State.dict`. -/
structure Coll where
  num : Nat
  /-- 1 building, 2 ready, 3 dropping. -/
  state : Nat
  part : Nat
  dims : Nat
  format : Nat
  metric : Nat
  sketchBits : Nat
  degree : Nat
  payload : Nat
  capacity : Nat
  schema : List SchemaField
  /-- The projection matrix, S × d BF16 codes row-major, and the thresholds (03 R59). -/
  proj : List (BitVec 16)
  thresh : List F32
  entrySet : List Loc
  /-- Number of segments reserved (03 R52). -/
  segments : Nat
  nodesIssued : Nat
  /-- Ids passed over and never issued (06 R158, R166). -/
  skipped : List Nat
  /-- Directory entries, newest first for a segment; old ones stay until their tiles are released (03 R68; 06 R164). -/
  dir : List DirEntry
  /-- Tombstone bitmap: the node ids whose bit is 1 (03 R71). -/
  tombs : List Nat
  /-- Generation table: entries that are not 0 (03 R71). -/
  gens : List (Nat × Nat)
  /-- Nodes retired (06 R170; 18 R460). -/
  retired : List Nat
  /-- Map base tile E, its buckets by number, and the buckets retired by map repair (03 R70; 18 R462). -/
  mapBase : Nat
  buckets : List (Nat × List MapEntry)
  retiredBuckets : List Nat
  /-- Remainder journal base tile J, items held, next sequence number (06 R150-R153). -/
  jBase : Nat
  rem : List RemItem
  nextSeq : Nat
  /-- First tile of the segment region and of the carry workspace (03 R52). -/
  segBase : Nat
  workBase : Nat
  /-- HBM bytes and flash tiles charged to the partition (10 R240). -/
  hbmCharged : Nat
  tilesReserved : Nat
  /-- Expansion counts of the last converged searches (04 R114). -/
  hopHistory : List Nat
  /-- Map repair: 0 none, 1 waiting, 2 running (18 R462, R474). -/
  repair : Nat
  /-- Form of the batches of a build so far: none, or 0 or 1 (13 R333). -/
  buildForm : Option Nat
  /-- Image tiles accepted so far (13 R333). -/
  imageTiles : Nat
  /-- Nodes left out of an image build because their tile lay on an out rod (06 R167). -/
  leftOut : List Nat
  /-- Flash shadow descriptor version (03 R54, format 0x07). -/
  descVersion : Nat
  /-- Tick of the drop, for a dropping collection. -/
  dropTick : Tick
  deriving DecidableEq, Repr

/-- An entry of the walker's change log (04 R94). -/
structure Change where
  coll : Nat
  node : Nat
  /-- true: a tombstone bit; false: a generation. -/
  tomb : Bool
  old : Nat
  tick : Tick
  deriving DecidableEq, Repr

/-- Kinds of mutation-journal record (06 R149). -/
structure JRec where
  ext : BitVec 64
  tick : Tick
  seq : Option Nat
  coll : Nat
  kind : Nat
  length : Nat
  pass : Nat
  attrs : BitVec 128
  payload : Bytes
  /-- Kind 5: the edges of the plan this record holds, as (node, locators). Kind 3: the node of the graph copy deleted, until
  its segment is rewritten (R163). -/
  plan : List (Nat × List Loc)
  /-- Kind 6: the segment switched. -/
  segment : Nat
  deriving DecidableEq, Repr

/-- A tile on flash (03 R54; 17 R444): 4,096 bytes and the partition key it was programmed under. -/
structure Tile where
  bytes : Bytes
  part : Nat
  epoch : Nat
  deriving DecidableEq, Repr

/-- A node-cache line (03 R72): collection, tile number, bytes; `pinned` for the pinned area. -/
structure CacheLine where
  coll : Nat
  tile : Nat
  bytes : Bytes
  pinned : Bool
  deriving DecidableEq, Repr

/-! ### Searches (04, 05) -/

/-- Filter result of a candidate (04 R83). -/
inductive Filt where
  | pass
  | fail
  | unknown
  deriving DecidableEq, Repr

/-- A candidate-list entry (04 R83). -/
structure Cand where
  node : Nat
  gen : Nat
  dist : Nat
  expanded : Bool
  filt : Filt
  deriving DecidableEq, Repr

/-- A result-pool entry (04 R86). -/
structure PoolEntry where
  node : Nat
  gen : Nat
  dist : Nat
  ext : BitVec 64
  deriving DecidableEq, Repr

/-- A reply to an expansion (04 R90). -/
structure Reply where
  valid : Bool
  ext : BitVec 64
  pass : Bool
  /-- Neighbours kept: locator and distance. -/
  neigh : List (Loc × Nat)
  deriving DecidableEq, Repr

/-- Where an issued expansion stands. -/
inductive ExpStage where
  /-- Waits for read quota (04 R89). -/
  | queued
  /-- Sent to the rod. -/
  | sent
  /-- The rod or reckoner has formed the reply; none for a tile that failed its check (04 R90, R92). -/
  | formed (r : Option Reply)
  /-- The reply has arrived. -/
  | arrived (r : Reply)
  deriving DecidableEq, Repr

/-- An issued expansion of the open round (04 R87, R88). -/
structure Expansion where
  node : Nat
  gen : Nat
  tile : Nat
  recIx : Nat
  cached : Bool
  deadline : Tick
  stage : ExpStage
  deriving DecidableEq, Repr

/-- A remainder hit (04 R103). -/
structure RemHit where
  seq : Nat
  dist : Nat
  ext : BitVec 64
  deriving DecidableEq, Repr

/-- Where the vector or payload read of a rerank candidate stands (05 R123). -/
inductive ReadStage where
  | queued
  | sent (deadline : Tick)
  /-- Sent back by the rod; none when the tile failed its check. -/
  | returned (deadline : Tick) (bytes : Option Bytes)
  | arrived
  | abandoned
  deriving DecidableEq, Repr

/-- A candidate of the rerank set (05 R118). -/
structure RankCand where
  /-- true: from the remainder. -/
  fromRem : Bool
  node : Nat
  gen : Nat
  seq : Nat
  ext : BitVec 64
  dist : Nat
  read : ReadStage
  score : Option F32
  /-- Tiles of its vector still to be asked of the rods, and those asked (05 R123): what the node cache held is in neither. -/
  todo : List Nat
  asked : List Nat
  deriving DecidableEq, Repr

/-- Payload row of a selected item (05 R136). -/
structure RowRead where
  slot : Nat
  node : Nat
  read : ReadStage
  row : Bytes
  missing : Bool
  deriving DecidableEq, Repr

/-- Phase of a search. -/
inductive SPhase where
  /-- The encoder stage of an ENCODE_SEARCH runs. -/
  | encoding
  /-- Waits for admission. -/
  | waiting
  | walking
  /-- Walk ended, waits for its remainder pass (04 R107). -/
  | walked
  | rescoring
  /-- Selected; gathers payload rows (05 R136). -/
  | gathering
  /-- The last row arrived or was abandoned in this tick; the rows are written from the next on (05 R136). -/
  | writing (since : Tick)
  | done (status : Nat)
  deriving DecidableEq, Repr

/-- The remainder pass of a search (04 R102). -/
inductive PassNeed where
  | none
  | waiting
  | running
  | complete
  deriving DecidableEq, Repr

/-- Resolved walk and rescoring parameters (04 R78; 05 R119). -/
structure WalkParams where
  l : Nat
  w : Nat
  h : Nat
  m : Nat
  k : Nat
  f : Nat
  mode : Nat
  model : Nat
  filter : Bool
  nodeIds : Bool
  payloads : Bool
  tq : Nat
  /-- Elements of a token, for mode 1 (05 R122, R125). -/
  e : Nat
  /-- W is the controller's: chosen at admission (04 R114). -/
  wAuto : Bool
  deriving DecidableEq, Repr

/-- A search: one SEARCH, one query of a SEARCH_BATCH, the search stage of an ENCODE_SEARCH, or a RERANK of form 0. -/
structure Search where
  cid : Nat
  ix : Nat
  coll : Nat
  part : Nat
  params : WalkParams
  phase : SPhase
  /-- RERANK form 0: the listed ids. -/
  ids : List (BitVec 64)
  isRerank : Bool
  /-- The query vector: format and codes; exact values are used as given (13 R323). -/
  qFormat : Nat
  query : Bytes
  tokens : Bytes
  filterBlock : Bytes
  outAddr : Nat
  sketch : Nat
  /-- Entry set of the snapshot (04 R81, R94). -/
  entrySet : List Loc
  qNorm : F32
  deadline : Tick
  cut : Tick
  admTick : Tick
  /-- Tick in which the present attempt began and the rods then out (18 R459; 06 R154). -/
  rodsOut : List Nat
  cold : Bool
  cands : List Cand
  visited : List Nat
  pool : List PoolEntry
  open_ : List Expansion
  /-- Expansions of the open round, uncovered ones included, and the tick the next round may be chosen, or in which the
  requests now open were made. -/
  roundExps : Nat
  roundUncovered : Nat
  nextRound : Tick
  rounds : Nat
  expansions : Nat
  uncovered : Nat
  cacheHits : Nat
  staleEdges : Nat
  capDrops : Nat
  endReason : Nat
  need : PassNeed
  hits : List RemHit
  hitsUsed : Bool
  scanned : Nat
  partialCut : Bool
  rank : List RankCand
  /-- Size of the rerank set, unreachable candidates included. -/
  setSize : Nat
  rows : List RowRead
  flags : Flags
  /-- Coverage of the attempt (18 R459). -/
  coverage : Nat
  /-- Holds a walker context, since this tick, and its tag epoch, which advances at each teardown (11 R281). -/
  context : Bool
  ctxSince : Tick
  epoch : BitVec 8
  /-- Tick at which it was first judged for admission; it passed and began its walk; it has been counted as completed (04 R112,
  R113). -/
  firstAdm : Option Tick
  began : Bool
  counted : Bool
  /-- Status of the form of the result once selected: the entries chosen and the left-out terms. -/
  result : Bytes
  resultQuals : Nat
  resultValid : Nat
  resultKth : F32
  holdsModel : Option Nat
  deriving DecidableEq, Repr

/-- A reply tag that a cut left outstanding: its context stays busy until the reply or the deadline (11 R281). -/
structure Tag where
  cid : Nat
  ix : Nat
  epoch : BitVec 8
  node : Nat
  part : Nat
  /-- The rod asked. -/
  rod : Nat
  deadline : Tick
  deriving DecidableEq, Repr

/-- The remainder scanner's present pass (04 R101, R102). -/
structure ScanPass where
  coll : Nat
  startTick : Tick
  /-- Tick at which its clocks have run (R101). -/
  ends : Tick
  searches : List (Nat × Nat)
  deriving DecidableEq, Repr

/-! ### Carry (06) -/

/-- A folded item of the running pass (06 R158). -/
structure Folded where
  seq : Nat
  node : Nat
  gen : Nat
  deriving DecidableEq, Repr

/-- Phase of a pass (06 R174, coll_carry_state). -/
inductive PassPhase where
  | planning
  | writing
  | suspended (since : Tick)
  deriving DecidableEq, Repr

/-- A segment rewritten and waiting for its switch (06 R161). -/
structure Rewrite where
  segment : Nat
  bNode : Nat
  bVec : Nat
  bPay : Nat
  emptied : List Nat
  retiring : List Nat
  /-- Tick in which its tiles, its directory entry and its kind 6 record were durable; none while programs are under way. -/
  written : Option Tick
  /-- Its tiles are programmed, and the program of its directory entry is asked for. -/
  entering : Bool
  /-- Its switch has waited for the change log (04 R94). -/
  held : Bool
  deriving DecidableEq, Repr

/-- A pass (06 R156-R165). -/
structure Pass where
  coll : Nat
  number : Nat
  start : Tick
  phase : PassPhase
  /-- Next unissued sequence number at P. -/
  seqLimit : Nat
  folded : List Folded
  /-- Items present at P but deleted by P. -/
  deletedAtP : List Nat
  reclaim : List Nat
  planClosed : Bool
  /-- The plan: for a node, its edges. -/
  edges : List (Nat × List Loc)
  /-- Segments still to be rewritten, ascending. -/
  todo : List Nat
  rewrite : Option Rewrite
  /-- The power grant of the present segment rewrite. -/
  grant : Option Nat
  rewritten : Nat
  lastSwitched : Option Nat
  /-- Restarted step (18 R455). -/
  restarted : Bool
  /-- Suspended by map repair: its CARRY commands stay (18 R462). -/
  byRepair : Bool
  /-- Requests waiting to be joined: CARRY commands. -/
  waiters : List Nat
  /-- coll_carry_back_edges, coll_carry_search_l and coll_carry_tombstone_share as the pass found them (R174). -/
  backEdges : Nat
  searchL : Nat
  share : Nat
  /-- Sticky flags of its scores (07 R190). -/
  flags : Flags
  deriving DecidableEq, Repr

/-- A request in carry_queue (06 R156). -/
structure CarryReq where
  coll : Nat
  tick : Tick
  waiters : List Nat
  deriving DecidableEq, Repr

/-- Carry, over the module. -/
structure Carry where
  queue : List CarryReq
  pass : Option Pass
  /-- Suspended passes of other collections. -/
  suspended : List Pass
  /-- Tile reads given to carry in the ticks since its last step that read tiles (02 R44). -/
  credit : Nat
  /-- Tiles that carry has read from the rods: the model's own count, by which `credit` is spent. -/
  reads : Nat
  deriving DecidableEq, Repr

/-! ### Models, frames, streams (09, 10, 11) -/

/-- A tile instruction (09 R218). -/
structure TileInstr where
  op : Nat
  sub : Nat
  fa : Nat
  fb : Nat
  fc : Nat
  pre : Nat
  iov : Bool
  red : Bool
  fuse : Nat
  rowFirst : Bool
  rowLast : Bool
  save : Bool
  m : Nat
  n : Nat
  curve : Nat
  k : Nat
  owner : Nat
  split : Bool
  contIn : Bool
  contOut : Bool
  blockFirst : Nat
  a : Nat
  b : Nat
  c : Nat
  p : Nat
  f : Nat
  imm : Nat
  blocks : Nat
  /-- A reserved bit of the encoding is not zero (R224). -/
  reserved : Bool
  deriving DecidableEq, Repr

/-- A stream-program instruction (10 R250). -/
structure StreamInstr where
  op : Nat
  d : Nat
  count : Nat
  value : Int
  reserved : Bool
  deriving DecidableEq, Repr

/-- A stream program (10 R250). -/
structure StreamProg where
  write : Bool
  check : Bool
  persistent : Bool
  fetchAhead : Nat
  halfTiles : Nat
  halfMin : Nat
  segBytes : Nat
  tileSegs : Nat
  buffer : Nat
  fpBase : Nat
  fpLength : Nat
  base : Nat
  code : List StreamInstr
  deriving DecidableEq, Repr

/-- A curve table (09 R227). -/
structure CurveTable where
  modeLo : Nat
  modeHi : Nat
  yLo : F32
  yHi : F32
  breaks : List F32
  coefs : List (List F32)
  deriving DecidableEq, Repr

/-- A save-table entry (09 R225). -/
structure SaveEntry where
  index : Nat
  offset : Nat
  length : Nat
  deriving DecidableEq, Repr

/-- A tile program (09 R217). -/
structure TileProg where
  subn : Bool
  batchInvariant : Bool
  framesMin : Nat
  code : List TileInstr
  saves : List SaveEntry
  sram : Nat
  stepTicks : Nat
  stepTiles : Nat
  stepPower : Nat
  streams : List StreamProg
  deriving DecidableEq, Repr

/-- A model package, decoded (09 R229). -/
structure ModelPkg where
  version : Nat
  kind : Nat
  inFormat : Nat
  outFormat : Nat
  inDims : Nat
  outDims : Nat
  maxTokens : Nat
  stepTokens : Nat
  actFixed : Nat
  actPerToken : Nat
  rescoreTicks : Nat
  weightTiles : Nat
  programTiles : Nat
  prog : TileProg
  curves : List CurveTable
  deriving DecidableEq, Repr

/-- States of a handle (09 R231). -/
inductive ModelState where
  | present
  | loading
  | resident
  | evicting (unregister : Bool)
  | faulted
  deriving DecidableEq, Repr

/-- A registered model (09 R231, R232; 13 R337). -/
structure Model where
  handle : Nat
  state : ModelState
  part : Nat
  pkg : ModelPkg
  /-- Decoded tensor tiles, each 4,096 bytes with its trailer (10 R249). -/
  tiles : List Bytes
  /-- The compressed copy: format 0x11 tiles. -/
  packed : List Bytes
  hostHome : Bool
  hostAddr : Nat
  mirror : Option Nat
  placement : Nat
  /-- Residency asked for by a waiting command. -/
  holds : Nat
  /-- Its load has waited for room, and is counted (09 R232). -/
  loadWaits : Bool
  lastRelease : Tick
  loadGrant : Option Nat
  loadStart : Tick
  /-- Base of the resident copy in HBM. -/
  hbmBase : Nat
  /-- Blocks being reloaded (18 R466). -/
  reloading : List Nat
  deriving DecidableEq, Repr

/-- States of a sequence (09 R234). -/
inductive SeqState where
  | waiting
  | running
  | leaving
  deriving DecidableEq, Repr

/-- What becomes of a sequence at the next boundary beside its state: `dead` when its job has ended, `rejoin` when its RUN
restarts and keeps its entry (18 R454). -/
inductive SeqMark where
  | live
  | dead
  | rejoin
  deriving DecidableEq, Repr

/-- An entry of the active sequence table in use (09 R234). -/
structure Seqn where
  entry : Nat
  state : SeqState
  part : Nat
  handle : Nat
  tokens : Nat
  reservation : Nat
  joinTick : Tick
  sq : Nat
  cid : Nat
  cls : Nat
  fetchTick : Tick
  /-- A charged fault: its status (11 R287). -/
  fault : Option Nat
  /-- Rescoring batch: the search and its first candidate; none for RUN and the encoder. -/
  batch : Option (Nat × Nat)
  /-- Holds its model. -/
  holding : Bool
  mark : SeqMark
  /-- The input as the command gave it. -/
  input : Bytes
  outBytes : Nat
  /-- Steps it takes after the present one (R236; log entry 30). -/
  steps : Nat
  deriving DecidableEq, Repr

/-- An accumulator record (08 R213). -/
structure Accum where
  /-- Pending tree values, lowest level first; none where empty. -/
  tree : List (Option F32)
  taken : Nat
  spill : Nat
  hi : Option F32
  lo : F32
  deriving DecidableEq, Repr

/-- A row record (08 R213). -/
structure RowRec where
  started : Bool
  m : F32
  s : F32
  squares : Accum
  k : Nat
  mean : F32
  m2 : F32
  argVal : F32
  argPos : Nat
  cols : Nat
  deriving DecidableEq, Repr

/-- An entry of a port's address translation cache (10 R260). -/
structure AtcEntry where
  port : Nat
  fn : Nat
  pasid : Option Nat
  page : Nat
  write : Bool
  deriving DecidableEq, Repr

/-- Tags of a host-tier segment whose context was saved or torn down: taken until its completion, which is discarded (11 R281). -/
structure HostTag where
  frame : Nat
  stream : Nat
  path : Nat
  count : Nat
  deriving DecidableEq, Repr

/-- A segment generated and not yet written (10 R252). -/
structure SegXfer where
  ordinal : Nat
  addr : Nat
  tile : Nat
  /-- Tick of its request. -/
  issued : Tick
  /-- Waits for the translation of its pages: those still to be answered, and those that grant no access (R260, R261). -/
  waiting : Bool
  pages : List Nat
  refused : List Nat
  /-- Flash tiles still to be asked of the rods, and those asked (02 R44; 11 R274). -/
  todo : List Nat
  asked : List Nat
  deriving DecidableEq, Repr

/-- A stream of a frame context (10 R250-R254). -/
structure Stream where
  prog : StreamProg
  armed : Bool
  baseReg : Nat
  pc : Nat
  addr : Int
  /-- Open dimensions, innermost first: (d, start, i, count, stride, pc of the LOOP). -/
  dims : List (Nat × Int × Nat × Nat × Int × Nat)
  ended : Bool
  /-- Next segment within the present EMIT. -/
  emitAt : Nat
  /-- Segments generated so far. -/
  segs : Nat
  /-- Segments in flight. -/
  flight : List SegXfer
  /-- Tiles complete in the engine half, and tiles swapped to the program. -/
  tilesDone : Nat
  tilesSwapped : Nat
  /-- true: half B is the engine half. -/
  engineB : Bool
  /-- Pool tiles granted to the two halves, by SRAM offset. -/
  poolA : List Nat
  poolB : List Nat
  page : PageReq
  /-- Position of the first segment not swapped, for a save (11 R279). -/
  savePc : Nat
  saveAddr : Int
  saveDims : List (Nat × Int × Nat × Nat × Int × Nat)
  saveEmit : Nat
  saveSegs : Nat
  deriving DecidableEq, Repr

/-- What a frame context waits for (11 R276). -/
inductive FrameWait where
  | none
  | swap (i : Nat)
  | reArm (i : Nat)
  | sync (imm : Nat)
  | rotate
  | ended
  deriving DecidableEq, Repr

/-- A frame context (11 R275, R279): the part of a step dealt to a frame. -/
structure FrameCtx where
  handle : Nat
  part : Nat
  frame : Nat
  /-- Sequences dealt to it, by entry. -/
  seqs : List Nat
  pc : Nat
  wait : FrameWait
  started : Bool
  saved : Bool
  /-- Save slot held, counted from 1; 0 before the step has taken its slots (11 R278). -/
  slot : Nat
  epoch : BitVec 8
  /-- Open accumulators of a CONT_OUT MATMUL with its M, N, FC, FUSE; the fused row state. -/
  accums : List Accum
  accShape : Option (Nat × Nat × Nat × Nat)
  rows : List RowRec
  streams : List Stream
  flags : Flags
  /-- SRAM ranges saved, as (offset, bytes). -/
  savedSram : List (Nat × Bytes)
  runSince : Tick
  /-- Ready since this tick and not running. -/
  readySince : Tick
  /-- Bytes of this step's gathered candidates for the tally unit (TOPK SUB 1). -/
  tally : List (F32 × BitVec 64)
  /-- Destination range freed for a ROTATE (09 R233). -/
  rotateFree : Bool
  /-- The last instruction carried SAVE: the boundary is a save point (09 R225). -/
  atSave : Bool
  /-- Frame clocks this context has run (11 R283). -/
  clocks : Nat
  deriving DecidableEq, Repr

/-- Block sums delivered for a split output in ordered mode (08 R209): owner frame, address, block, value. -/
structure BlockSum where
  part : Nat
  handle : Nat
  addr : Nat
  block : Nat
  value : F32
  deriving DecidableEq, Repr

/-- Frame and share accounting (11 R277, R283, R284). -/
structure Shares where
  /-- used_f(p) by 16·f + p, and used(p, c) by 8·p + c: frame clocks, normalised starting points included. -/
  usedF : List (Nat × Nat)
  usedC : List (Nat × Nat)
  /-- class_use records by 8·p + c: clocks, context-ticks, reads, scores, tokens. -/
  classUse : List (Nat × List Nat)
  /-- Slowdowns of the last 4,096 jobs by 8·p + c, and total elapsed, total solo, jobs. -/
  slow : List (Nat × List Nat)
  totals : List (Nat × List Nat)
  /-- Round-robin pointer and waits of the best-effort read arbiter (02 R492), and of the stream engine. -/
  readPtr : Nat
  readWait : List (Nat × Tick)
  /-- Deficit round-robin of reads within a partition: the class served by partition, and deficits by 8·p + c (11 R274). -/
  readClass : List (Nat × Nat)
  readDeficit : List (Nat × Nat)
  streamPtr : Nat
  streamWait : List (Nat × Tick)
  /-- Deficit round-robin of bulk segments within a partition, in bytes: the class served by partition, and deficits by 3·p + class
  (10 R256). Bulk transfers since the last light one (R255). -/
  streamClass : List (Nat × Nat)
  streamDeficit : List (Nat × Nat)
  bulkSince : Nat
  /-- What was ready when last looked at: partitions by 16·f + p, classes by 8·p + c (11 R277). -/
  readyF : List Nat
  readyC : List Nat
  /-- Bins of search_latency by 32·p + bin (16 R424). -/
  latency : List (Nat × Nat)
  deriving DecidableEq, Repr

/-- A placement in use (10 R243, R245). -/
structure Placement where
  id : Nat
  kind : Nat
  part : Nat
  home : Nat
  writeBack : Bool
  moving : Bool
  base : Nat
  length : Nat
  owner : Nat
  /-- Dirty tiles and filled tiles of the HBM shadow, and its base. -/
  dirty : List Nat
  filled : List Nat
  shadow : Nat
  newHome : Nat
  newBase : Nat
  moveCid : Nat
  /-- A move into flash: its programs have been asked for (R244). -/
  copied : Bool
  deriving DecidableEq, Repr

/-- The tensor side of the module. -/
structure Tensor where
  models : List Model
  seqs : List Seqn
  ctxs : List FrameCtx
  /-- The context running on each frame, by index of 16, as handle and partition. -/
  running : List (Option (Nat × Nat))
  sums : List BlockSum
  placements : List Placement
  /-- ATS translations granted. -/
  atc : List AtcEntry
  /-- Tags of host-tier segments given up (11 R281). -/
  staleHost : List HostTag
  /-- Stall counts by partition: causes 1-4 and frame clocks (10 R259). -/
  stalls : List (Nat × List Nat)
  /-- Frame clocks run by frame (09 R237). -/
  busy : List (Nat × Nat)
  deriving DecidableEq, Repr

/-! ### Power (16) -/

/-- What a block of the system region holds (03 R54; 18 R465). -/
inductive SysUse where
  /-- A tile of the mutation journal: its records (06 R149). -/
  | records (rs : List JRec)
  /-- A directory entry of a segment (03 R67). -/
  | entry (coll segment : Nat)
  /-- Part of the tombstone and generation slices of a segment (06 R162). -/
  | slice (coll segment : Nat)
  /-- The part of a collection's descriptor with the entry set, and the rest of it (03 R60). -/
  | descHead (coll : Nat)
  | descBody (coll : Nat)
  /-- A full tile of the configuration journal (14 R370). -/
  | config
  deriving DecidableEq, Repr

/-- A block of the system region on flash. -/
structure SysBlock where
  use : SysUse
  bytes : Bytes
  deriving DecidableEq, Repr

/-- A record of the configuration journal (14 R370). -/
structure CfgRec where
  index : Nat
  sub : Nat
  arg : Nat
  value : Nat
  tag : Bytes
  deriving DecidableEq, Repr

/-- The system region of flash: its blocks by number, the next block pair, and the configuration journal, whose open tile
stands in the write buffer. -/
structure SysRegion where
  blocks : List (Nat × SysBlock)
  next : Nat
  cfg : List CfgRec
  deriving DecidableEq, Repr

/-- What a program of a flash tile belongs to. -/
inductive ProgUse where
  /-- The rewrite of a segment by the pass of a collection (06 R161). -/
  | carry (coll : Nat)
  /-- A batch of a build, by its command (06 R166). -/
  | build (cid : Nat)
  /-- The compressed copy of a package, by its MODEL_LOAD (13 R337). -/
  | load (cid : Nat)
  /-- The copy of a placement that moves (10 R244). -/
  | move (id : Nat)
  /-- A dirty tile of a placement's shadow (10 R245). -/
  | writeBack (id : Nat)
  /-- Nothing waits for it. -/
  | alone
  deriving DecidableEq, Repr

/-- What a grant is for (16 R410). -/
inductive GrantKind where
  | carrySegment (coll : Nat)
  | modelLoad (handle : Nat)
  | frameStep (handle part : Nat)
  /-- The frame program of the firmware that scores a search in mode 1 (05 R125). -/
  | rescore (cid ix : Nat)
  /-- The program of a tile of a remainder journal. -/
  | nand (die coll tile : Nat)
  /-- The program of one flash tile, with what it will hold. -/
  | program (use : ProgUse) (tile part : Nat) (bytes : Bytes)
  /-- The erase of what a range of logical tiles holds on one die. -/
  | erase (die base count : Nat)
  /-- The program of a block of the system region, with what it will hold, and the erase of one. -/
  | block (use : SysUse) (number : Nat) (bytes : Bytes)
  | eraseBlock (number : Nat)
  /-- An erase or a program of the boot area for FW_COMMIT (17 R435). -/
  | bootArea (cid : Nat)
  deriving DecidableEq, Repr

/-- A request or a grant (16 R410, R412). -/
structure Grant where
  gid : Nat
  kind : GrantKind
  /-- true: the media reserve; false: the general pool. -/
  media : Bool
  units : Nat
  asked : Tick
  granted : Bool
  /-- Release due at the next tick's decisions. -/
  releasing : Bool
  cid : Option Nat
  deriving DecidableEq, Repr

/-- Where the input and the rails stand (16 R402, R404; 19 R479). -/
inductive PowerPhase where
  | off
  /-- An input loss ended the ramp: world tick of the loss (R479). -/
  | rampWait (since : Nat)
  | on
  /-- Hold-up: tick L in world ticks, and whether the rails stay on (a module reset). -/
  | holdup (since : Nat) (rails : Bool)
  /-- Dies held in reset since this world tick; `boot` is the boot_cause of the next boot. -/
  | held (since : Nat)
  deriving DecidableEq, Repr

/-- The header of a dump (16 R405). -/
structure DumpHeader where
  /-- Bytes of the write buffer in use. -/
  used : Nat
  pages : Nat
  /-- L, the tick of the input loss or reset. -/
  tick : Tick
  dies : List Nat
  deriving DecidableEq, Repr

/-- Power, hold-up and heat (16). -/
structure Power where
  phase : PowerPhase
  pwrGood : Bool
  grants : List Grant
  nextGid : Nat
  /-- Ticks without a held request or the guard (R413). -/
  quiet : Nat
  guard : Bool
  /-- Samples of the last 1,000 tk, newest first, one per 10 tk, in 0.5 W units. -/
  samples : List Nat
  /-- Last temperatures of the 47 sensors, in m°C, and the greatest since reset. -/
  temps : List Int
  tempsMax : List Int
  step : Nat
  /-- Step to rise to in the next tick (R418). -/
  riseTo : Option Nat
  /-- Since when every zone is 5 °C below the present thresholds. -/
  coolSince : Option Tick
  mrstLow : Bool
  /-- World tick of the last MRST# rise. -/
  mrstRise : Nat
  /-- The dump region: the records it holds, none when erased; its header, and its pages of 16,380 bytes and their CRC-32C
  (R404, R405). -/
  dump : Option (List JRec)
  dumpHead : Option DumpHeader
  dumpPages : List Bytes
  dumpErased : Bool
  holdupOk : Bool
  /-- 3V3_FRU is present: it may come and go in either order with the input (19 R486). -/
  fruOn : Bool
  /-- Rail faults counted by rail (R403). -/
  railFaults : List Nat
  /-- The model's own: the first of the 26 free values that the last power sample gave to the input's mV and mA and to those of
  each rail, none before the first sample (log entry 3). -/
  measured : Option Nat
  /-- input_energy in µJ, and input_power_peak in mW (R424). -/
  energy : Nat
  peak : Nat
  deriving DecidableEq, Repr

/-! ### Units (18) -/

/-- A unit record that is not all zero (18 R473). -/
structure UnitRec where
  unit : Nat
  state : Nat
  cause : Nat
  faults : Nat
  tick : Tick
  deriving DecidableEq, Repr

/-- Units and health (18). -/
structure Units where
  recs : List UnitRec
  /-- Last fault tick by unit (R451), and retraining failures and missing-ready ticks. -/
  lastFault : List (Nat × Tick)
  retrainFails : List (Nat × List Tick)
  /-- Lost tiles: tile number, system-region flag. -/
  lost : List (Nat × Bool)
  fatalCause : Nat
  /-- Causes raised since reset, oldest first. -/
  fatals : List Nat
  /-- Last value of fatal_cause journalled (R467). -/
  fatalJournal : Nat
  deriving DecidableEq, Repr

/-! ### Beadline (15) -/

/-- A frame sent on the Beadline. -/
structure TxFrame where
  /-- Transmit pairs used. -/
  downstream : Bool
  upstream : Bool
  type : Nat
  source : Nat
  dest : Nat
  seq : Nat
  payload : Bytes
  tick : Tick
  deriving DecidableEq, Repr

/-- A waiting EVENT (15 R397). -/
structure BdlEvent where
  kind : Nat
  code : Nat
  seq : Nat
  tick : Tick
  index : Nat
  sub : Nat
  arg : Nat
  value : Bytes
  deriving DecidableEq, Repr

/-- The one transfer a station holds (15 R394). -/
structure OdXfer where
  write : Bool
  index : Nat
  sub : Nat
  arg : Nat
  data : Bytes
  next : Nat
  lastTick : Tick
  deriving DecidableEq, Repr

/-- The Beadline station (15). -/
structure Bdl where
  nodeId : Nat
  /-- 0 unassigned, 1 stopped, 2 operational. -/
  state : Nat
  upLink : Bool
  downLink : Bool
  manager : Bool
  txSeq : Nat
  evSeq : Nat
  lostSince : Nat
  /-- Last eight manager sequences acted on (R386). -/
  seen : List Nat
  /-- The last eight samples of each hop, each twice the delay (R390). -/
  delayUp : List Nat
  delayDown : List Nat
  /-- Outstanding DELAY_REQ: sequence and time sent, by direction; last measurement ticks. -/
  reqUp : Option (Nat × Nat)
  reqDown : Option (Nat × Nat)
  lastMeasUp : Tick
  lastMeasDown : Tick
  xfer : Option OdXfer
  events : List BdlEvent
  lastOrigin : Option Tick
  lastHeartbeat : Tick
  /-- Last manager HEARTBEAT seen. -/
  managerSeen : Tick
  reportLast : List Tick
  /-- Forward buffer (R384): at most four frames. -/
  forward : List TxFrame
  /-- Frames sent, newest first. -/
  tx : List TxFrame
  /-- Own frames that wait for the forward buffer to empty (R384). -/
  own : List TxFrame
  /-- ATTN 6 has been raised for a manager whose HEARTBEAT is missing (R398). -/
  managerLost : Bool
  /-- As module manager (R388): the id of the next assign, and the tick of the assign that has not come back. -/
  assignNext : Nat
  assignSent : Option Tick
  deriving DecidableEq, Repr

/-! ### Boot and security (17) -/

/-- An SPDM or DOE response (17 R446). -/
inductive SpdmReply where
  | none
  | versions (v : List Nat)
  | capabilities (cert chal meas sig : Bool)
  | algorithms (asym hash : Nat)
  | digests (d : Bytes)
  | certificate (slot : Nat) (part : Bytes) (rest : Nat)
  | challengeAuth (slot : Nat) (certHash : Bytes) (sig : Bytes)
  | measurements (blocks : List (Nat × Bytes)) (sig : Bytes)
  | doeTypes (type : Nat) (nextIndex : Nat)
  | error (code : Nat)
  deriving DecidableEq, Repr

/-- SPDM state of a port (17 R446, R427): 0 start, 1 version, 2 capabilities, 3 negotiated. -/
structure Spdm where
  phase : Nat
  asym : Nat
  reply : SpdmReply
  deriving DecidableEq, Repr

/-- A firmware image held (17 R433). -/
structure FwImage where
  length : Nat
  version : Nat
  security : Nat
  digest : Bytes
  /-- Failure of R434: 0 none, 1 digest, 2 signature or key, 3 malformed. -/
  fail : Nat
  deriving DecidableEq, Repr

/-- Boot, locks, firmware, identity (17; 14 R363). -/
structure Boot where
  /-- 0 in reset, else the stage of R428; 12 after full index availability. -/
  stage : Nat
  stageStart : Tick
  cause : Nat
  ready : Bool
  locks : BitVec 5
  /-- The boot area: none when it holds no valid header (R436). -/
  area : Option FwImage
  running : Option FwImage
  committed : Option FwImage
  /-- The update journal (17 R435): the steps of the commits made, 1 to 5, each with the body digest of its image. -/
  updates : List (Nat × Bytes)
  /-- The staging area (17 R435), in pages of 4,096 bytes; an unlisted page is zero. -/
  staging : List (Nat × Bytes)
  recovery : Bool
  identityFailed : Bool
  managementStarted : Bool
  /-- Config defaults asked for (14 R370). -/
  defaultsAsked : Bool
  /-- Start-up: cold power-on or module reset. -/
  cold : Bool
  dbgSel : Bool
  tdo : BitVec 32
  spdmA : Spdm
  spdmB : Spdm
  /-- Queue split in force (12 R293). -/
  split : Nat
  deriving DecidableEq, Repr

/-! ### Tick table, power states, buffers -/

/-- The tick table (02 R43-R47): slots that differ from the default, as 256-bit values. -/
structure TickTable where
  bank0 : List (Nat × BitVec 256)
  bank1 : List (Nat × BitVec 256)
  /-- The saved shadow bank of 0x3011. -/
  active : Bool
  pending : Bool
  status : Nat
  switchTick : Tick
  /-- Tick of the write that asked for the pending switch (R45). -/
  asked : Tick
  deriving DecidableEq, Repr

/-- The write buffer (01 R13; 06 R147-R149; 16 R406). -/
structure WriteBuf where
  /-- The mutation journal: records in the ring, oldest first. -/
  journal : List JRec
  /-- Records of it not yet programmed to flash. -/
  unprogrammed : Nat
  usable : Nat
  deriving DecidableEq, Repr

/-- The device power state (12 R314). -/
structure Pstate where
  state : Nat
  idleSince : Option Tick
  /-- Exit in progress: tick from which commands are served. -/
  exitAt : Option Tick
  deriving DecidableEq, Repr

/-- The module. -/
structure State where
  pending : List Instr
  clk : Clock
  orders : List Order
  /-- Next receipt number (02 R36). -/
  receipt : Nat
  /-- Values of the object dictionary that differ from their defaults, by `objKey` (14 R366, R370). -/
  dict : List (Nat × Nat)
  portA : PortState
  portB : PortState
  sqs : List Sq
  cqs : List Cq
  msix : List Msix
  /-- Posted writes the ports have sent, oldest first (12 R290). -/
  posted : List Posted
  wins : List (Nat × Window)
  boxes : List (Nat × Mailbox)
  cmds : List Cmd
  nextCid : Nat
  colls : List Coll
  chg : List Change
  cache : List CacheLine
  searches : List Search
  scan : Option ScanPass
  /-- Reply tags outstanding after a cut, and the tick from which the scanner may start a pass. -/
  tags : List Tag
  scanFree : Tick
  wb : WriteBuf
  carry : Carry
  tensor : Tensor
  shares : Shares
  pwr : Power
  units : Units
  bdl : Bdl
  boot : Boot
  table : TickTable
  ps : Pstate
  /-- SRAM, HBM and host memory by device address (10 R238); an unlisted byte reads 0. -/
  mem : List Host.Cell
  /-- Flash tiles by logical tile number; an unlisted tile is erased. -/
  flash : List (Nat × Tile)
  sys : SysRegion
  /-- Counter of free values used. -/
  free : Nat
  deriving DecidableEq, Repr

/-! ### Reset -/

/-- No flag raised. -/
def Flags.none : Flags := ⟨false, false, false, false, false, false, false⟩

/-- A port after module reset: its link down, registers at their reset values (14 R356-R360; 12 R316). -/
def PortState.reset : PortState where
  inReset := false
  linkUp := false
  rate := 0
  width := 0
  flit := false
  l0pWidth := 0
  linkState := 0
  vfs := 0
  pending := 0
  raiseSeq := List.replicate 16 0
  evCount := 0
  wrStatus := 0
  wrOffset := 0
  wrFails := 0
  wrTick := 0
  admin := ⟨false, false, false, false, 0, 0, 0, 0⟩
  tckHigh := 0
  halfWrite := []
  priBlocked := []
  doorbellErrors := 0
  cqFetchHolds := 0
  sqsHalted := 0
  aerCorrectable := 0
  aerUncorrectable := 0
  aerStatus := 0
  aerHeader := 0
  aerPrefix := 0
  relaxed := 0xFFFFFFFFFFFFFFFF
  vecMask := []
  vecPending := []
  msixSent := 0
  readData := 0

/-- The tick master while reset is asserted and at its release (02 R21). -/
def Clock.reset : Clock where
  counter := 0
  world := 0
  chips := List.replicate 8 ⟨0, 0, false, false⟩
  everLocked := false
  freeRun := false
  slewNs := 0
  sinceAdjust := 15
  period := 100
  lastOffset := Option.none
  lastSync := 0
  syncInterval := 64
  phaseStepNs := 0
  sent := Option.none
  skewMax := 0

/-- Frame and share accounting at reset (11 R283; 02 R492). -/
def Shares.reset : Shares where
  usedF := []
  usedC := []
  classUse := []
  slow := []
  totals := []
  readPtr := 0
  readWait := []
  readClass := []
  readDeficit := []
  streamPtr := 0
  streamWait := []
  streamClass := []
  streamDeficit := []
  bulkSince := 8
  readyF := []
  readyC := []
  latency := []

/-- Frames with nothing running and no model registered. -/
def Tensor.reset : Tensor where
  models := []
  seqs := []
  ctxs := []
  running := List.replicate 16 Option.none
  sums := []
  placements := []
  atc := []
  staleHost := []
  stalls := []
  busy := []

/-- Power on, nothing granted, every sensor at 0 °C until sampled (16; log entry 4). -/
def Power.reset : Power where
  phase := .on
  pwrGood := true
  grants := []
  nextGid := 0
  quiet := 0
  guard := false
  samples := []
  temps := List.replicate 47 0
  tempsMax := List.replicate 47 0
  step := 0
  riseTo := Option.none
  coolSince := Option.none
  mrstLow := false
  mrstRise := 0
  dump := Option.none
  dumpHead := Option.none
  dumpPages := []
  dumpErased := false
  holdupOk := false
  fruOn := false
  railFaults := List.replicate 12 0
  measured := Option.none
  energy := 0
  peak := 0

/-- Every unit in service (18 R473, R474). -/
def Units.reset : Units := ⟨[], [], [], [], 0, [], 0⟩

/-- An unassigned station with both links down (15 R380, R387, R400). -/
def Bdl.reset : Bdl where
  nodeId := 0xFF
  state := 0
  upLink := false
  downLink := false
  manager := false
  txSeq := 0
  evSeq := 0
  lostSince := 0
  seen := []
  delayUp := []
  delayDown := []
  reqUp := Option.none
  reqDown := Option.none
  lastMeasUp := 0
  lastMeasDown := 0
  xfer := Option.none
  events := []
  lastOrigin := Option.none
  lastHeartbeat := 0
  managerSeen := 0
  reportLast := List.replicate 8 0
  forward := []
  tx := []
  own := []
  managerLost := false
  assignNext := 1
  assignSent := Option.none

/-- SPDM ended (17 R427). -/
def Spdm.reset : Spdm := ⟨0, 0, .none⟩

/-- The image the module left the factory with (log entry 5). -/
def FwImage.factory : FwImage := ⟨8192, 0, 0, [], 0⟩

/-- Boot at stage 1 of a cold power-on (17 R428, R449, R450). -/
def Boot.reset : Boot where
  stage := 1
  stageStart := 0
  cause := 1
  ready := false
  locks := 0
  area := some FwImage.factory
  running := Option.none
  committed := Option.none
  updates := []
  staging := []
  recovery := false
  identityFailed := false
  managementStarted := false
  defaultsAsked := false
  cold := true
  dbgSel := false
  tdo := 0
  spdmA := Spdm.reset
  spdmB := Spdm.reset
  split := 131072

/-- The module at release of a cold power-on reset: tick 0, boot stage 1, no queue, no collection (02 R21; 17 R427). -/
def State.reset : State where
  pending := []
  clk := Clock.reset
  orders := []
  receipt := 0
  dict := []
  portA := PortState.reset
  portB := PortState.reset
  sqs := []
  cqs := []
  msix := []
  posted := []
  wins := []
  boxes := []
  cmds := []
  nextCid := 0
  colls := []
  chg := []
  cache := []
  searches := []
  scan := Option.none
  tags := []
  scanFree := 0
  wb := ⟨[], 0, 268435456⟩
  carry := ⟨[], Option.none, [], 0, 0⟩
  tensor := Tensor.reset
  shares := Shares.reset
  pwr := Power.reset
  units := Units.reset
  bdl := Bdl.reset
  boot := Boot.reset
  table := ⟨[], [], false, false, 0, 0, 0⟩
  ps := ⟨0, Option.none, Option.none⟩
  mem := []
  flash := []
  sys := ⟨[], 0, []⟩
  free := 0

end Sys2Proof.Machine
end

