-- ==== Sys2Proof/Machine/Flags.lean ====
section
/-! DEFINITION. Statuses, qualifiers, attention codes (12 R305-R307) and the sticky flags of a command (07 R190). -/
namespace Sys2Proof.Machine

/-- Status codes (12 R305). -/
abbrev Status.success : Nat := 0x00
abbrev Status.superseded : Nat := 0x08
abbrev Status.invalidOpcode : Nat := 0x10
abbrev Status.invalidField : Nat := 0x11
abbrev Status.invalidCollection : Nat := 0x12
abbrev Status.accessDenied : Nat := 0x13
abbrev Status.quotaExceeded : Nat := 0x14
abbrev Status.notReady : Nat := 0x15
abbrev Status.locked : Nat := 0x16
abbrev Status.deadlineExpired : Nat := 0x20
abbrev Status.queueReset : Nat := 0x21
abbrev Status.mediaUncorrectable : Nat := 0x30
abbrev Status.modelUnavailable : Nat := 0x31
abbrev Status.unitOut : Nat := 0x32
abbrev Status.faultRepeated : Nat := 0x33
abbrev Status.checksumFail : Nat := 0x40
abbrev Status.streamFootprint : Nat := 0x41
abbrev Status.pageRequestFailed : Nat := 0x42
abbrev Status.programFault : Nat := 0x43
abbrev Status.capacityFull : Nat := 0x50
abbrev Status.internalError : Nat := 0xFF

/-- Qualifier bits (12 R306). -/
abbrev Qual.partial_ : Nat := 0x0001
abbrev Qual.short : Nat := 0x0002
abbrev Qual.tieOut : Nat := 0x0004
abbrev Qual.nanSeen : Nat := 0x0008
abbrev Qual.cold : Nat := 0x0010
abbrev Qual.degraded : Nat := 0x0020
abbrev Qual.restarted : Nat := 0x0040
abbrev Qual.nondet : Nat := 0x0080
abbrev Qual.longsum : Nat := 0x0100
abbrev Qual.flushed : Nat := 0x0200
abbrev Qual.staleEdge : Nat := 0x0400
abbrev Qual.filterStarved : Nat := 0x0800
abbrev Qual.overflow : Nat := 0x1000
abbrev Qual.invalid : Nat := 0x2000
abbrev Qual.saturated : Nat := 0x4000

/-- Attention codes (12 R307). -/
abbrev Attn.thermal : Nat := 1
abbrev Attn.powerLimit : Nat := 2
abbrev Attn.unitOut : Nat := 3
abbrev Attn.mediaWear : Nat := 4
abbrev Attn.carryDone : Nat := 5
abbrev Attn.beadline : Nat := 6
abbrev Attn.firmware : Nat := 7
abbrev Attn.syncLost : Nat := 8
abbrev Attn.fatal : Nat := 15

/-- The codes in priority order, highest first (12 R307). -/
def Attn.priority : List Nat := [15, 3, 7, 8, 1, 2, 4, 6, 5]

/-- The union of two sets of sticky flags (07 R190). -/
def Flags.or (a b : Flags) : Flags where
  nanSeen := a.nanSeen || b.nanSeen
  flushed := a.flushed || b.flushed
  overflow := a.overflow || b.overflow
  invalid := a.invalid || b.invalid
  saturated := a.saturated || b.saturated
  longsum := a.longsum || b.longsum
  nondet := a.nondet || b.nondet

/-- NAN_SEEN alone. -/
def Flags.nan : Flags := { Flags.none with nanSeen := true }
/-- INVALID and NAN_SEEN. -/
def Flags.nanInvalid : Flags := { Flags.none with nanSeen := true, invalid := true }
/-- OVERFLOW alone. -/
def Flags.ovf : Flags := { Flags.none with overflow := true }
/-- SATURATED alone. -/
def Flags.sat : Flags := { Flags.none with saturated := true }
/-- INVALID alone. -/
def Flags.inv : Flags := { Flags.none with invalid := true }
/-- FLUSHED alone. -/
def Flags.flush : Flags := { Flags.none with flushed := true }

/-- The qualifier bits 3, 7, 8, 9, 12, 13 and 14 of a set of flags (07 R190; 08 R211). -/
def Flags.quals (f : Flags) : Nat :=
  b2n f.nanSeen * Qual.nanSeen + b2n f.nondet * Qual.nondet + b2n f.longsum * Qual.longsum
    + b2n f.flushed * Qual.flushed + b2n f.overflow * Qual.overflow + b2n f.invalid * Qual.invalid
    + b2n f.saturated * Qual.saturated

/-- The status class of R285: high nibble; its place in `jobsFailed`, or none for classes that are not failures. -/
def Status.classIx (st : Nat) : Option Nat :=
  match st / 16 with
  | 1 => some 0
  | 2 => some 1
  | 3 => some 2
  | 4 => some 3
  | 5 => some 4
  | 15 => some 5
  | _ => Option.none

/-- The bitwise OR of two qualifier words. -/
def orQuals (a b : Nat) : Nat := (BitVec.ofNat 16 a ||| BitVec.ofNat 16 b).toNat

end Sys2Proof.Machine
end

