-- ==== Sys2Proof/Machine/Float.lean ====
section
/-! DEFINITION. Number formats, conversions, comparisons and the single FP32 operations (07; 08 R196, R197; 05 R121,
R133). Every value is decoded to an exact one, computed exactly, and rounded once. -/
namespace Sys2Proof.Machine

/-- Format codes (07 R176). -/
abbrev Fmt.f8 : Nat := 0
abbrev Fmt.bf16 : Nat := 1
abbrev Fmt.fp16 : Nat := 2
abbrev Fmt.int8 : Nat := 3
abbrev Fmt.fp32 : Nat := 4
abbrev Fmt.int4 : Nat := 5
abbrev Fmt.bit1 : Nat := 6

/-- Bits of an element of a format (07 R176). -/
def fmtBits (fmt : Nat) : Nat :=
  match fmt with
  | 0 => 8
  | 1 => 16
  | 2 => 16
  | 3 => 8
  | 4 => 32
  | 5 => 4
  | _ => 1

/-- Bytes of an element of a whole-byte format (03 R61). -/
def fmtBytes (fmt : Nat) : Nat := fmtBits fmt / 8

/-- The exact value a code stands for: `(-1)^neg * mant * 2^exp`, an infinity, or a NaN. -/
inductive Val where
  | nan (signalling : Bool)
  | inf (neg : Bool)
  | fin (neg : Bool) (mant : Nat) (exp : Int)
  deriving DecidableEq, Repr

/-- A float with `ew` exponent bits, `mw` mantissa bits and IEEE 754 special codes (07 R176). -/
def decodeIeee (ew mw : Nat) (code : Nat) : Val :=
  let neg := bit code (ew + mw)
  let e := bits code (ew + mw - 1) mw
  let m := code % 2 ^ mw
  let bias : Int := 2 ^ (ew - 1) - 1
  if e = 2 ^ ew - 1 then
    if m = 0 then .inf neg else .nan (!bit m (mw - 1))
  else if e = 0 then .fin neg m (1 - bias - mw)
  else .fin neg (2 ^ mw + m) (e - bias - mw)

/-- F8 (07 R178): no infinity, 0x80 the one NaN. -/
def decodeF8 (code : Nat) : Val :=
  let e := bits code 6 3
  let m := code % 8
  if code = 0x80 then .nan false
  else if e = 0 then .fin (bit code 7) m (-9)
  else .fin (bit code 7) (8 + m) (e - 10)

/-- A two's complement integer of `w` bits. -/
def decodeInt (w code : Nat) : Val :=
  if bit code (w - 1) then .fin true (2 ^ w - code % 2 ^ w) 0 else .fin false (code % 2 ^ w) 0

/-- The exact value of a code in a format (07 R176-R178). A 1-bit operand stands for +1 or -1 (R177). -/
def decodeVal (fmt code : Nat) : Val :=
  match fmt with
  | 0 => decodeF8 (code % 256)
  | 1 => decodeIeee 8 7 (code % 2 ^ 16)
  | 2 => decodeIeee 5 10 (code % 2 ^ 16)
  | 3 => decodeInt 8 code
  | 4 => decodeIeee 8 23 (code % 2 ^ 32)
  | 5 => decodeInt 4 code
  | _ => if code % 2 = 1 then .fin false 1 0 else .fin true 1 0

/-- Number of bits of n. -/
def bitLen (n : Nat) : Nat := if n = 0 then 0 else Nat.log2 n + 1

/-- `mant * 2^exp` as a multiple of `2^q`, to nearest with ties to even (07 R183). -/
def roundAt (mant : Nat) (exp q : Int) : Nat :=
  if q ≤ exp then mant * 2 ^ (exp - q).toNat
  else
    let sh := (q - exp).toNat
    let hi := mant / 2 ^ sh
    let lo := mant % 2 ^ sh
    let half := 2 ^ (sh - 1)
    if lo < half then hi else if half < lo then hi + 1 else hi + hi % 2

/-- The code, without its sign, of `mant * 2^exp` rounded into a float of `ew` and `mw` bits; it may pass the largest
finite code, and is then at least `2^ew - 1` shifted by `mw`. -/
def roundMag (ew mw : Nat) (mant : Nat) (exp : Int) : Nat :=
  let bias : Int := 2 ^ (ew - 1) - 1
  let emin : Int := 1 - bias
  let e : Int := max (exp + bitLen mant - 1) emin
  ((e + bias - 1).toNat) * 2 ^ mw + roundAt mant exp (e - mw)

/-- Round a finite value into FP32 (07 R183; 08 R197), flushing a subnormal result when `fl` (R188). -/
def roundF32 (fl neg : Bool) (mant : Nat) (exp : Int) : F32 × Flags :=
  let sign := b2n neg * 2 ^ 31
  if mant = 0 then (BitVec.ofNat 32 sign, Flags.none)
  else
    let c := roundMag 8 23 mant exp
    if 0x7F800000 ≤ c then (BitVec.ofNat 32 (sign + 0x7F800000), Flags.ovf)
    else if fl && decide (c < 2 ^ 23) && decide (c ≠ 0) then (BitVec.ofNat 32 sign, Flags.flush)
    else (BitVec.ofNat 32 (sign + c), Flags.none)

/-- The canonical FP32 NaN (07 R180). -/
def nan32 : F32 := 0x7FC00000#32
/-- An FP32 infinity. -/
def inf32 (neg : Bool) : F32 := if neg then 0xFF800000#32 else 0x7F800000#32
/-- FP32 one, plus zero and minus zero. -/
def one32 : F32 := 0x3F800000#32
def zero32 : F32 := 0x00000000#32
def negZero32 : F32 := 0x80000000#32

/-- Is it a NaN, an infinity, a zero, negative? -/
def isNan (x : F32) : Bool := decide (0x7F800000 < x.toNat % 2 ^ 31)
def isInf (x : F32) : Bool := decide (x.toNat % 2 ^ 31 = 0x7F800000)
def isZero (x : F32) : Bool := decide (x.toNat % 2 ^ 31 = 0)
def isNeg (x : F32) : Bool := x.getLsbD 31
/-- A signalling NaN (07 R176). -/
def isSnan (x : F32) : Bool := isNan x && !x.getLsbD 22
def isFinite (x : F32) : Bool := !isNan x && !isInf x

/-- The exact value of an FP32 word. -/
def val32 (x : F32) : Val := decodeIeee 8 23 x.toNat

/-- Read an operand under the subnormal mode: a non-zero subnormal input reads as a zero of its sign (07 R188). -/
def flushIn (fl : Bool) (fmt : Nat) (v : Val) : Val × Flags :=
  match v with
  | .fin neg m e =>
    let sub := match fmt with
      | 0 => decide (m < 8) && decide (e = -9)
      | 1 => decide (m < 2 ^ 7) && decide (e = -133)
      | 2 => decide (m < 2 ^ 10) && decide (e = -24)
      | 4 => decide (m < 2 ^ 23) && decide (e = -149)
      | _ => false
    if fl && sub && decide (m ≠ 0) then (.fin (neg && decide (fmt ≠ 0)) 0 e, Flags.flush) else (v, Flags.none)
  | v => (v, Flags.none)

/-- Flags of a NaN operand. -/
def nanFlags (s : Bool) : Flags := if s then Flags.nanInvalid else Flags.nan

/-- Convert an exact value into FP32 (07 R182, R187). -/
def toF32 (fl : Bool) (v : Val) : F32 × Flags :=
  match v with
  | .nan s => (nan32, nanFlags s)
  | .inf n => (inf32 n, Flags.none)
  | .fin n m e => roundF32 fl n m e

/-- The sum of two finite values, exactly: sign, mantissa, exponent, and whether it is an exact zero. -/
def addExact (n1 : Bool) (m1 : Nat) (e1 : Int) (n2 : Bool) (m2 : Nat) (e2 : Int) : Bool × Nat × Int :=
  let e := min e1 e2
  let a : Int := (if n1 then -1 else 1) * (m1 * 2 ^ (e1 - e).toNat : Nat)
  let b : Int := (if n2 then -1 else 1) * (m2 * 2 ^ (e2 - e).toNat : Nat)
  let s := a + b
  if s = 0 then (n1 && n2, 0, e) else (decide (s < 0), s.natAbs, e)

/-- Addition of two exact values, rounded once to FP32 (08 R197). -/
def addVal (fl : Bool) (a b : Val) : F32 × Flags :=
  match a, b with
  | .nan s, .nan t => (nan32, nanFlags (s || t))
  | .nan s, _ => (nan32, nanFlags s)
  | _, .nan t => (nan32, nanFlags t)
  | .inf n, .inf m => if n = m then (inf32 n, Flags.none) else (nan32, Flags.nanInvalid)
  | .inf n, _ => (inf32 n, Flags.none)
  | _, .inf m => (inf32 m, Flags.none)
  | .fin n1 m1 e1, .fin n2 m2 e2 =>
    let (n, m, e) := addExact n1 m1 e1 n2 m2 e2
    roundF32 fl n m e

/-- Negate an exact value. -/
def negVal : Val → Val
  | .nan s => .nan s
  | .inf n => .inf (!n)
  | .fin n m e => .fin (!n) m e

/-- FP32 addition and subtraction (08 R197). -/
def add32 (fl : Bool) (a b : F32) : F32 × Flags := addVal fl (val32 a) (val32 b)
def sub32 (fl : Bool) (a b : F32) : F32 × Flags := addVal fl (val32 a) (negVal (val32 b))

/-- Product of two exact values, rounded once to FP32 (08 R196). -/
def mulVal (fl : Bool) (a b : Val) : F32 × Flags :=
  match a, b with
  | .nan s, .nan t => (nan32, nanFlags (s || t))
  | .nan s, _ => (nan32, nanFlags s)
  | _, .nan t => (nan32, nanFlags t)
  | .inf n, .inf m => (inf32 (n != m), Flags.none)
  | .inf n, .fin m k _ => if k = 0 then (nan32, Flags.nanInvalid) else (inf32 (n != m), Flags.none)
  | .fin n k _, .inf m => if k = 0 then (nan32, Flags.nanInvalid) else (inf32 (n != m), Flags.none)
  | .fin n1 m1 e1, .fin n2 m2 e2 => roundF32 fl (n1 != n2) (m1 * m2) (e1 + e2)

/-- FP32 multiplication. -/
def mul32 (fl : Bool) (a b : F32) : F32 × Flags := mulVal fl (val32 a) (val32 b)

/-- Division of exact values, rounded once to FP32 (05 R121). -/
def divVal (fl : Bool) (a b : Val) : F32 × Flags :=
  match a, b with
  | .nan s, .nan t => (nan32, nanFlags (s || t))
  | .nan s, _ => (nan32, nanFlags s)
  | _, .nan t => (nan32, nanFlags t)
  | .inf _, .inf _ => (nan32, Flags.nanInvalid)
  | .inf n, .fin m _ _ => (inf32 (n != m), Flags.none)
  | .fin n _ _, .inf m => (if n != m then negZero32 else zero32, Flags.none)
  | .fin n1 m1 e1, .fin n2 m2 e2 =>
    if m2 = 0 then
      if m1 = 0 then (nan32, Flags.nanInvalid) else (inf32 (n1 != n2), Flags.none)
    else
      let k := bitLen m2 + 64
      let q := m1 * 2 ^ k / m2
      let sticky := if m1 * 2 ^ k % m2 = 0 then 0 else 1
      roundF32 fl (n1 != n2) (2 * q + sticky) (e1 - e2 - k - 1)

/-- FP32 division. -/
def div32 (fl : Bool) (a b : F32) : F32 × Flags := divVal fl (val32 a) (val32 b)

/-- Integer square root by bits, highest first. -/
def isqrt : Nat → Nat → Nat → Nat
  | 0, _, r => r
  | b + 1, n, r => isqrt b n (if (r + 2 ^ b) * (r + 2 ^ b) ≤ n then r + 2 ^ b else r)

/-- Square root, correctly rounded to FP32 (05 R120; 09 R221). Of a negative value: the canonical NaN and INVALID. -/
def sqrt32 (fl : Bool) (x : F32) : F32 × Flags :=
  match val32 x with
  | .nan s => (nan32, nanFlags s)
  | .inf n => if n then (nan32, Flags.nanInvalid) else (inf32 false, Flags.none)
  | .fin n m e =>
    if m = 0 then (x, Flags.none)
    else if n then (nan32, Flags.nanInvalid)
    else
      let e' := e - 128 - (e % 2)
      let m' := m * 2 ^ (e - e').toNat
      let r := isqrt 100 m' 0
      let sticky := if r * r = m' then 0 else 1
      roundF32 fl false (2 * r + sticky) (e' / 2 - 1)

/-- Sum of the Taylor terms of exp at `x / 2^320`, in units of `2^-320`. -/
def expTerms : Nat → Nat → Nat → Nat → Nat → Nat
  | 0, _, _, _, acc => acc
  | fuel + 1, x, k, t, acc => expTerms fuel x (k + 1) (t * x / 2 ^ 320 / (k + 1)) (acc + t)

/-- exp of a finite FP32 value, correctly rounded to FP32 with subnormals kept (05 R133). The sum of 700 terms in 320
fractional bits is enclosed between `s` and `s` increased by one part in 2^200. -/
def exp32 (x : F32) : F32 × Flags :=
  match val32 x with
  | .nan s => (nan32, nanFlags s)
  | .inf n => if n then (zero32, Flags.none) else (inf32 false, Flags.none)
  | .fin n m e =>
    if m = 0 then (one32, Flags.none)
    else if (7 : Int) < e + bitLen m then (if n then (zero32, Flags.none) else (inf32 false, Flags.ovf))
    else
      let s := expTerms 700 (m * 2 ^ (e + 320).toNat) 0 (2 ^ 320) 0
      let s' := s + s / 2 ^ 200 + 1
      if n then roundF32 false false (2 * (2 ^ 1000 / s') + 1) (320 - 1001)
      else roundF32 false false (2 * s' + 1) (-321)

/-- The order of R191 on values that are not NaN: −0 and +0 are equal. -/
def ordKey (x : F32) : Int :=
  if isNeg x then -((x.toNat % 2 ^ 31 : Nat) : Int) else ((x.toNat % 2 ^ 31 : Nat) : Int)

/-- Less, and equal, under R191: false with a NaN operand. -/
def lt32 (a b : F32) : Bool := !isNan a && !isNan b && decide (ordKey a < ordKey b)
def eq32 (a b : F32) : Bool := !isNan a && !isNan b && decide (ordKey a = ordKey b)

/-- The term of R133: exp(x − c), exactly 1.0 when x equals c and +0 when x − c is −∞. -/
def expTerm (fl : Bool) (x c : F32) : F32 × Flags :=
  if eq32 x c then (one32, Flags.none)
  else
    let (d, f) := sub32 fl x c
    if isNan d then (nan32, f)
    else if d = inf32 true then (zero32, f)
    else
      let (e, g) := exp32 d
      (e, f.or g)

/-- One step of the maximum of R192: keep the first of equal members. -/
def maxStep (m x : F32) : F32 × Flags :=
  if isNan m || isNan x then (nan32, nanFlags (isSnan m || isSnan x))
  else if lt32 m x then (x, Flags.none) else (m, Flags.none)

/-- The minimum, formed in the same way with the order reversed (07 R192). -/
def minStep (m x : F32) : F32 × Flags :=
  if isNan m || isNan x then (nan32, nanFlags (isSnan m || isSnan x))
  else if lt32 x m then (x, Flags.none) else (m, Flags.none)

/-- An FP32 word read under the subnormal mode (07 R188): a subnormal is a zero of its sign where the mode flushes. -/
def flushWord (fl : Bool) (x : F32) : F32 × Flags :=
  match val32 x with
  | .fin neg m e =>
    match flushIn fl 4 (.fin neg m e) with
    | (.fin _ 0 _, f) => (if neg then negZero32 else zero32, f)
    | (_, f) => (x, f)
  | _ => (x, Flags.none)

/-- The maximum of a non-empty list in its order (07 R192). -/
def maxList : List F32 → F32 × Flags
  | [] => (nan32, Flags.none)
  | [x] => if isNan x then (nan32, nanFlags (isSnan x)) else (x, Flags.none)
  | x :: xs => xs.foldl (fun (a : F32 × Flags) y => let (m, f) := maxStep a.1 y; (m, a.2.or f)) (x, Flags.none)

/-! ### Conversions into the formats (07 R182-R187) -/

/-- Into F8 (07 R184). -/
def toF8 (fl : Bool) (v : Val) : Nat × Flags :=
  match v with
  | .nan s => (0x80, nanFlags s)
  | .inf n => (if n then 0xFF else 0x7F, Flags.sat)
  | .fin n m e =>
    let big := if 0 ≤ e then decide (480 < m * 2 ^ e.toNat) else decide (480 * 2 ^ (-e).toNat < m)
    if big then (if n then 0xFF else 0x7F, Flags.sat)
    else
      let c := if m = 0 then 0 else roundMag 4 3 m e
      if c = 0 then (0, Flags.none)
      else if fl && decide (c < 8) then (0, Flags.flush)
      else (b2n n * 128 + c, Flags.none)

/-- Into BF16 or FP16 under IEEE 754 (07 R185). -/
def toHalf (fl : Bool) (ew mw : Nat) (v : Val) : Nat × Flags :=
  let top := 2 ^ (ew + mw)
  let infc := (2 ^ ew - 1) * 2 ^ mw
  match v with
  | .nan s => (infc + 2 ^ (mw - 1), nanFlags s)
  | .inf n => (b2n n * top + infc, Flags.none)
  | .fin n m e =>
    let c := if m = 0 then 0 else roundMag ew mw m e
    if infc ≤ c then (b2n n * top + infc, Flags.ovf)
    else if fl && decide (c < 2 ^ mw) && decide (c ≠ 0) then (b2n n * top, Flags.flush)
    else (b2n n * top + c, Flags.none)

/-- Into INT8 or INT4 of `w` bits: saturating, or wrapping when `iov` (07 R186). -/
def toInt (iov : Bool) (w : Nat) (v : Val) : Nat × Flags :=
  match v with
  | .nan _ => (0, Flags.inv)
  | .inf n => (if n then 2 ^ (w - 1) else 2 ^ (w - 1) - 1, Flags.sat)
  | .fin n m e =>
    let r := roundAt m e 0
    if iov then ((if n then 2 ^ w - r % 2 ^ w else r) % 2 ^ w, Flags.none)
    else if n then
      if 2 ^ (w - 1) < r then (2 ^ (w - 1), Flags.sat) else ((2 ^ w - r) % 2 ^ w, Flags.none)
    else if 2 ^ (w - 1) - 1 < r then (2 ^ (w - 1) - 1, Flags.sat) else (r, Flags.none)

/-- A conversion into a format with its flags (07 R182-R187). -/
def convert (fl iov : Bool) (fmt : Nat) (v : Val) : Nat × Flags :=
  match fmt with
  | 0 => toF8 fl v
  | 1 => toHalf fl 8 7 v
  | 2 => toHalf fl 5 10 v
  | 3 => toInt iov 8 v
  | 4 => let (x, f) := toF32 fl v; (x.toNat, f)
  | 5 => toInt iov 4 v
  | _ => (match v with | .fin false _ _ => 1 | _ => 0, Flags.none)

/-- The conversion made when a supplied vector is stored (07 R185): infinities and overflows saturate. -/
def convertStored (fmt : Nat) (v : Val) : Nat × Flags :=
  let (c, f) := convert false false fmt v
  let sat := match v with | .inf _ => true | _ => f.overflow
  if sat && (fmt = 1 || fmt = 2 || fmt = 4) then
    let maxc := match fmt with | 1 => 0x7F7F | 2 => 0x7BFF | _ => 0x7F7FFFFF
    let neg := match v with | .inf n => n | .fin n _ _ => n | .nan _ => false
    (b2n neg * 2 ^ (fmtBits fmt - 1) + maxc, Flags.sat)
  else (c, f)

/-- Element i of a row of elements in a format (07 R177). -/
def element (fmt : Nat) (row : Bytes) (i : Nat) : Nat :=
  match fmt with
  | 5 => bits (fieldAt row (i / 2) 1) (4 * (i % 2) + 3) (4 * (i % 2))
  | 6 => bits (fieldAt row (i / 8) 1) (i % 8) (i % 8)
  | _ => fieldAt row (i * fmtBytes fmt) (fmtBytes fmt)

/-- The n elements of a row, in a whole-byte format, as exact values. -/
def rowVals (fmt n : Nat) (row : Bytes) : List Val :=
  (List.range n).map (fun i => decodeVal fmt (element fmt row i))

end Sys2Proof.Machine
end

