-- ==== Sys2Proof/Machine/Accum.lean ====
section
/-! DEFINITION. Accumulation and reduction (08): the block tree, the pair, fused row outputs, curves. -/
namespace Sys2Proof.Machine

/-- A value with the flags raised in forming it. -/
abbrev Flagged (α : Type) := α × Flags

/-- An accumulator before its first term (08 R199): lo starts as −0. -/
def Accum.empty : Accum := ⟨List.replicate 8 none, 0, 0, none, negZero32⟩

/-- An accumulator with a preload in hi (08 R203). -/
def Accum.preload (p : F32) : Accum := { Accum.empty with hi := some p }

/-- Gather a block sum into the pair (08 R199, R200). The first block of a dot product without preload becomes hi and
counts as gathered. The error of a finite sum that overflows is minus that infinity (DEDUCED, log entry 20). -/
def Accum.gather (fl : Bool) (a : Accum) (b : F32) : Flagged Accum :=
  match a.hi with
  | none => ({ a with hi := some b, spill := 1 }, Flags.none)
  | some hi =>
    let spill := min (a.spill + 1) 4096
    let (s, f) := add32 fl hi b
    if a.spill = 4096 then ({ a with hi := some s, spill := spill }, f.or { Flags.none with longsum := true })
    else if !isFinite hi || !isFinite b then ({ a with hi := some s, lo := negZero32, spill := spill }, f)
    else
      let e := match val32 hi, val32 b, val32 s with
        | .fin n1 m1 e1, .fin n2 m2 e2, .fin n3 m3 e3 =>
          let (n, m, k) := addExact n1 m1 e1 n2 m2 e2
          let (n', m', k') := addExact n m k (!n3) m3 e3
          Val.fin n' m' k'
        | _, _, _ => Val.inf (decide (s ≠ inf32 true))
      match e with
      | .fin _ 0 _ => ({ a with hi := some s, spill := spill }, f)
      | e =>
        let (lo, g) := addVal fl (val32 a.lo) e
        ({ a with hi := some s, lo := lo, spill := spill }, f.or g)

/-- Carry a value up the pending levels of the tree (08 R198): the new levels, and the block sum when it leaves the
top. -/
def treePush (fl : Bool) : List (Option F32) → F32 → List (Option F32) × Option F32 × Flags
  | [], t => ([], some t, Flags.none)
  | none :: ls, t => (some t :: ls, none, Flags.none)
  | some p :: ls, t =>
    let (s, f) := add32 fl p t
    let (ls', out, g) := treePush fl ls s
    (none :: ls', out, f.or g)

/-- Take one term (08 R198). -/
def Accum.term (fl : Bool) (a : Accum) (t : F32) : Flagged Accum :=
  let (tree, out, f) := treePush fl a.tree t
  match out with
  | none => ({ a with tree := tree, taken := a.taken + 1 }, f)
  | some b =>
    let (a', g) := Accum.gather fl { a with tree := tree, taken := 0 } b
    (a', f.or g)

/-- Combine the pending values of a short block from the lowest level upward, the higher level's value on the left. -/
def treeClose (fl : Bool) : List (Option F32) → Option F32 → Flags → Option F32 × Flags
  | [], acc, f => (acc, f)
  | none :: ls, acc, f => treeClose fl ls acc f
  | some p :: ls, none, f => treeClose fl ls (some p) f
  | some p :: ls, some v, f =>
    let (s, g) := add32 fl p v
    treeClose fl ls (some s) (f.or g)

/-- End the last block, if it holds terms. -/
def Accum.close (fl : Bool) (a : Accum) : Flagged Accum :=
  match treeClose fl a.tree none Flags.none with
  | (none, _) => (a, Flags.none)
  | (some b, f) =>
    let (a', g) := Accum.gather fl { a with tree := List.replicate 8 none, taken := 0 } b
    (a', f.or g)

/-- fl(hi + lo) after the last block; +0 of no terms and no preload (08 R199). -/
def Accum.finish (fl : Bool) (a : Accum) : Flagged F32 :=
  let (c, f) := Accum.close fl a
  match c.hi with
  | none => (zero32, Flags.none)
  | some hi =>
    let (v, g) := add32 fl hi c.lo
    (v, f.or g)

/-- Feed terms in order, collecting flags. -/
def Accum.terms (fl : Bool) (a : Accum) (ts : List (Flagged F32)) : Flagged Accum :=
  ts.foldl (fun (acc : Flagged Accum) t =>
    let (a', f) := Accum.term fl acc.1 t.1
    (a', (acc.2.or t.2).or f)) (a, Flags.none)

/-- The products of two rows of exact values (08 R196). -/
def products (fl : Bool) (xs ys : List Val) : List (Flagged F32) :=
  (xs.zip ys).map (fun p => mulVal fl p.1 p.2)

/-- The exact value 1. -/
def oneVal : Val := .fin false 1 0

/-- A dot product (08 R198, R199). -/
def dotVal (fl : Bool) (xs ys : List Val) : Flagged F32 :=
  let (a, f) := Accum.terms fl Accum.empty (products fl xs ys)
  let (v, g) := Accum.finish fl a
  (v, f.or g)

/-- A sum: a dot product whose second operand is 1.0 in every term (08 R194). -/
def sumF32 (fl : Bool) (xs : List F32) : Flagged F32 :=
  dotVal fl (xs.map val32) (xs.map (fun _ => oneVal))

/-- The sum of squares of a row (08 R206). -/
def squaresF32 (fl : Bool) (xs : List F32) : Flagged F32 :=
  dotVal fl (xs.map val32) (xs.map val32)

/-- Apply `f` to every element, joining the flags. -/
def mapFlagged {α β : Type} (f : α → Flagged β) : List α → Flagged (List β)
  | [] => ([], Flags.none)
  | x :: xs =>
    let (y, g) := f x
    let (ys, h) := mapFlagged f xs
    (y :: ys, g.or h)

/-- Take terms through a tree (08 R198, R209): the sums of the blocks they complete, in order, and the tree left open. -/
def blockRun (fl : Bool) (tree : List (Option F32)) : List (Flagged F32) → List F32 × List (Option F32) × Flags
  | [] => ([], tree, Flags.none)
  | t :: ts =>
    let (tree, out, f) := treePush fl tree t.1
    let (bs, tree, g) := blockRun fl tree ts
    (out.toList ++ bs, tree, (t.2.or f).or g)

/-- The block sums of a frame's terms, the open block ended unless the instruction leaves it open (09 R223). -/
def blockSums (fl : Bool) (a : Accum) (open_ : Bool) (ts : List (Flagged F32)) : List F32 × Accum × Flags :=
  let (bs, tree, f) := blockRun fl a.tree ts
  if open_ then (bs, { a with tree := tree }, f)
  else
    let (b, g) := treeClose fl tree none Flags.none
    (bs ++ b.toList, { a with tree := List.replicate 8 none }, f.or g)

/-- Gather block sums in ascending block index (08 R209). -/
def gatherBlocks (fl : Bool) (a : Accum) (bs : List F32) : Flagged F32 :=
  let (a', f) := bs.foldl (fun (acc : Flagged Accum) b =>
    let (x, g) := Accum.gather fl acc.1 b
    (x, acc.2.or g)) (a, Flags.none)
  let (v, h) := Accum.finish fl a'
  (v, f.or h)

/-! ### Fused row outputs (08 R204-R208) -/

/-- The state of a row before its first tile. -/
def RowRec.start : RowRec :=
  ⟨false, zero32, zero32, Accum.empty, 0, zero32, zero32, zero32, 0, 0⟩

/-- One tile of the row maximum and exp-sum (08 R205); the tile's sum is a sum of R194, in column order (DEDUCED, log
entry 20). -/
def rowMaxTile (fl : Bool) (r : RowRec) (xs : List F32) : Flagged RowRec :=
  let (t, f) := maxList xs
  let (es, f1) := mapFlagged (fun x => expTerm fl x t) xs
  let (e, f2) := sumF32 fl es
  let fs := (f.or f1).or f2
  if !r.started then ({ r with started := true, m := t, s := e }, fs)
  else
    let (c, g) := maxList [r.m, t]
    let (tm, g1) := expTerm fl r.m c
    let (tt, g2) := expTerm fl t c
    let (a, g3) := mul32 fl r.s tm
    let (b, g4) := mul32 fl e tt
    let (s, g5) := add32 fl a b
    ({ r with m := c, s := s }, ((((((fs.or g).or g1).or g2).or g3).or g4).or g5))

/-- One tile of the sum of squares (08 R206). -/
def rowSquaresTile (fl : Bool) (r : RowRec) (xs : List F32) : Flagged RowRec :=
  let (a, f) := Accum.terms fl r.squares (products fl (xs.map val32) (xs.map val32))
  ({ r with started := true, squares := a }, f)

/-- One value of the mean and variance (08 R207). -/
def rowMeanValue (fl : Bool) (acc : Flagged RowRec) (x : F32) : Flagged RowRec :=
  let r := acc.1
  let k := r.k + 1
  let (delta, f1) := sub32 fl x r.mean
  let (q, f2) := divVal fl (val32 delta) (.fin false k 0)
  let (mean, f3) := add32 fl r.mean q
  let (d2, f4) := sub32 fl x mean
  let (p, f5) := mul32 fl delta d2
  let (m2, f6) := add32 fl r.m2 p
  ({ r with started := true, k := k, mean := mean, m2 := m2 },
    ((((((acc.2.or f1).or f2).or f3).or f4).or f5).or f6))

/-- One value of the argmax (08 R208): the first NaN, else the first greatest. `argPos` counts over the whole row;
`cols` is the column of the next value. -/
def rowArgValue (r : RowRec) (x : F32) : RowRec :=
  if r.cols = 0 then { r with started := true, argVal := x, argPos := 0, cols := 1 }
  else if isNan r.argVal then { r with cols := r.cols + 1 }
  else if isNan x || lt32 r.argVal x then { r with argVal := x, argPos := r.cols, cols := r.cols + 1 }
  else { r with cols := r.cols + 1 }

/-- Take one tile's values of a row into its record, as FUSE asks (09 R218). -/
def fuseTile (fl : Bool) (fuse : Nat) (r : RowRec) (xs : List F32) : Flagged RowRec :=
  let (r1, f1) := if bit fuse 0 then rowMaxTile fl r xs else (r, Flags.none)
  let (r2, f2) := if bit fuse 1 then rowSquaresTile fl r1 xs else (r1, Flags.none)
  let (r3, f3) := if bit fuse 2 then xs.foldl (rowMeanValue fl) (r2, Flags.none) else (r2, Flags.none)
  let r4 := if bit fuse 3 then xs.foldl rowArgValue r3 else r3
  let f4 := if bit fuse 3 then xs.foldl (fun f x => if isNan x then f.or (nanFlags (isSnan x)) else f) Flags.none else Flags.none
  ({ r4 with started := true }, ((f1.or f2).or f3).or f4)

/-- The 32-byte row record, a value not asked for being zero (09 R222). -/
def rowRecord (fl : Bool) (fuse : Nat) (r : RowRec) : Flagged Bytes :=
  let (sq, f1) := if bit fuse 1 then Accum.finish fl r.squares else (zero32, Flags.none)
  let (var, f2) := if bit fuse 2 then divVal fl (val32 r.m2) (.fin false r.k 0) else (zero32, Flags.none)
  let pick (b : Bool) (x : F32) : Nat := if b then x.toNat else 0
  (leBytes 4 (pick (bit fuse 0) r.m) ++ leBytes 4 (pick (bit fuse 0) r.s) ++ leBytes 4 sq.toNat
    ++ leBytes 4 (pick (bit fuse 2) r.mean) ++ leBytes 4 var.toNat
    ++ leBytes 4 (if bit fuse 3 then r.argPos else 0) ++ zeros 8, f1.or f2)

/-! ### Curves (09 R227, R228) -/

/-- The segment of x: the largest index with its breakpoint at or below x, else 0. -/
def curveSegment (x : F32) : List F32 → Nat → Nat → Nat
  | [], _, best => best
  | b :: bs, i, best => curveSegment x bs (i + 1) (if lt32 b x || eq32 b x then i else best)

/-- Evaluate a curve table at x (09 R228). -/
def evalCurve (fl : Bool) (c : CurveTable) (x : F32) : Flagged F32 :=
  let n := c.coefs.length
  let b0 := c.breaks.getD 0 zero32
  let bn := c.breaks.getD n zero32
  if isNan x then (nan32, nanFlags (isSnan x))
  else if x = inf32 true || (lt32 x b0 && c.modeLo = 0) then (c.yLo, Flags.none)
  else if x = inf32 false || (!lt32 x bn && c.modeHi = 0) then (c.yHi, Flags.none)
  else
    let i := curveSegment x (c.breaks.take n) 0 0
    let cs := c.coefs.getD i []
    let (t, f0) := sub32 fl x (c.breaks.getD i zero32)
    let (p3, f1) := mul32 fl t (cs.getD 3 zero32)
    let (s2, f2) := add32 fl (cs.getD 2 zero32) p3
    let (p2, f3) := mul32 fl t s2
    let (s1, f4) := add32 fl (cs.getD 1 zero32) p2
    let (p1, f5) := mul32 fl t s1
    let (v, f6) := add32 fl (cs.getD 0 zero32) p1
    (v, ((((((f0.or f1).or f2).or f3).or f4).or f5).or f6))

end Sys2Proof.Machine
end

