-- ==== Sys2Proof/Config.lean ====
section
/-! DEFINITION. What differs from module to module or is left open by the manual: constants without a body, so that
nothing can be proved about their values (log entry 3). -/
namespace Sys2Proof.Config

/-- serial_number (0x1000:03): per module (19 R491, R494). Its use adds one so that it is not zero. -/
opaque serialNumber : Nat
/-- variant (0x1000:04): false liquid-cooled, true air-cooled (19 R491). -/
opaque airCooled : Bool
/-- The contents of the FRU memory, written at manufacture: an offset below 8,192 to its byte (19 R486). -/
opaque fruByte : Nat → Byte
/-- The TLP header, and the TLP prefixes, that AER logs with an error, by the count of errors (12 R289). -/
opaque aerHeader : Nat → BitVec 128
opaque aerPrefix : Nat → BitVec 128
/-- The device root secret, drawn from the fingerprint of the module's SRAM (17 R440). -/
opaque rootSecret : List Byte
/-- SHA-256 of the mask ROM (17 R447, measurement 1). -/
opaque romHash : List Byte
/-- The vendor key hash in mask ROM (17 R434, check 2). -/
opaque vendorKeyHash : List Byte
/-- RSASSA-PSS verification of bytes 0-511 of an image header under a modulus (17 R434, check 3). -/
opaque pssVerify : List Byte → List Byte → List Byte → Bool
/-- The certificate chain of slot 0 (17 R446). -/
opaque certChain : List Byte
/-- A signature by the identity key over a transcript (17 R442, R446). -/
opaque identitySign : List Byte → List Byte
/-- Values of an operation whose result the manual does not state, by a counter the step advances. -/
opaque freeValue : Nat → Nat
/-- Device address of the input of an active-sequence entry, and of its output: the manual fixes neither (09, 10). -/
opaque seqInput : Nat → Nat
opaque seqOutput : Nat → Nat

end Sys2Proof.Config
end

