-- ==== Sys2Proof/Machine/Layout.lean ====
section
/-! DEFINITION. Collections on flash (03): geometry, tiles and trailers, node records, vector slots, the placement of a
node, the external-id map. -/
namespace Sys2Proof.Machine

/-! ### Geometry (03 R56-R63, capacity arithmetic) -/

/-- Bytes of a vector slot (03 R61). -/
def slotBytes (dims format metric : Nat) : Nat := dims * fmtBytes format + (if metric = 1 then 4 else 0)

/-- Bytes of a node record before padding, and its size (03 R56). -/
def recordRaw (sbits degree : Nat) : Nat := 48 + sbits / 8 + degree * (5 + sbits / 8)
def recordSize (sbits degree : Nat) : Nat := roundUp (recordRaw sbits degree) 32

/-- R, V, p and Q of a collection (03 R56, R62, R63). -/
def Coll.recBytes (c : Coll) : Nat := recordSize c.sketchBits c.degree
def Coll.recsPerTile (c : Coll) : Nat := 4064 / c.recBytes
def Coll.slotLen (c : Coll) : Nat := slotBytes c.dims c.format c.metric
def Coll.vecsPerTile (c : Coll) : Nat := if c.slotLen ≤ 4064 then 4064 / c.slotLen else 0
def Coll.tilesPerVec (c : Coll) : Nat := if c.slotLen ≤ 4064 then 1 else ceilDiv c.slotLen 4064
def Coll.rowsPerTile (c : Coll) : Nat := if c.payload = 0 then 0 else 4064 / c.payload

/-- Node, vector and payload tiles per rod of a segment (03 R66). -/
def Coll.nodeTiles (c : Coll) : Nat := ceilDiv 16384 c.recsPerTile
def Coll.vecTiles (c : Coll) : Nat :=
  if c.slotLen ≤ 4064 then ceilDiv 16384 c.vecsPerTile else 16384 * c.tilesPerVec
def Coll.payTiles (c : Coll) : Nat := if c.payload = 0 then 0 else ceilDiv 16384 c.rowsPerTile

/-- Tiles of a segment. -/
def Coll.segTiles (c : Coll) : Nat := 64 * (c.nodeTiles + c.vecTiles + c.payTiles)

/-- ⌈C / 2^20⌉ segments, B buckets, G journal tiles (03 R52, R70; 06 R152). -/
def Coll.segCount (c : Coll) : Nat := ceilDiv c.capacity 1048576
def Coll.mapTiles (c : Coll) : Nat := ceilDiv c.capacity 203
def Coll.journalTiles (c : Coll) : Nat :=
  if c.slotLen ≤ 4064 then 2 * ceilDiv 4194304 c.vecsPerTile else 2 * 4194304 * c.tilesPerVec

/-- Ring size of the remainder journal, in items, and the tiles of a sequence number with their generation (06 R152). -/
def Coll.ringSize (c : Coll) : Nat := if c.vecsPerTile = 0 then 8388608 else c.journalTiles * c.vecsPerTile
def Coll.remTiles (c : Coll) (q : Nat) : List Nat :=
  let u := q % c.ringSize
  if c.vecsPerTile = 0 then (List.range c.tilesPerVec).map (fun i => c.jBase + c.tilesPerVec * u + i)
  else [c.jBase + u / c.vecsPerTile]

/-- Footprint in tiles: segments, map, journal, eight segments of workspace (03, capacity arithmetic). -/
def Coll.footprint (c : Coll) : Nat :=
  c.segCount * c.segTiles + c.mapTiles + c.journalTiles + 8 * c.segTiles

/-- The tiles of the parts that COLLECTION_CREATE reserves, each in one run: segments, workspace, journal, map (R52). -/
def Coll.partTiles (c : Coll) : List Nat := [c.segCount * c.segTiles, 8 * c.segTiles, c.journalTiles, c.mapTiles]

/-- A collection whose parts begin at the given tiles. -/
def Coll.place (c : Coll) (bases : List Nat) : Coll :=
  { c with segBase := bases.getD 0 0, workBase := bases.getD 1 0, jBase := bases.getD 2 0, mapBase := bases.getD 3 0 }

/-- The runs of tiles of a collection, by base and length. -/
def Coll.parts (c : Coll) : List (Nat × Nat) := [c.segBase, c.workBase, c.jBase, c.mapBase].zip c.partTiles
def Coll.owns (c : Coll) (t : Nat) : Bool := c.parts.any (fun p => decide (p.1 ≤ t) && decide (t < p.1 + p.2))

/-! ### Nodes (03 R64-R66) -/

/-- Segment number and index of a node id. -/
def nodeSegment (n : Nat) : Nat := n / 1048576 % 65536
def nodeIndex (n : Nat) : Nat := n % 1048576

/-- rod(n) (03 R65). -/
def rodOf (n : Nat) : Nat :=
  let x := n / 64
  let h := x * 0x9E3779B9 % 4294967296 / 67108864
  (BitVec.ofNat 6 n ^^^ BitVec.ofNat 6 h).toNat

/-- The rod and the die of a logical tile (03 R54). -/
def tileRod (t : Nat) : Nat := t % 64
def tileDie (t : Nat) : Nat := 2 * (t % 64) + t / 64 % 2

/-- j of a node id (03 R66). -/
def nodeJ (n : Nat) : Nat := n % 1048576 / 64

/-- Tile and record index of a node; tile and slot of its vector; tile of part q; tile and row of its payload. -/
def nodePlace (c : Coll) (b n : Nat) : Nat × Nat :=
  (b + 64 * (nodeJ n / c.recsPerTile) + rodOf n, nodeJ n % c.recsPerTile)
def vecPlace (c : Coll) (b n : Nat) : Nat × Nat :=
  (b + 64 * (nodeJ n / c.vecsPerTile) + rodOf n, nodeJ n % c.vecsPerTile)
def vecPart (c : Coll) (b n q : Nat) : Nat := b + 64 * (nodeJ n * c.tilesPerVec + q) + rodOf n
def payPlace (c : Coll) (b n : Nat) : Nat × Nat :=
  (b + 64 * (nodeJ n / c.rowsPerTile) + rodOf n, nodeJ n % c.rowsPerTile)

/-- The node of index j on rod r of segment s: the inverse of `rodOf` within an aligned block of 64 ids. -/
def nodeOnRod (s j r : Nat) : Nat :=
  let base := s * 1048576 + j * 64
  base + ((List.range 64).find? (fun k => rodOf (base + k) == r)).getD 0

/-! ### Tiles (03 R54, R55) -/

/-- Record format codes (03 R54). -/
abbrev TileFmt.node : Nat := 0x01
abbrev TileFmt.vector : Nat := 0x02
abbrev TileFmt.payload : Nat := 0x03
abbrev TileFmt.tensor : Nat := 0x10
abbrev TileFmt.packed : Nat := 0x11

/-- What a reader expects of a tile (03 R55). -/
structure Expect where
  tile : Nat
  coll : Nat
  fmt : Nat
  slots : Nat
  segment : Nat
  gen : Nat
  deriving DecidableEq, Repr

/-- A tile with its trailer (03 R54). -/
def mkTile (payload : Bytes) (tile coll fmt count segment gen : Nat) : Bytes :=
  let body := fit 4064 payload
  body ++ leBytes 4 (crc32c body).toNat ++ leBytes 8 tile ++ leBytes 1 coll ++ leBytes 1 fmt ++ leBytes 1 count
    ++ leBytes 1 1 ++ leBytes 4 segment ++ leBytes 4 gen ++ zeros 8

/-- Does a tile pass the check (03 R55)? -/
def tileOk (t : Bytes) (e : Expect) : Bool :=
  decide (t.length = 4096)
    && decide (fieldAt t 4064 4 = (crc32c (t.take 4064)).toNat)
    && decide (fieldAt t 4068 8 = e.tile) && decide (fieldAt t 4076 1 = e.coll)
    && decide (fieldAt t 4077 1 = e.fmt) && decide (fieldAt t 4078 1 ≤ e.slots)
    && decide (fieldAt t 4079 1 = 1) && decide (fieldAt t 4080 4 = e.segment)
    && decide (fieldAt t 4084 4 = e.gen) && zeroAt t 4088 8

/-- An erased tile: no bytes, so that no check passes. -/
def Tile.erased : Tile := ⟨[], 0, 0⟩

/-- The tile at a logical number. -/
def flashGet (fl : List (Nat × Tile)) (t : Nat) : Tile := Sparse.get (fun _ => Tile.erased) fl t
def flashPut (fl : List (Nat × Tile)) (t : Nat) (v : Tile) : List (Nat × Tile) :=
  Sparse.put (fun _ => Tile.erased) fl t v

/-! ### Node records (03 R56) -/

/-- A node record decoded. -/
structure NodeRec where
  ext : BitVec 64
  loc : Loc
  valid : Bool
  entry : Bool
  carryPass : Nat
  attrs : BitVec 128
  sketch : Nat
  edges : List (Loc × Nat)
  deriving DecidableEq, Repr

/-- A locator from its five bytes, and back (03 R56). -/
def decodeLoc (v : Nat) : Loc := ⟨bits v 35 0, bits v 39 36⟩
def encodeLoc (l : Loc) : Nat := l.node % 2 ^ 36 + (l.gen % 16) * 2 ^ 36

/-- Record `ix` of a node tile. -/
def decodeRecord (c : Coll) (t : Bytes) (ix : Nat) : NodeRec :=
  let r := slice t (ix * c.recBytes) c.recBytes
  let sb := c.sketchBits / 8
  let cnt := min (fieldAt r 13 1) c.degree
  { ext := BitVec.ofNat 64 (fieldAt r 0 8)
    loc := decodeLoc (fieldAt r 8 5)
    valid := bit (fieldAt r 14 1) 0
    entry := bit (fieldAt r 14 1) 1
    carryPass := fieldAt r 16 4
    attrs := BitVec.ofNat 128 (fieldAt r 32 16)
    sketch := fieldAt r 48 sb
    edges := (List.range cnt).map (fun i =>
      let o := 48 + sb + i * (5 + sb)
      (decodeLoc (fieldAt r o 5), fieldAt r (o + 5) sb)) }

/-- The bytes of a node record. -/
def encodeRecord (c : Coll) (r : NodeRec) : Bytes :=
  let sb := c.sketchBits / 8
  fit c.recBytes
    (leBytes 8 r.ext.toNat ++ leBytes 5 (encodeLoc r.loc) ++ leBytes 1 r.edges.length
      ++ leBytes 1 (b2n r.valid + 2 * b2n r.entry) ++ [0] ++ leBytes 4 r.carryPass ++ zeros 12
      ++ leBytes 16 r.attrs.toNat ++ leBytes sb r.sketch
      ++ (r.edges.map (fun e => leBytes 5 (encodeLoc e.1) ++ leBytes sb e.2)).flatten)

/-- Bits that differ between two sketches (03 R60). -/
def popcount : Nat → Nat → Nat
  | 0, _ => 0
  | n + 1, v => v % 2 + popcount n (v / 2)
def sketchDistance (sbits a b : Nat) : Nat := popcount sbits (a ^^^ b)

/-! ### The directory and the tables (03 R67-R71) -/

/-- The entry of a segment in force at a tick: the newest whose switch is not later (03 R68). -/
def dirAt (c : Coll) (seg : Nat) (t : Tick) : Option DirEntry :=
  c.dir.find? (fun e => decide (e.segment = seg) && decide (e.switchTick ≤ t))

/-- The entry now in force. -/
def dirNow (c : Coll) (seg : Nat) : Option DirEntry := c.dir.find? (fun e => decide (e.segment = seg))

/-- Current tombstone bit and generation of a node (03 R71). -/
def Coll.tomb (c : Coll) (n : Nat) : Bool := c.tombs.contains n
def Coll.gen (c : Coll) (n : Nat) : Nat := Sparse.count c.gens n

/-! ### The external-id map (03 R70; 06 R169; 18 R462) -/

/-- The home bucket of an id. -/
def homeBucket (b : Nat) (ext : BitVec 64) : Nat := (crc32c (leBytes 8 ext.toNat)).toNat * b / 4294967296

/-- The entries of a bucket. -/
def bucketOf (c : Coll) (b : Nat) : List MapEntry := Sparse.get (fun _ => []) c.buckets b

/-- Full: all 254 slots in state 1 or 2. A retired bucket counts as full and holds nothing (18 R462). -/
def bucketFull (c : Coll) (b : Nat) : Bool :=
  c.retiredBuckets.contains b || decide (254 ≤ ((bucketOf c b).filter (fun e => decide (e.state ≠ 0))).length)

/-- Look an id up along its chain; `fuel` bounds the chain by the number of buckets. -/
def mapLookupFrom (c : Coll) (nb : Nat) (ext : BitVec 64) : Nat → Nat → Option MapEntry
  | 0, _ => none
  | fuel + 1, b =>
    let es := if c.retiredBuckets.contains b then [] else bucketOf c b
    match es.find? (fun e => decide (e.state = 1) && decide (e.ext = ext)) with
    | some e => some e
    | none => if bucketFull c b then mapLookupFrom c nb ext fuel ((b + 1) % nb) else none

/-- The entry in state 1 of an id (03 R70). -/
def mapLookup (c : Coll) (ext : BitVec 64) : Option MapEntry :=
  mapLookupFrom c c.mapTiles ext (c.buckets.length + c.retiredBuckets.length + 1) (homeBucket c.mapTiles ext)

/-- Put an entry into the first slot in state 0 or 2 of a bucket's list, at most 254 slots. -/
def bucketInsert : Nat → List MapEntry → MapEntry → Option (List MapEntry)
  | 0, _, _ => none
  | _ + 1, [], e => some [e]
  | n + 1, x :: xs, e =>
    if x.state = 1 then (bucketInsert n xs e).map (x :: ·) else some (e :: xs)

/-- Add an entry along the chain of its id (03 R70). -/
def mapInsertFrom (c : Coll) (nb : Nat) (e : MapEntry) : Nat → Nat → Coll
  | 0, _ => c
  | fuel + 1, b =>
    if c.retiredBuckets.contains b then mapInsertFrom c nb e fuel ((b + 1) % nb)
    else
      match bucketInsert 254 (bucketOf c b) e with
      | some es => { c with buckets := Sparse.put (fun _ => []) c.buckets b es }
      | none => mapInsertFrom c nb e fuel ((b + 1) % nb)

def mapInsert (c : Coll) (e : MapEntry) : Coll :=
  mapInsertFrom c c.mapTiles e (c.buckets.length + c.retiredBuckets.length + 1) (homeBucket c.mapTiles e.ext)

/-- Set the entry of an id to state 2, wherever it stands along its chain. -/
def mapDelete (c : Coll) (ext : BitVec 64) : Coll :=
  { c with buckets := c.buckets.map (fun b =>
      (b.1, mapWhere (fun e => decide (e.state = 1) && decide (e.ext = ext)) (fun e => { e with state := 2 }) b.2)) }

/-! ### Regions of the flash tier -/

/-- The logical tiles of the flash tier (10 R238). -/
def flashTiles : Nat := 13671875000

/-- Do two ranges overlap? -/
def overlaps (b1 n1 b2 n2 : Nat) : Bool := decide (b1 < b2 + n2) && decide (b2 < b1 + n1)

/-- May a range be reserved beside the ranges in use? -/
def rangeFree (used : List (Nat × Nat)) (lo hi base len : Nat) : Bool :=
  decide (lo ≤ base) && decide (base + len ≤ hi) && used.all (fun u => !overlaps base len u.1 u.2)

/-- Where a range is reserved: at `want` when that is aligned and free, else at the lowest aligned free place, if any.
The manual leaves the choice open (log entry 9). -/
def allocRange (used : List (Nat × Nat)) (lo hi align want len : Nat) : Option Nat :=
  if want % align = 0 && rangeFree used lo hi want len then some want
  else
    let cands := roundUp lo align :: used.map (fun u => roundUp (u.1 + u.2) align)
    (sortBy (fun a b => decide (a ≤ b)) cands).find? (fun b => rangeFree used lo hi b len)

/-- Where the parts of a collection are reserved, each in one run of flash tiles from a multiple of 64, and all or none. -/
def allocParts (used : List (Nat × Nat)) (want : Nat) : List Nat → Option (List Nat)
  | [] => some []
  | n :: ns =>
    match allocRange used 0 flashTiles 64 want n with
    | none => none
    | some b => (allocParts ((b, n) :: used) (roundUp (b + n) 64) ns).map (b :: ·)

end Sys2Proof.Machine
end

