-- ==== Sys2Proof/Machine/Objects.lean ====
section
/-! DEFINITION. The object dictionary (14 R366-R370): one descriptor per object, defaults, and the store of values. -/
namespace Sys2Proof.Machine

/-- A descriptor (14 R369): type and access codes of R367 and R368, lock bit number or 255, size of the value or element,
first argument and argument limit, whether a range applies and its ends, saved or volatile, and the default. The index
0x4100 stands for 0x4100 + c. -/
structure ObjDesc where
  index : Nat
  sub : Nat
  type : Nat
  acc : Nat
  lock : Nat
  size : Nat
  argMin : Nat
  argLimit : Nat
  ranged : Bool
  lo : Nat
  hi : Nat
  saved : Bool
  dflt : Nat
  deriving DecidableEq, Repr

/-- Objects tabled in chapter 02. -/
def objects02 : List ObjDesc :=
  [⟨0x3000, 0x01, 4, 0, 255, 8, 0, 0, false, 0, 0, false, 0⟩,
   ⟨0x3000, 0x02, 1, 0, 255, 1, 0, 0, false, 0, 0, false, 0⟩,
   ⟨0x3000, 0x03, 5, 0, 255, 4, 0, 0, false, 0, 0, false, 0⟩,
   ⟨0x3000, 0x04, 3, 1, 255, 4, 0, 0, true, 1, 10000, true, 100⟩,
   ⟨0x3000, 0x05, 1, 1, 255, 1, 0, 0, true, 0, 1, true, 0⟩,
   ⟨0x3000, 0x06, 3, 1, 255, 4, 0, 0, false, 0, 0, true, 5000000⟩,
   ⟨0x3000, 0x07, 2, 0, 255, 2, 0, 0, false, 0, 0, false, 0⟩,
   ⟨0x3000, 0x08, 3, 0, 255, 4, 0, 0, false, 0, 0, false, 0⟩,
   ⟨0x3010, 0x01, 1, 0, 255, 1, 0, 0, false, 0, 0, false, 0⟩,
   ⟨0x3010, 0x02, 1, 2, 255, 1, 0, 0, true, 1, 1, false, 0⟩,
   ⟨0x3010, 0x03, 4, 0, 255, 8, 0, 0, false, 0, 0, false, 0⟩,
   ⟨0x3010, 0x04, 1, 0, 255, 1, 0, 0, false, 0, 0, false, 0⟩,
   ⟨0x3011, 0x00, 8, 1, 255, 32, 0, 4096, false, 0, 0, true, 0⟩,
   ⟨0x3012, 0x00, 8, 0, 255, 32, 0, 4096, false, 0, 0, false, 0⟩]

/-- Objects tabled in chapter 03. -/
def objects03 : List ObjDesc :=
  [⟨0x4000, 0x01, 1, 0, 255, 1, 0, 0, false, 0, 0, false, 0⟩,
   ⟨0x4000, 0x02, 2, 0, 255, 2, 0, 0, false, 0, 0, false, 0⟩,
   ⟨0x4000, 0x03, 2, 4, 255, 2, 0, 0, false, 0, 0, false, 16384⟩,
   ⟨0x4000, 0x04, 4, 0, 255, 8, 0, 0, false, 0, 0, false, 0⟩,
   ⟨0x4000, 0x05, 4, 0, 255, 8, 0, 0, false, 0, 0, false, 0⟩,
   ⟨0x4100, 0x01, 1, 0, 255, 1, 0, 0, false, 0, 0, true, 0⟩,
   ⟨0x4100, 0x02, 1, 0, 255, 1, 0, 0, false, 0, 0, true, 0⟩,
   ⟨0x4100, 0x03, 2, 0, 255, 2, 0, 0, false, 0, 0, true, 0⟩,
   ⟨0x4100, 0x04, 1, 0, 255, 1, 0, 0, false, 0, 0, true, 0⟩,
   ⟨0x4100, 0x05, 1, 0, 255, 1, 0, 0, false, 0, 0, true, 0⟩,
   ⟨0x4100, 0x06, 2, 0, 255, 2, 0, 0, false, 0, 0, true, 0⟩,
   ⟨0x4100, 0x07, 1, 0, 255, 1, 0, 0, false, 0, 0, true, 0⟩,
   ⟨0x4100, 0x08, 2, 0, 255, 2, 0, 0, false, 0, 0, true, 0⟩,
   ⟨0x4100, 0x09, 4, 0, 255, 8, 0, 0, false, 0, 0, true, 0⟩,
   ⟨0x4100, 0x0A, 4, 0, 255, 8, 0, 0, false, 0, 0, true, 0⟩,
   ⟨0x4100, 0x0B, 2, 0, 255, 2, 0, 0, false, 0, 0, true, 0⟩,
   ⟨0x4100, 0x0C, 2, 0, 255, 2, 0, 0, false, 0, 0, true, 0⟩,
   ⟨0x4100, 0x0D, 1, 0, 255, 1, 0, 0, false, 0, 0, true, 0⟩,
   ⟨0x4100, 0x0E, 2, 0, 255, 2, 0, 0, false, 0, 0, true, 0⟩,
   ⟨0x4100, 0x0F, 1, 0, 255, 1, 0, 0, false, 0, 0, true, 0⟩,
   ⟨0x4100, 0x10, 1, 0, 255, 1, 0, 0, false, 0, 0, true, 0⟩,
   ⟨0x4100, 0x11, 1, 0, 255, 1, 0, 0, false, 0, 0, true, 0⟩,
   ⟨0x4100, 0x12, 8, 0, 255, 8, 0, 16, false, 0, 0, true, 0⟩,
   ⟨0x4100, 0x13, 8, 0, 255, 5, 0, 256, false, 0, 0, true, 0⟩,
   ⟨0x4100, 0x14, 4, 0, 255, 8, 0, 0, false, 0, 0, true, 0⟩,
   ⟨0x4100, 0x15, 4, 0, 255, 8, 0, 0, false, 0, 0, true, 0⟩,
   ⟨0x4100, 0x16, 3, 1, 255, 4, 0, 0, false, 0, 0, true, 0⟩,
   ⟨0x4100, 0x17, 4, 0, 255, 8, 0, 0, false, 0, 0, false, 0⟩,
   ⟨0x4100, 0x18, 4, 0, 255, 8, 0, 0, false, 0, 0, false, 0⟩,
   ⟨0x4100, 0x19, 4, 0, 255, 8, 0, 0, false, 0, 0, false, 0⟩]

/-- Objects tabled in chapter 04. -/
def objects04 : List ObjDesc :=
  [⟨0x3100, 0x01, 8, 1, 255, 4, 0, 16, true, 1, 10000000, true, 5000⟩,
   ⟨0x3100, 0x02, 8, 1, 255, 4, 0, 16, true, 1, 10000000, true, 1000000⟩,
   ⟨0x3100, 0x03, 2, 0, 255, 2, 0, 0, false, 0, 0, false, 0⟩,
   ⟨0x3100, 0x04, 3, 0, 255, 4, 0, 0, false, 0, 0, false, 0⟩,
   ⟨0x3100, 0x05, 4, 0, 255, 8, 0, 0, false, 0, 0, false, 0⟩,
   ⟨0x3100, 0x06, 4, 0, 255, 8, 0, 0, false, 0, 0, false, 0⟩,
   ⟨0x3100, 0x07, 3, 0, 255, 4, 0, 0, false, 0, 0, false, 0⟩,
   ⟨0x4100, 0x20, 2, 1, 255, 2, 0, 0, true, 1, 1024, true, 160⟩,
   ⟨0x4100, 0x21, 1, 1, 255, 1, 0, 0, true, 0, 16, true, 8⟩,
   ⟨0x4100, 0x22, 1, 1, 255, 1, 0, 0, true, 1, 16, true, 8⟩,
   ⟨0x4100, 0x23, 2, 1, 255, 2, 0, 0, true, 1, 1024, true, 512⟩,
   ⟨0x4100, 0x24, 3, 1, 255, 4, 0, 0, true, 0, 65536, true, 16384⟩,
   ⟨0x4100, 0x25, 2, 1, 255, 2, 0, 0, true, 8, 1000, true, 58⟩,
   ⟨0x4100, 0x26, 3, 1, 255, 4, 0, 0, true, 0, 1000000, true, 200⟩,
   ⟨0x4100, 0x27, 3, 1, 255, 4, 0, 0, false, 0, 0, true, 1024⟩,
   ⟨0x4100, 0x28, 1, 1, 255, 1, 0, 0, true, 1, 64, true, 12⟩,
   ⟨0x4100, 0x29, 4, 0, 255, 8, 0, 0, false, 0, 0, false, 0⟩,
   ⟨0x4100, 0x2A, 1, 0, 255, 1, 0, 0, false, 0, 0, false, 1⟩,
   ⟨0x4100, 0x2B, 2, 0, 255, 2, 0, 0, false, 0, 0, false, 0⟩,
   ⟨0x4100, 0x2C, 4, 0, 255, 8, 0, 0, false, 0, 0, false, 0⟩,
   ⟨0x4100, 0x2D, 4, 0, 255, 8, 0, 0, false, 0, 0, false, 0⟩,
   ⟨0x4100, 0x2E, 4, 0, 255, 8, 0, 0, false, 0, 0, false, 0⟩,
   ⟨0x4100, 0x2F, 4, 0, 255, 8, 0, 0, false, 0, 0, false, 0⟩,
   ⟨0x4100, 0x30, 1, 0, 255, 1, 0, 0, false, 0, 0, false, 0⟩,
   ⟨0x4100, 0x31, 1, 0, 255, 1, 0, 0, false, 0, 0, false, 0⟩,
   ⟨0x4100, 0x32, 1, 0, 255, 1, 0, 0, false, 0, 0, false, 0⟩,
   ⟨0x4100, 0x33, 1, 0, 255, 1, 0, 0, false, 0, 0, false, 0⟩,
   ⟨0x4100, 0x34, 1, 0, 255, 1, 0, 0, false, 0, 0, false, 0⟩,
   ⟨0x4100, 0x35, 1, 0, 255, 1, 0, 0, false, 0, 0, false, 0⟩,
   ⟨0x4100, 0x36, 1, 0, 255, 1, 0, 0, false, 0, 0, false, 0⟩,
   ⟨0x4100, 0x37, 1, 0, 255, 1, 0, 0, false, 0, 0, false, 0⟩,
   ⟨0x4100, 0x38, 1, 0, 255, 1, 0, 0, false, 0, 0, false, 0⟩,
   ⟨0x4100, 0x39, 1, 0, 255, 1, 0, 0, false, 0, 0, false, 0⟩,
   ⟨0x4100, 0x3A, 1, 0, 255, 1, 0, 0, false, 0, 0, false, 0⟩,
   ⟨0x4100, 0x3B, 1, 0, 255, 1, 0, 0, false, 0, 0, false, 0⟩,
   ⟨0x4100, 0x3C, 1, 0, 255, 1, 0, 0, false, 0, 0, false, 0⟩,
   ⟨0x4100, 0x3D, 1, 0, 255, 1, 0, 0, false, 0, 0, false, 0⟩,
   ⟨0x4100, 0x3E, 1, 0, 255, 1, 0, 0, false, 0, 0, false, 0⟩,
   ⟨0x4100, 0x3F, 1, 0, 255, 1, 0, 0, false, 0, 0, false, 0⟩]

/-- Objects tabled in chapter 05. -/
def objects05 : List ObjDesc :=
  [⟨0x4100, 0x40, 2, 1, 255, 2, 0, 0, true, 1, 2048, true, 128⟩,
   ⟨0x4100, 0x41, 2, 1, 255, 2, 0, 0, true, 1, 1024, true, 10⟩,
   ⟨0x4100, 0x42, 1, 1, 255, 1, 0, 0, true, 0, 2, true, 0⟩,
   ⟨0x4100, 0x43, 2, 1, 255, 2, 0, 0, false, 0, 0, true, 0⟩,
   ⟨0x4100, 0x44, 2, 1, 255, 2, 0, 0, false, 0, 0, true, 65535⟩,
   ⟨0x4100, 0x45, 4, 0, 255, 8, 0, 0, false, 0, 0, false, 0⟩,
   ⟨0x4100, 0x46, 4, 0, 255, 8, 0, 0, false, 0, 0, false, 0⟩,
   ⟨0x4100, 0x47, 4, 0, 255, 8, 0, 0, false, 0, 0, false, 0⟩,
   ⟨0x4100, 0x48, 4, 0, 255, 8, 0, 0, false, 0, 0, false, 0⟩,
   ⟨0x4100, 0x49, 4, 0, 255, 8, 0, 0, false, 0, 0, false, 0⟩,
   ⟨0x4100, 0x4A, 1, 0, 255, 1, 0, 0, false, 0, 0, false, 0⟩,
   ⟨0x4100, 0x4B, 1, 0, 255, 1, 0, 0, false, 0, 0, false, 0⟩,
   ⟨0x4100, 0x4C, 1, 0, 255, 1, 0, 0, false, 0, 0, false, 0⟩,
   ⟨0x4100, 0x4D, 1, 0, 255, 1, 0, 0, false, 0, 0, false, 0⟩,
   ⟨0x4100, 0x4E, 1, 0, 255, 1, 0, 0, false, 0, 0, false, 0⟩,
   ⟨0x4100, 0x4F, 1, 0, 255, 1, 0, 0, false, 0, 0, false, 0⟩]

/-- Objects tabled in chapter 06. -/
def objects06 : List ObjDesc :=
  [⟨0x4000, 0x06, 3, 0, 255, 4, 0, 0, false, 0, 0, false, 0⟩,
   ⟨0x4000, 0x07, 4, 0, 255, 8, 0, 0, false, 0, 0, false, 0⟩,
   ⟨0x4000, 0x08, 4, 0, 255, 8, 0, 0, false, 0, 0, false, 0⟩,
   ⟨0x4000, 0x09, 4, 0, 255, 8, 0, 0, false, 0, 0, true, 0⟩,
   ⟨0x4000, 0x0A, 4, 0, 255, 8, 0, 0, false, 0, 0, true, 0⟩,
   ⟨0x4000, 0x0B, 3, 0, 255, 4, 0, 0, false, 0, 0, true, 0⟩,
   ⟨0x4000, 0x0C, 3, 1, 255, 4, 0, 0, true, 1, 65536, true, 58982⟩,
   ⟨0x4000, 0x0D, 1, 0, 255, 1, 0, 0, false, 0, 0, false, 0⟩,
   ⟨0x4100, 0x50, 4, 0, 255, 8, 0, 0, false, 0, 0, true, 0⟩,
   ⟨0x4100, 0x51, 3, 0, 255, 4, 0, 0, false, 0, 0, false, 0⟩,
   ⟨0x4100, 0x52, 4, 0, 255, 8, 0, 0, false, 0, 0, true, 0⟩,
   ⟨0x4100, 0x53, 3, 1, 255, 4, 0, 0, true, 0, 4194304, true, 1048576⟩,
   ⟨0x4100, 0x54, 1, 1, 255, 1, 0, 0, true, 0, 64, true, 8⟩,
   ⟨0x4100, 0x55, 2, 1, 255, 2, 0, 0, true, 1, 1024, true, 128⟩,
   ⟨0x4100, 0x56, 3, 1, 255, 4, 0, 0, true, 1, 65536, true, 4096⟩,
   ⟨0x4100, 0x57, 3, 0, 255, 4, 0, 0, false, 0, 0, true, 0⟩,
   ⟨0x4100, 0x58, 1, 0, 255, 1, 0, 0, false, 0, 0, false, 0⟩,
   ⟨0x4100, 0x59, 3, 0, 255, 4, 0, 0, false, 0, 0, false, 4294967295⟩,
   ⟨0x4100, 0x5A, 4, 0, 255, 8, 0, 0, false, 0, 0, true, 0⟩,
   ⟨0x4100, 0x5B, 4, 0, 255, 8, 0, 0, false, 0, 0, true, 0⟩,
   ⟨0x4100, 0x5C, 4, 0, 255, 8, 0, 0, false, 0, 0, false, 0⟩,
   ⟨0x4100, 0x5D, 1, 0, 255, 1, 0, 0, false, 0, 0, false, 0⟩,
   ⟨0x4100, 0x5E, 1, 0, 255, 1, 0, 0, false, 0, 0, false, 0⟩,
   ⟨0x4100, 0x5F, 1, 0, 255, 1, 0, 0, false, 0, 0, false, 0⟩]

/-- Objects tabled in chapter 09. -/
def objects09 : List ObjDesc :=
  [⟨0x5800, 0x01, 2, 0, 255, 2, 0, 0, false, 0, 0, false, 65535⟩,
   ⟨0x5800, 0x02, 2, 4, 255, 2, 0, 0, false, 0, 0, false, 850⟩,
   ⟨0x5800, 0x03, 4, 0, 255, 8, 0, 0, false, 0, 0, false, 0⟩,
   ⟨0x5800, 0x04, 4, 0, 255, 8, 0, 0, false, 0, 0, false, 0⟩,
   ⟨0x5800, 0x05, 2, 0, 255, 2, 0, 0, false, 0, 0, false, 0⟩,
   ⟨0x5800, 0x06, 4, 0, 255, 8, 0, 0, false, 0, 0, false, 0⟩,
   ⟨0x5800, 0x07, 4, 0, 255, 8, 0, 0, false, 0, 0, false, 0⟩,
   ⟨0x5801, 0x00, 8, 0, 255, 8, 0, 16, false, 0, 0, false, 0⟩,
   ⟨0x5802, 0x00, 8, 0, 255, 8, 0, 16, false, 0, 0, false, 0⟩,
   ⟨0x5803, 0x00, 8, 0, 255, 32, 0, 4096, false, 0, 0, false, 0⟩,
   ⟨0x5810, 0x01, 2, 0, 255, 2, 0, 0, false, 0, 0, false, 0⟩,
   ⟨0x5810, 0x02, 2, 4, 255, 2, 0, 0, false, 0, 0, false, 256⟩,
   ⟨0x5810, 0x03, 2, 4, 255, 2, 0, 0, false, 0, 0, false, 1024⟩,
   ⟨0x5810, 0x04, 4, 0, 255, 8, 0, 0, false, 0, 0, false, 0⟩,
   ⟨0x5810, 0x05, 4, 0, 255, 8, 0, 0, false, 0, 0, false, 0⟩,
   ⟨0x5810, 0x06, 4, 0, 255, 8, 0, 0, false, 0, 0, false, 0⟩,
   ⟨0x5810, 0x07, 3, 0, 255, 4, 0, 0, false, 0, 0, false, 0⟩,
   ⟨0x5811, 0x00, 8, 0, 255, 16, 0, 1024, false, 0, 0, true, 0⟩,
   ⟨0x5812, 0x00, 8, 0, 255, 4, 0, 1024, false, 0, 0, false, 0⟩]

/-- Objects tabled in chapter 10. -/
def objects10 : List ObjDesc :=
  [⟨0x5000, 0x01, 4, 4, 255, 8, 0, 0, false, 0, 0, false, 25769803776⟩,
   ⟨0x5000, 0x02, 4, 4, 255, 8, 0, 0, false, 0, 0, false, 249108103168⟩,
   ⟨0x5000, 0x03, 4, 4, 255, 8, 0, 0, false, 0, 0, false, 13671875000⟩,
   ⟨0x5000, 0x04, 1, 0, 255, 1, 0, 0, false, 0, 0, false, 1⟩,
   ⟨0x5000, 0x05, 1, 2, 255, 1, 0, 0, true, 2, 2, false, 0⟩,
   ⟨0x5000, 0x06, 4, 0, 255, 8, 0, 0, false, 0, 0, false, 0⟩,
   ⟨0x5000, 0x07, 4, 0, 255, 8, 0, 0, false, 0, 0, false, 0⟩,
   ⟨0x5010, 0x00, 8, 3, 1, 4, 0, 16, false, 0, 0, true, 0⟩,
   ⟨0x5011, 0x00, 8, 3, 1, 8, 0, 16, false, 0, 0, true, 0⟩,
   ⟨0x5012, 0x00, 8, 3, 1, 8, 0, 16, false, 0, 0, true, 0⟩,
   ⟨0x5013, 0x00, 8, 0, 255, 8, 0, 16, false, 0, 0, false, 0⟩,
   ⟨0x5014, 0x00, 8, 0, 255, 8, 0, 16, false, 0, 0, false, 0⟩,
   ⟨0x5020, 0x00, 8, 0, 255, 32, 0, 4096, false, 0, 0, true, 0⟩,
   ⟨0x5100, 0x01, 2, 0, 255, 2, 0, 0, false, 0, 0, false, 0⟩,
   ⟨0x5100, 0x02, 1, 4, 255, 1, 0, 0, false, 0, 0, false, 16⟩,
   ⟨0x5100, 0x03, 4, 0, 255, 8, 0, 0, false, 0, 0, false, 0⟩,
   ⟨0x5100, 0x04, 4, 0, 255, 8, 0, 0, false, 0, 0, false, 0⟩,
   ⟨0x5100, 0x05, 4, 0, 255, 8, 0, 0, false, 0, 0, false, 0⟩,
   ⟨0x5100, 0x06, 3, 1, 255, 4, 0, 0, true, 1000, 10000000, true, 100000⟩,
   ⟨0x5100, 0x07, 4, 0, 255, 8, 0, 0, false, 0, 0, false, 0⟩,
   ⟨0x5101, 0x00, 8, 3, 1, 8, 0, 16, false, 0, 0, true, 0⟩,
   ⟨0x5102, 0x00, 8, 0, 255, 40, 0, 16, false, 0, 0, false, 0⟩,
   ⟨0x5103, 0x00, 8, 0, 255, 4, 0, 26, false, 0, 0, false, 0⟩]

/-- Objects tabled in chapter 11. -/
def objects11 : List ObjDesc :=
  [⟨0x2100, 0x01, 2, 0, 255, 2, 0, 0, false, 0, 0, false, 1⟩,
   ⟨0x2100, 0x02, 2, 4, 255, 2, 0, 0, false, 0, 0, false, 8128⟩,
   ⟨0x2100, 0x03, 2, 4, 255, 2, 0, 0, false, 0, 0, false, 64⟩,
   ⟨0x2100, 0x04, 1, 4, 255, 1, 0, 0, false, 0, 0, false, 32⟩,
   ⟨0x2100, 0x05, 3, 4, 255, 4, 0, 0, false, 0, 0, false, 4718592⟩,
   ⟨0x2100, 0x06, 2, 1, 255, 2, 0, 0, true, 8, 1000, true, 58⟩,
   ⟨0x2100, 0x07, 4, 0, 255, 8, 0, 0, false, 0, 0, false, 0⟩,
   ⟨0x2100, 0x08, 4, 0, 255, 8, 0, 0, false, 0, 0, false, 0⟩,
   ⟨0x2100, 0x09, 4, 0, 255, 8, 0, 0, false, 0, 0, false, 0⟩,
   ⟨0x2100, 0x0A, 4, 0, 255, 8, 0, 0, false, 0, 0, false, 0⟩,
   ⟨0x2110, 0x00, 8, 3, 1, 64, 0, 16, false, 0, 0, true, 0⟩,
   ⟨0x2120, 0x00, 8, 0, 255, 40, 0, 128, false, 0, 0, false, 0⟩,
   ⟨0x2121, 0x00, 8, 0, 255, 24, 0, 128, false, 0, 0, false, 0⟩,
   ⟨0x2122, 0x00, 8, 0, 255, 8, 0, 16, false, 0, 0, false, 0⟩,
   ⟨0x8010, 0x00, 8, 0, 255, 40, 0, 262144, false, 0, 0, false, 0⟩]

/-- Objects tabled in chapter 12. -/
def objects12 : List ObjDesc :=
  [⟨0x2010, 0x01, 3, 1, 255, 4, 0, 0, true, 1, 262143, true, 131072⟩,
   ⟨0x2010, 0x02, 3, 1, 255, 4, 0, 0, true, 1000, 100000000, true, 100000⟩,
   ⟨0x2010, 0x03, 3, 0, 255, 4, 0, 0, false, 0, 0, false, 2⟩,
   ⟨0x2011, 0x00, 8, 0, 255, 16, 0, 2, false, 0, 0, false, 0⟩,
   ⟨0x2012, 0x00, 8, 0, 255, 48, 0, 2, false, 0, 0, false, 0⟩,
   ⟨0x8011, 0x00, 8, 0, 255, 32, 0, 262144, false, 0, 0, false, 0⟩,
   ⟨0x2020, 0x01, 1, 0, 255, 1, 0, 0, false, 0, 0, false, 0⟩,
   ⟨0x2020, 0x02, 1, 1, 255, 1, 0, 0, true, 0, 3, true, 3⟩,
   ⟨0x2021, 0x00, 8, 1, 255, 4, 1, 4, false, 0, 0, true, 0⟩,
   ⟨0x2022, 0x00, 8, 0, 255, 4, 1, 4, false, 0, 0, false, 0⟩,
   ⟨0x2023, 0x00, 8, 0, 255, 8, 1, 4, false, 0, 0, false, 0⟩]

/-- Objects tabled in chapter 14. -/
def objects14 : List ObjDesc :=
  [⟨0x2000, 0x01, 1, 2, 255, 1, 0, 0, true, 165, 165, false, 0⟩,
   ⟨0x2000, 0x02, 1, 0, 255, 1, 0, 0, false, 0, 0, false, 0⟩,
   ⟨0x2000, 0x03, 4, 0, 255, 8, 0, 0, false, 0, 0, false, 0⟩,
   ⟨0x2000, 0x04, 1, 1, 255, 1, 0, 0, true, 0, 1, true, 0⟩,
   ⟨0x2000, 0x05, 1, 2, 255, 1, 0, 0, true, 165, 165, false, 0⟩,
   ⟨0x2000, 0x06, 1, 1, 255, 1, 0, 0, true, 0, 31, true, 0⟩,
   ⟨0x2000, 0x07, 4, 0, 255, 8, 0, 0, false, 0, 0, false, 0⟩,
   ⟨0x2000, 0x08, 4, 0, 255, 8, 0, 0, false, 0, 0, false, 0⟩,
   ⟨0x2000, 0x09, 4, 0, 255, 8, 0, 0, false, 0, 0, false, 0⟩,
   ⟨0x2000, 0x0A, 4, 0, 255, 8, 0, 0, false, 0, 0, false, 0⟩]

/-- Objects tabled in chapter 15. -/
def objects15 : List ObjDesc :=
  [⟨0x1100, 0x01, 1, 0, 255, 1, 0, 0, false, 0, 0, false, 255⟩,
   ⟨0x1100, 0x02, 1, 0, 255, 1, 0, 0, false, 0, 0, false, 0⟩,
   ⟨0x1100, 0x03, 1, 3, 3, 1, 0, 0, true, 0, 1, true, 0⟩,
   ⟨0x1100, 0x04, 3, 3, 3, 4, 0, 0, false, 0, 0, true, 0⟩,
   ⟨0x1100, 0x05, 1, 0, 255, 1, 0, 0, false, 0, 0, false, 3⟩,
   ⟨0x1100, 0x06, 2, 1, 255, 2, 0, 0, true, 16, 4096, true, 64⟩,
   ⟨0x1100, 0x07, 1, 1, 255, 1, 0, 0, true, 2, 255, true, 8⟩,
   ⟨0x1100, 0x08, 3, 1, 255, 4, 0, 0, true, 1000, 1000000, true, 10000⟩,
   ⟨0x1100, 0x09, 3, 1, 255, 4, 0, 0, true, 10000, 10000000, true, 100000⟩,
   ⟨0x1100, 0x0A, 2, 0, 255, 2, 0, 0, false, 0, 0, false, 0⟩,
   ⟨0x1100, 0x0B, 2, 0, 255, 2, 0, 0, false, 0, 0, false, 0⟩,
   ⟨0x1100, 0x0C, 2, 1, 255, 2, 0, 0, false, 0, 0, true, 65534⟩,
   ⟨0x1100, 0x0D, 4, 0, 255, 8, 0, 0, false, 0, 0, false, 0⟩,
   ⟨0x1100, 0x0E, 4, 0, 255, 8, 0, 0, false, 0, 0, false, 0⟩,
   ⟨0x1100, 0x0F, 4, 0, 255, 8, 0, 0, false, 0, 0, false, 0⟩,
   ⟨0x1100, 0x10, 4, 0, 255, 8, 0, 0, false, 0, 0, false, 0⟩,
   ⟨0x1100, 0x11, 4, 0, 255, 8, 0, 0, false, 0, 0, false, 0⟩,
   ⟨0x1100, 0x12, 4, 0, 255, 8, 0, 0, false, 0, 0, false, 0⟩,
   ⟨0x1100, 0x13, 4, 0, 255, 8, 0, 0, false, 0, 0, false, 0⟩,
   ⟨0x1100, 0x14, 4, 0, 255, 8, 0, 0, false, 0, 0, false, 0⟩,
   ⟨0x1120, 0x00, 8, 1, 255, 16, 0, 8, false, 0, 0, true, 0⟩]

/-- Objects tabled in chapter 16. -/
def objects16 : List ObjDesc :=
  [⟨0x6000, 0x01, 2, 1, 255, 2, 0, 0, true, 900, 1200, true, 1100⟩,
   ⟨0x6000, 0x02, 2, 3, 2, 2, 0, 0, false, 0, 0, true, 0⟩,
   ⟨0x6000, 0x03, 2, 4, 255, 2, 0, 0, false, 0, 0, false, 660⟩,
   ⟨0x6000, 0x04, 2, 4, 255, 2, 0, 0, false, 0, 0, false, 64⟩,
   ⟨0x6000, 0x05, 2, 4, 255, 2, 0, 0, false, 0, 0, false, 176⟩,
   ⟨0x6000, 0x06, 2, 0, 255, 2, 0, 0, false, 0, 0, false, 1100⟩,
   ⟨0x6000, 0x07, 2, 0, 255, 2, 0, 0, false, 0, 0, false, 0⟩,
   ⟨0x6000, 0x08, 2, 0, 255, 2, 0, 0, false, 0, 0, false, 0⟩,
   ⟨0x6000, 0x09, 4, 0, 255, 8, 0, 0, false, 0, 0, false, 0⟩,
   ⟨0x6000, 0x0A, 4, 0, 255, 8, 0, 0, false, 0, 0, false, 0⟩,
   ⟨0x6000, 0x0B, 4, 0, 255, 8, 0, 0, false, 0, 0, false, 0⟩,
   ⟨0x6000, 0x0C, 1, 0, 255, 1, 0, 0, false, 0, 0, false, 0⟩,
   ⟨0x6000, 0x0D, 4, 0, 255, 8, 0, 0, false, 0, 0, false, 0⟩,
   ⟨0x6000, 0x0E, 1, 0, 255, 1, 0, 0, false, 0, 0, false, 0⟩,
   ⟨0x6000, 0x0F, 3, 0, 255, 4, 0, 0, false, 0, 0, true, 0⟩,
   ⟨0x6000, 0x10, 3, 0, 255, 4, 0, 0, false, 0, 0, false, 0⟩,
   ⟨0x6000, 0x11, 4, 0, 255, 8, 0, 0, false, 0, 0, true, 0⟩,
   ⟨0x6000, 0x12, 3, 0, 255, 4, 0, 0, false, 0, 0, true, 0⟩,
   ⟨0x6000, 0x13, 4, 0, 255, 8, 0, 0, false, 0, 0, true, 0⟩,
   ⟨0x6000, 0x14, 1, 1, 255, 1, 0, 0, true, 0, 3, true, 1⟩,
   ⟨0x6001, 0x00, 8, 0, 255, 8, 1, 5, false, 0, 0, true, 0⟩,
   ⟨0x6100, 0x01, 3, 0, 255, 4, 0, 0, false, 0, 0, false, 0⟩,
   ⟨0x6100, 0x02, 3, 0, 255, 4, 0, 0, false, 0, 0, false, 0⟩,
   ⟨0x6100, 0x03, 3, 0, 255, 4, 0, 0, false, 0, 0, false, 0⟩,
   ⟨0x6100, 0x04, 3, 0, 255, 4, 0, 0, false, 0, 0, false, 0⟩,
   ⟨0x6100, 0x05, 4, 0, 255, 8, 0, 0, false, 0, 0, false, 0⟩,
   ⟨0x6101, 0x00, 8, 0, 255, 16, 0, 12, false, 0, 0, false, 0⟩,
   ⟨0x6102, 0x00, 8, 0, 255, 16, 0, 47, false, 0, 0, false, 0⟩,
   ⟨0x6103, 0x00, 8, 0, 255, 256, 0, 16, false, 0, 0, false, 0⟩]

/-- Objects tabled in chapter 17. -/
def objects17 : List ObjDesc :=
  [⟨0x7000, 0x01, 1, 1, 255, 1, 0, 0, true, 0, 31, false, 0⟩,
   ⟨0x7000, 0x02, 1, 3, 0, 1, 0, 0, true, 0, 1, true, 1⟩,
   ⟨0x7000, 0x03, 1, 3, 4, 1, 0, 0, true, 0, 1, true, 0⟩,
   ⟨0x7000, 0x04, 1, 0, 255, 1, 0, 0, false, 0, 0, false, 0⟩,
   ⟨0x7000, 0x05, 3, 0, 255, 4, 0, 0, false, 0, 0, false, 0⟩,
   ⟨0x7000, 0x06, 3, 0, 255, 4, 0, 0, false, 0, 0, false, 0⟩,
   ⟨0x7000, 0x07, 3, 0, 255, 4, 0, 0, false, 0, 0, false, 0⟩,
   ⟨0x7000, 0x08, 1, 0, 255, 1, 0, 0, false, 0, 0, false, 0⟩,
   ⟨0x7000, 0x09, 3, 4, 255, 4, 0, 0, false, 0, 0, false, 1⟩,
   ⟨0x7000, 0x0A, 1, 0, 255, 1, 0, 0, false, 0, 0, false, 0⟩,
   ⟨0x7000, 0x0B, 2, 0, 255, 2, 0, 0, false, 0, 0, false, 0⟩,
   ⟨0x7000, 0x0C, 1, 0, 255, 1, 0, 0, false, 0, 0, false, 1⟩,
   ⟨0x7000, 0x0D, 1, 0, 255, 1, 0, 0, false, 0, 0, false, 0⟩,
   ⟨0x7010, 0x00, 8, 3, 1, 4, 0, 16, false, 0, 0, true, 0⟩,
   ⟨0x7020, 0x00, 8, 0, 255, 32, 1, 6, false, 0, 0, false, 0⟩,
   ⟨0x2001, 0x01, 1, 0, 255, 1, 0, 0, false, 0, 0, false, 1⟩,
   ⟨0x2001, 0x02, 4, 0, 255, 8, 0, 0, false, 0, 0, false, 0⟩,
   ⟨0x2001, 0x03, 4, 0, 255, 8, 0, 0, false, 0, 0, false, 0⟩,
   ⟨0x2001, 0x04, 8, 0, 255, 4, 1, 12, false, 0, 0, false, 0⟩]

/-- Objects tabled in chapter 18. -/
def objects18 : List ObjDesc :=
  [⟨0x6200, 0x01, 4, 0, 255, 8, 0, 0, false, 0, 0, false, 18446744073709551615⟩,
   ⟨0x6200, 0x02, 1, 0, 255, 1, 0, 0, false, 0, 0, false, 255⟩,
   ⟨0x6200, 0x03, 2, 0, 255, 2, 0, 0, false, 0, 0, false, 65535⟩,
   ⟨0x6200, 0x04, 2, 0, 255, 2, 0, 0, false, 0, 0, false, 0⟩,
   ⟨0x6200, 0x05, 3, 1, 255, 4, 0, 0, true, 10000, 100000000, true, 1000000⟩,
   ⟨0x6200, 0x06, 2, 1, 255, 2, 0, 0, true, 1, 1024, true, 64⟩,
   ⟨0x6200, 0x07, 1, 1, 255, 1, 0, 0, true, 1, 16, true, 8⟩,
   ⟨0x6200, 0x08, 2, 2, 255, 2, 0, 0, true, 0, 231, false, 0⟩,
   ⟨0x6200, 0x09, 4, 0, 255, 8, 0, 0, false, 0, 0, false, 0⟩,
   ⟨0x6200, 0x0A, 4, 0, 255, 8, 0, 0, false, 0, 0, false, 0⟩,
   ⟨0x6200, 0x0B, 4, 0, 255, 8, 0, 0, false, 0, 0, true, 0⟩,
   ⟨0x6200, 0x0C, 1, 0, 255, 1, 0, 0, false, 0, 0, false, 0⟩,
   ⟨0x6200, 0x0D, 1, 0, 255, 1, 0, 0, false, 0, 0, true, 0⟩,
   ⟨0x6200, 0x0E, 4, 0, 255, 8, 0, 0, false, 0, 0, false, 0⟩,
   ⟨0x6200, 0x0F, 4, 0, 255, 8, 0, 0, false, 0, 0, false, 0⟩,
   ⟨0x6200, 0x10, 4, 0, 255, 8, 0, 0, false, 0, 0, false, 0⟩,
   ⟨0x6200, 0x11, 4, 0, 255, 8, 0, 0, false, 0, 0, false, 0⟩,
   ⟨0x6200, 0x12, 4, 0, 255, 8, 0, 0, false, 0, 0, true, 0⟩,
   ⟨0x6201, 0x00, 8, 0, 255, 16, 0, 233, false, 0, 0, true, 0⟩,
   ⟨0x6202, 0x00, 8, 0, 255, 24, 0, 64, false, 0, 0, false, 0⟩,
   ⟨0x6203, 0x00, 8, 0, 255, 8, 0, 8192, false, 0, 0, true, 18446744073709551615⟩]

/-- Objects tabled in chapter 19. -/
def objects19 : List ObjDesc :=
  [⟨0x1000, 0x01, 2, 4, 255, 2, 0, 0, false, 0, 0, false, 25602⟩,
   ⟨0x1000, 0x02, 1, 4, 255, 1, 0, 0, false, 0, 0, false, 160⟩,
   ⟨0x1000, 0x03, 4, 4, 255, 8, 0, 0, false, 0, 0, false, 0⟩,
   ⟨0x1000, 0x04, 1, 4, 255, 1, 0, 0, false, 0, 0, false, 0⟩,
   ⟨0x1000, 0x05, 7, 4, 255, 256, 0, 0, false, 0, 0, false, 0⟩,
   ⟨0x1000, 0x06, 7, 4, 255, 256, 0, 0, false, 0, 0, false, 0⟩]

/-- Every object. -/
def allObjects : List ObjDesc :=
  objects02 ++ objects03 ++ objects04 ++ objects05 ++ objects06 ++ objects09 ++ objects10 ++ objects11
     ++ objects12 ++ objects14 ++ objects15 ++ objects16 ++ objects17 ++ objects18 ++ objects19

/-- The index under which a collection's objects are tabled. -/
def tableIndex (index : Nat) : Nat := if 0x4100 ≤ index ∧ index ≤ 0x413F then 0x4100 else index

/-- The descriptor of an object, if it exists. -/
def findObj (index sub : Nat) : Option ObjDesc :=
  allObjects.find? (fun d => decide (d.index = tableIndex index) && decide (d.sub = sub))

/-- The key of an element in `State.dict`. -/
def objKey (index sub arg : Nat) : Nat := index * 2 ^ 40 + sub * 2 ^ 32 + arg

/-- Partition 0 as R271 sets it up; the records of the other partitions are zero. -/
def defaultPartition : Nat :=
  leNat ([1, 0, 0xFF, 0xFF] ++ leBytes 2 8128 ++ leBytes 2 1 ++ List.replicate 16 0xFF
    ++ [1, 0, 0, 0, 0, 0, 0, 0] ++ leBytes 4 100 ++ zeros 28)

/-- A slot of the default tick table (02 R47). -/
def defaultSlot : Nat := leNat (zeros 10 ++ [0xFF] ++ zeros 15 ++ [4, 1] ++ zeros 4)

/-- Text padded with zero bytes (14 R367). -/
def strValue (t : String) : Nat := leNat (fit 256 (t.toList.map (fun c => BitVec.ofNat 8 c.toNat)))

/-- The most that pwr_limit_ceiling may hold: 600 W, or 450 W of the air-cooled variant (16 R416). -/
def ceilingMost : Nat := if Config.airCooled then 900 else 1200

/-- serial_number: per module and never zero (19 R494). -/
def serialNumber : Nat := Config.serialNumber % (2 ^ 64 - 1) + 1

/-- Defaults that depend on the argument or on the module. -/
def specialDefault (index sub arg : Nat) : Option Nat :=
  match index, sub with
  | 0x5010, 0 => some (if arg = 0 then 25165824 else 0)
  | 0x5011, 0 => some (if arg = 0 then 249108103168 else 0)
  | 0x5012, 0 => some (if arg = 0 then 13671875000 else 0)
  | 0x5101, 0 => some (128 + 64 * 65536 + 64 * 4294967296)
  | 0x2110, 0 => some (if arg = 0 then defaultPartition else 0)
  | 0x3011, 0 => some defaultSlot
  | 0x3100, 1 => some 5000
  | 0x3100, 2 => some 1000000
  | 0x2021, 0 => some (match arg with | 1 => 2000 | 2 => 1000000 | 3 => 60000000 | _ => 0)
  | 0x2022, 0 => some (match arg with | 1 => 40 | 2 => 500 | 3 => 5000 | _ => 0)
  | 0x1100, 4 => some (serialNumber % 2 ^ 32)
  | 0x6000, 2 => some ceilingMost
  | 0x1000, 3 => some serialNumber
  | 0x1000, 4 => some (b2n Config.airCooled)
  | 0x1000, 5 => some (strValue "Alaelo")
  | 0x1000, 6 => some (strValue "Rostosa Jiton JTN-6402")
  | _, _ => none

/-- The default of an element. -/
def objDefault (index sub arg : Nat) : Nat :=
  match specialDefault index sub arg with
  | some v => v
  | none =>
    match findObj index sub with
    | some d => d.dflt
    | none => 0

/-- What an unlisted key of `State.dict` reads as. -/
def dictDefault (k : Nat) : Nat := objDefault (k / 2 ^ 40) (k / 2 ^ 32 % 256) (k % 2 ^ 32)

/-- The held value of an element, and writing it. -/
def State.obj (s : State) (index sub : Nat) (arg : Nat := 0) : Nat :=
  Sparse.get dictDefault s.dict (objKey index sub arg)
def State.setObj (s : State) (index sub arg v : Nat) : State :=
  { s with dict := Sparse.put dictDefault s.dict (objKey index sub arg) v }

/-- Advance a counter object. -/
def State.count (s : State) (index sub n : Nat) (arg : Nat := 0) : State :=
  s.setObj index sub arg (s.obj index sub arg + n)

/-- Objects of the partition table keep their values under config_defaults (14 R370; 11 R267). -/
def inPartitionTable (index : Nat) : Bool :=
  index = 0x2110 || index = 0x5010 || index = 0x5011 || index = 0x5012 || index = 0x5101 || index = 0x7010

/-- Is the value of a key kept across a module reset (14 R370)? `defaults` says that config_defaults was written. -/
def keptAtReset (defaults : Bool) (k : Nat) : Bool :=
  match findObj (k / 2 ^ 40) (k / 2 ^ 32 % 256) with
  | none => false
  | some d => d.saved && !(defaults && (d.acc = 1 || d.acc = 3) && !inPartitionTable d.index)

/-- Is the value within the stated range (14 R368)? I32 and F32 objects have none. -/
def ObjDesc.inRange (d : ObjDesc) (v : Nat) : Bool :=
  !d.ranged || (decide (d.lo ≤ v) && decide (v ≤ d.hi))

/-- A text whose bytes after the first zero are not all zero is refused, as is an FP32 NaN or infinity (14 R367). -/
def ObjDesc.wellTyped (d : ObjDesc) (v : Nat) : Bool :=
  match d.type with
  | 6 => isFinite (BitVec.ofNat 32 v)
  | 7 => ((leBytes 256 v).dropWhile (fun b => b != 0)).all (fun b => b == 0)
  | _ => true

/-- The 32 bytes of a descriptor (14 R369). -/
def ObjDesc.bytes (d : ObjDesc) : Bytes :=
  leBytes 1 d.type ++ leBytes 1 d.acc ++ leBytes 1 (b2n d.saved) ++ leBytes 1 d.lock ++ leBytes 4 d.size
    ++ leBytes 4 d.argLimit ++ zeros 4 ++ leBytes 8 (if d.ranged then d.lo else 0)
    ++ leBytes 8 (if d.ranged then d.hi else 0)

end Sys2Proof.Machine
end

