-- ==== Sys2Proof/Machine/Ops.lean ====
section
/-! DEFINITION. The named operations over the state that several commands share: memory, ports and events, queues and
completions, fetched commands, orders, partitions, units, collections, grants. -/
namespace Sys2Proof.Machine

/-- The tick counter. -/
def State.now (s : State) : Tick := s.clk.counter

/-- Out of reset with the rails on: inputs are registered. -/
def State.up (s : State) : Bool := decide (s.pwr.phase = .on) && decide (s.boot.stage ≠ 0)

/-! ### Memory (10 R238) -/

/-- The byte at a device address; a byte nothing has written reads 0 (log entry 2). -/
def memDefault (_ : Nat) : Byte := 0
def State.byte (s : State) (a : Nat) : Byte := Sparse.get memDefault s.mem a

/-- Write one byte, keeping the canonical form. -/
def pokeByte (m : List Host.Cell) (a : Nat) (b : Byte) : List Host.Cell := Sparse.put memDefault m a b

/-- Write bytes from an address up. -/
def pokeBytes (m : List Host.Cell) : Nat → Bytes → List Host.Cell
  | _, [] => m
  | a, b :: bs => pokeBytes (pokeByte m a b) (a + 1) bs

/-- Read and write bytes of the device address space. -/
def State.peek (s : State) (a n : Nat) : Bytes := (List.range n).map (fun i => s.byte (a + i))
def State.poke (s : State) (a : Nat) (bs : Bytes) : State := { s with mem := pokeBytes s.mem a bs }

/-- The canonical form of memory. -/
def Memory.wf (m : List Host.Cell) : Bool := Sparse.wf memDefault m

/-- Host addresses of a port in the device address space (10 R238). -/
def hostBase (p : Port) : Nat :=
  match p with
  | .A => 0x8000000000000000
  | .B => 0xC000000000000000

/-! ### Ports and events (12 R307; 14 R360-R362; 15 R397) -/

def State.port (s : State) (p : Port) : PortState :=
  match p with
  | .A => s.portA
  | .B => s.portB

/-- Write host memory for a function: command output carries Relaxed Ordering when the function enables it, and nothing else
does (12 R290). -/
def State.hostWrite (s : State) (p : Port) (fn : Nat) (output : Bool) (h : Nat) (bs : Bytes) : State :=
  { s.poke (hostBase p + h) bs with
    posted := s.posted ++ [⟨p, fn, h, bs.length, output && (s.port p).relaxed.getLsbD fn⟩] }

/-- Write the output of a command (12 R290). -/
def State.outWrite (s : State) (c : Cmd) (h : Nat) (bs : Bytes) : State := s.hostWrite c.port c.fn true h bs
def State.modPort (s : State) (p : Port) (f : PortState → PortState) : State :=
  match p with
  | .A => { s with portA := f s.portA }
  | .B => { s with portB := f s.portB }

/-- Set a bit of a 16-bit set. -/
def setBit16 (v : BitVec 16) (i : Nat) : BitVec 16 := v ||| (1#16 <<< i)

/-- Raise a code on one port: the count rises and the code's raise sequence is its new value (14 R361). -/
def PortState.raise (p : PortState) (code : Nat) : PortState :=
  { p with
    pending := setBit16 p.pending code
    evCount := p.evCount + 1
    raiseSeq := p.raiseSeq.set code ((p.evCount + 1) % 65536) }

/-- Queue an EVENT: at most 16 wait, the oldest is dropped and counted (15 R397). -/
def State.queueEvent (s : State) (e : BdlEvent) : State :=
  let full := decide (16 ≤ s.bdl.events.length)
  let evs := (if full then s.bdl.events.drop 1 else s.bdl.events) ++ [e]
  let s := { s with bdl := { s.bdl with
    events := evs, lostSince := s.bdl.lostSince + b2n full } }
  if full then s.count 0x1100 0x12 1 else s

/-- Raise an event on both ports, and as an EVENT where the mask asks (12 R307; 15 R397). -/
def State.raiseEvent (s : State) (code : Nat) : State :=
  let s := { s with portA := s.portA.raise code, portB := s.portB.raise code }
  if s.bdl.state = 2 && !s.bdl.manager && bit (s.obj 0x1100 0x0C) code then
    s.queueEvent ⟨0, code, 0, s.now, 0, 0, 0, []⟩
  else s

/-- The pending code of highest priority on a port, or 0 (12 R307). -/
def PortState.attn (p : PortState) : Nat :=
  (Attn.priority.find? (fun c => p.pending.getLsbD c)).getD 0

/-! ### Partitions (11 R267-R273) -/

/-- The record of a partition and its fields (11 R268). -/
def State.partRec (s : State) (p : Nat) : Nat := s.obj 0x2110 0 p
def recField (r off len : Nat) : Nat := r / 2 ^ (8 * off) % 2 ^ (8 * len)
def recEnabled (r : Nat) : Bool := bit r 0
def recSaveGap (r : Nat) : Nat := if recField r 1 1 = 0 then 256 else recField r 1 1
def recFrames (r : Nat) : Nat := recField r 2 2
def recContexts (r : Nat) : Nat := recField r 4 2
def recFrameWeight (r : Nat) : Nat := recField r 6 2
def recFunctions (r : Nat) : Nat := recField r 8 16
def recClassWeight (r c : Nat) : Nat := recField r (24 + c) 1
def recQuantum (r : Nat) : Nat := recField r 32 4

/-- Does a partition list a function of a port (11 R268)? -/
def State.partLists (s : State) (part : Nat) (p : Port) (fn : Nat) : Bool :=
  bit (recFunctions (s.partRec part)) (64 * p.num + fn)

/-- The frames a partition holds that are in service. -/
def State.unitState (s : State) (u : Nat) : Nat :=
  match s.units.recs.find? (fun r => decide (r.unit = u)) with
  | some r => r.state
  | none => 0

/-- Unit numbers (18 R473). -/
def unitRod (r : Nat) : Nat := r
def unitDie (d : Nat) : Nat := 64 + d
def unitChip (c : Nat) : Nat := 192 + c
def unitFrame (f : Nat) : Nat := 200 + f
def unitReckoner (n : Nat) : Nat := 216 + n
def unitHoldup : Nat := 232

def State.unitIn (s : State) (u : Nat) : Bool := decide (s.unitState u = 0)

/-- Frames in service that a partition holds, ascending. -/
def State.partFrames (s : State) (p : Nat) : List Nat :=
  (List.range 16).filter (fun f => bit (recFrames (s.partRec p)) f && s.unitIn (unitFrame f))

/-! ### Queues and completions (12) -/

def State.sq? (s : State) (q : Nat) : Option Sq := s.sqs.find? (fun x => decide (x.qid = q))
def State.cq? (s : State) (q : Nat) : Option Cq := s.cqs.find? (fun x => decide (x.qid = q))
def State.modSq (s : State) (q : Nat) (f : Sq → Sq) : State :=
  { s with sqs := mapWhere (fun x => decide (x.qid = q)) f s.sqs }
def State.modCq (s : State) (q : Nat) (f : Cq → Cq) : State :=
  { s with cqs := mapWhere (fun x => decide (x.qid = q)) f s.cqs }

/-- Entries written and not released, and free slots (12 R297, R301). -/
def Cq.held (c : Cq) : Nat := (c.write + c.depth - c.head) % c.depth
def Cq.free (c : Cq) : Nat := c.depth - 1 - c.held - c.reserved

/-- Entries of an SQ not yet fetched (12 R297). -/
def Sq.waiting (q : Sq) : Nat := (q.tail + q.depth - q.head) % q.depth

/-- A completion's words (12 R302). -/
structure Done where
  status : Nat
  quals : Nat
  dw3 : Nat
  dw5 : Nat
  dw6 : Nat
  dw7 : Nat
  deriving DecidableEq, Repr

/-- The 32 bytes of a completion entry (12 R302). -/
def completionBytes (cmdId sqHead sqId : Nat) (phase : Bool) (d : Done) (attn seq tick : Nat) : Bytes :=
  leBytes 2 cmdId ++ leBytes 2 sqHead
    ++ leBytes 4 (sqId % 2 ^ 18 + b2n phase * 2 ^ 18 + d.status * 2 ^ 24)
    ++ leBytes 4 (d.quals % 2 ^ 15 + attn * 2 ^ 16 + seq % 256 * 2 ^ 20)
    ++ leBytes 4 d.dw3 ++ leBytes 4 tick ++ leBytes 4 d.dw5 ++ leBytes 4 d.dw6 ++ leBytes 4 d.dw7

/-- Write an entry at the write index, turning the phase at the wrap, and use up its reserved slot (12 R301, R303). -/
def State.writeEntry (s : State) (c : Cq) (bs : Bytes) (noint : Bool) : State :=
  let s := s.hostWrite c.port c.fn false (c.base + 32 * c.write) bs
  s.modCq c.qid (fun c => { c with
    write := (c.write + 1) % c.depth
    phase := if c.write + 1 = c.depth then !c.phase else c.phase
    reserved := c.reserved - 1
    signal := c.signal || (c.ien && !noint) })

/-- Post a completion of an SQ to its CQ (12 R302). -/
def State.post (s : State) (q : Sq) (cmdId : Nat) (noint : Bool) (d : Done) : State :=
  match s.cq? q.cq with
  | none => s
  | some c =>
    let p := s.port q.port
    s.writeEntry c (completionBytes cmdId q.head q.qid c.phase d p.attn p.evCount s.now) noint

/-- Count a finished job of an SQ by status class (11 R285). -/
def Sq.countDone (q : Sq) (status : Nat) : Sq :=
  { q with
    jobsCompleted := q.jobsCompleted + 1
    jobsFailed := match Status.classIx status with
      | some i => q.jobsFailed.set i (q.jobsFailed.getD i 0 + 1)
      | none => q.jobsFailed }

/-! ### Fetched commands -/

def State.cmd? (s : State) (cid : Nat) : Option Cmd := s.cmds.find? (fun c => decide (c.cid = cid))
def State.modCmd (s : State) (cid : Nat) (f : Cmd → Cmd) : State :=
  { s with cmds := mapWhere (fun c => decide (c.cid = cid)) f s.cmds }

/-- A field of a submission entry (12 R299). -/
def Cmd.field (c : Cmd) (off len : Nat) : Nat := fieldAt c.entry off len
def Cmd.opcode (c : Cmd) : Nat := c.field 0 1
def Cmd.cmdId (c : Cmd) : Nat := c.field 2 2
def Cmd.noint (c : Cmd) : Bool := bit (c.field 1 1) 0
def Cmd.collByte (c : Cmd) : Nat := c.field 4 1
def Cmd.inAddr (c : Cmd) : Nat := c.field 8 8
def Cmd.inLen (c : Cmd) : Nat := c.field 16 4
def Cmd.outLen (c : Cmd) : Nat := c.field 20 4
def Cmd.outAddr (c : Cmd) : Nat := c.field 24 8

/-- Opcodes (13 R321). -/
abbrev Op.nop : Nat := 0x01
abbrev Op.search : Nat := 0x10
abbrev Op.searchBatch : Nat := 0x11
abbrev Op.encodeSearch : Nat := 0x12
abbrev Op.rerank : Nat := 0x13
abbrev Op.fetch : Nat := 0x14
abbrev Op.insert : Nat := 0x20
abbrev Op.upsert : Nat := 0x21
abbrev Op.delete : Nat := 0x22
abbrev Op.carry : Nat := 0x23
abbrev Op.bulkBuild : Nat := 0x24
abbrev Op.rehome : Nat := 0x25
abbrev Op.collectionCreate : Nat := 0x30
abbrev Op.collectionDrop : Nat := 0x31
abbrev Op.modelLoad : Nat := 0x40
abbrev Op.modelEvict : Nat := 0x41
abbrev Op.run : Nat := 0x42
abbrev Op.objRead : Nat := 0x50
abbrev Op.objWrite : Nat := 0x51
abbrev Op.tierMove : Nat := 0x60
abbrev Op.flush : Nat := 0x61
abbrev Op.fwLoad : Nat := 0x70
abbrev Op.fwCommit : Nat := 0x71
abbrev Op.queueCreate : Nat := 0x80
abbrev Op.queueDelete : Nat := 0x81
abbrev Op.queueReset : Nat := 0x82

/-- Is a command a mutation on external ids (06)? -/
def Cmd.isMutation (c : Cmd) : Bool := decide (0x20 ≤ c.opcode) && decide (c.opcode ≤ 0x22)

/-- Account a finished job: window of 4,096 slowdowns in 1/256 and totals of its class (11 R284), and the latency bins of
searches (16 R424). DESIGN CHOICE (log entry 76): a job that waited in all its ticks is divided by 1. -/
def State.accountJob (s : State) (c : Cmd) : State :=
  let el := s.now - c.stamp
  let solo := el - c.waitTicks
  let slow := if el = 0 then 256 else el * 256 / max 1 solo
  let k := 8 * c.part + c.cls
  let win := (Sparse.get (fun _ => []) s.shares.slow k ++ [slow])
  let win := win.drop (win.length - 4096)
  let tot := Sparse.get (fun _ => []) s.shares.totals k
  let tot' := [tot.getD 0 0 + el, tot.getD 1 0 + solo, tot.getD 2 0 + 1]
  let lat := if 0x10 ≤ c.opcode && c.opcode ≤ 0x13 then
      Sparse.bump s.shares.latency (32 * c.part + min 31 (Nat.log2 (max 1 el))) 1
    else s.shares.latency
  { s with shares := { s.shares with
      slow := Sparse.put (fun _ => []) s.shares.slow k win
      totals := Sparse.put (fun _ => []) s.shares.totals k tot'
      latency := lat } }

/-- Send the message of an MSI-X vector, or set its pending bit where it is masked (12 R304). -/
def State.sendVector (s : State) (p : Port) (fn vector : Nat) : State :=
  if (s.port p).vecMask.contains (fn, vector) then
    s.modPort p (fun x => { x with vecPending := ((fn, vector) :: x.vecPending).eraseDups })
  else
    let sent : State := { s with msix := s.msix ++ [⟨p, fn, vector, s.now⟩] }
    sent.modPort p (fun x => { x with msixSent := x.msixSent + 1 })

/-- Remove a queue that a QUEUE_DELETE or an EN = 0 has drained (12 R311). A message still due to its CQ is sent (R304). -/
def State.dropQueue (s : State) (q : Sq) : State :=
  let s := { s with sqs := s.sqs.filter (fun x => decide (x.qid ≠ q.qid)) }
  let s := if q.deleteCq then
      let due := s.cqs.filter (fun x => decide (x.qid = q.qid) && x.signal)
      due.foldl (fun s x => s.sendVector x.port x.fn x.vector) { s with cqs := s.cqs.filter (fun x => decide (x.qid ≠ q.qid)) }
    else s
  if q.admin then s.modPort q.port (fun p => { p with admin := { p.admin with active := false, halted := false } })
  else s

/-- A queue being reset or deleted whose fetched commands have all completed reaches its next state, and the admin command
that asked for it completes (12 R311, R312; 13 R345, R350). `fuel` bounds the chain from a queue to its admin queue. -/
def State.drain : Nat → State → Nat → State
  | 0, s, _ => s
  | fuel + 1, s, qid =>
    match s.sq? qid with
    | none => s
    | some q =>
      if (q.state = .resetting || q.state = .deleting) && s.cmds.all (fun c => decide (c.sq ≠ qid) || c.silent) then
        let s := if q.state = .deleting then s.dropQueue q
          else s.modSq qid (fun q => { q with state := .active, head := 0, tail := 0, stamps := [], drain := none })
        match q.drain with
        | none => s
        | some cid =>
          match s.cmd? cid with
          | none => s
          | some c =>
            let s := { s with cmds := s.cmds.filter (fun x => decide (x.cid ≠ cid)) }
            match s.sq? c.sq with
            | none => s
            | some aq =>
              let s := if c.silent then s else s.post aq c.cmdId c.noint ⟨0, 0, c.stamp, 0, 0, 0⟩
              let s := (s.modSq c.sq (fun q => q.countDone 0)).accountJob c
              State.drain fuel s c.sq
      else s

/-- Complete a fetched command: its sticky flags and RESTARTED join the qualifiers (07 R190; 12 R306), the entry is
written, and the counts of its queue and class advance, with those of ends by a repeated fault (18 R474). -/
def State.finish (s : State) (cid : Nat) (d : Done) : State :=
  match s.cmd? cid with
  | none => s
  | some c =>
    let quals := orQuals (orQuals d.quals c.flags.quals)
      (if c.restarted && decide (d.status = Status.success) then Qual.restarted else 0)
    let s := { s with cmds := s.cmds.filter (fun x => decide (x.cid ≠ cid)) }
    let s := if d.status = Status.checksumFail ∨ d.status = Status.faultRepeated then s.count 0x6200 0x0A 1 else s
    if c.silent then s
    else
      match s.sq? c.sq with
      | none => s
      | some q =>
        let s := s.post q c.cmdId c.noint { d with quals := quals }
        let s := (s.modSq c.sq (fun q => q.countDone d.status)).accountJob c
        s.drain 4 c.sq

/-- The words of a completion with a failing status: DW3 is the admission tick once there is one, else the doorbell's stamp
(02 R35; 13 R320); DW6 and DW7 as mutations (06 R144, R147), BULK_BUILD, REHOME and MODEL_LOAD state (13 R333-R337). -/
def Cmd.failWords (c : Cmd) (status : Nat) : Done where
  status := status
  quals := 0
  dw3 := c.admTick.getD c.stamp
  dw5 := 0
  dw6 := if c.isMutation || decide (c.opcode = Op.bulkBuild) || decide (c.opcode = Op.rehome)
      || decide (c.opcode = Op.modelLoad) then 0xFFFFFFFF else 0
  dw7 := if c.isMutation then 0xFFFFFFFF else 0

/-- Complete with a failing status. -/
def State.fail (s : State) (cid : Nat) (status : Nat) : State :=
  match s.cmd? cid with
  | none => s
  | some c => s.finish cid (c.failWords status)

/-- The command is in flight at this stage with this opcode, and the device serves it: not while a lower power state is
being left (12 R315), nor before its restart begins (18 R453). -/
def State.served (s : State) (c : Cmd) : Bool :=
  decide (s.ps.state = 0) && decide (s.ps.exitAt = none)
    && (match c.restartAt with | none => true | some t => decide (t ≤ s.now))

/-- A fetched command waiting for its execution, with a given opcode. -/
def State.ready? (s : State) (cid op : Nat) : Option Cmd :=
  match s.cmd? cid with
  | none => none
  | some c => if c.stage = .fetched ∧ c.opcode = op ∧ c.page = .none ∧ s.served c = true then some c else none

/-! ### Orders (02 R32, R36) -/

/-- Register an order in this tick: it is stamped with the next (02 R32). -/
def State.order (s : State) (rank sub : Nat) (body : OrderBody) : State :=
  { s with
    orders := s.orders ++ [⟨s.now + 1, rank, sub, s.receipt, body⟩]
    receipt := s.receipt + 1 }

/-- Rank of a port (02 R36). -/
def portRank (p : Port) : Nat :=
  match p with
  | .A => 3
  | .B => 4

/-- Register the phase-2 effect of a fetched command in the next tick (02 R33, R39). -/
def State.orderCmd (s : State) (c : Cmd) (place : Nat) : State :=
  (s.order (portRank c.port) (c.sq + 1) (.effect c.cid place)).modCmd c.cid
    (fun c => { c with stage := .effect (s.now + 1) })

/-! ### Collections -/

def State.coll? (s : State) (n : Nat) : Option Coll := s.colls.find? (fun c => decide (c.num = n))
def State.modColl (s : State) (n : Nat) (f : Coll → Coll) : State :=
  { s with colls := mapWhere (fun c => decide (c.num = n)) f s.colls }

/-- The state code of a collection number: 0 absent (03 R76). -/
def State.collState (s : State) (n : Nat) : Nat :=
  match s.coll? n with
  | some c => c.state
  | none => 0

/-- A setting or counter of a collection. -/
def State.cobj (s : State) (n sub : Nat) : Nat := s.obj (0x4100 + n) sub
def State.ccount (s : State) (n sub k : Nat) : State := s.count (0x4100 + n) sub k

/-- Remainder items present at a tick (06 R151): committed and not retired by then, deleted or not. -/
def RemItem.presentAt (i : RemItem) (t : Tick) : Bool :=
  decide (i.commitTick ≤ t) && (match i.retiredTick with | none => true | some d => decide (t < d))

/-- Remainder items of a snapshot: present, and not deleted by then (04 R103). -/
def RemItem.liveAt (i : RemItem) (t : Tick) : Bool :=
  i.presentAt t && (match i.deleteTick with | none => true | some d => decide (t < d))

/-- The remainder item of an id now present. -/
def Coll.remLookup (c : Coll) (t : Tick) (ext : BitVec 64) : Option RemItem :=
  c.rem.find? (fun i => decide (i.ext = ext) && i.liveAt t)

/-- Rods in service. -/
def State.rodIn (s : State) (r : Nat) : Bool := s.unitIn (unitRod r)

/-- Walker contexts in use by a partition: those of its searches, and those whose search has ended with reply tags
outstanding (11 R269, R281). -/
def State.contextsUsed (s : State) (part : Nat) : Nat :=
  (s.searches.filter (fun x => x.context && decide (x.part = part))).length
    + (((s.tags.filter (fun t => decide (t.part = part)
        && !s.searches.any (fun x => x.context && decide (x.cid = t.cid) && decide (x.ix = t.ix) && decide (x.epoch = t.epoch)))).map
          (fun t => (t.cid, t.ix, t.epoch))).eraseDups).length

/-! ### Grants (16 R410, R412) -/

/-- Ask the governor. -/
def State.askGrant (s : State) (kind : GrantKind) (media : Bool) (units : Nat) (cid : Option Nat) : State :=
  { s with pwr := { s.pwr with
      grants := s.pwr.grants ++ [⟨s.pwr.nextGid, kind, media, units, s.now, false, false, cid⟩]
      nextGid := s.pwr.nextGid + 1 } }

/-- The grant of a kind, if asked. -/
def State.grantOf (s : State) (kind : GrantKind) : Option Grant :=
  s.pwr.grants.find? (fun g => decide (g.kind = kind) && !g.releasing)

/-- Mark a grant to be released at the next decisions. -/
def State.endGrant (s : State) (gid : Nat) : State :=
  { s with pwr := { s.pwr with
      grants := mapWhere (fun g => decide (g.gid = gid)) (fun g => { g with releasing := true }) s.pwr.grants } }

/-! ### Free values -/

/-- The next free value (Config): nothing constrains it. -/
def State.draw (s : State) : Nat × State := (Config.freeValue s.free, { s with free := s.free + 1 })

/-! ### Round-robin with aging (02 R492) -/

/-- The partition whose turn it is, and whether by age. `wait` holds since when each partition's work has stood ready. -/
def nextTurn (ptr : Nat) (wait : List (Nat × Tick)) (t : Tick) (ready : List Nat) : Option (Nat × Bool) :=
  let aged := sortBy (fun (a b : Nat × Tick) => decide (a.2 < b.2) || (decide (a.2 = b.2) && decide (a.1 ≤ b.1)))
    (wait.filter (fun e => ready.contains e.1 && decide (e.2 + 64 ≤ t)))
  match aged with
  | e :: _ => some (e.1, true)
  | [] => (((List.range 16).map (fun i => (ptr + i) % 16)).find? (fun p => ready.contains p)).map (fun p => (p, false))

/-- The waits once it is known in a tick which partitions have work ready. -/
def waitsNow (wait : List (Nat × Tick)) (t : Tick) (ready : List Nat) : List (Nat × Tick) :=
  wait.filter (fun e => ready.contains e.1)
    ++ (ready.filter (fun p => wait.all (fun e => decide (e.1 ≠ p)))).map (fun p => (p, t))

/-- The answer of a command. -/
abbrev Ans := Host.Outcome State Fault Refusal

end Sys2Proof.Machine
end

