-- ==== Sys2Proof/Machine/Quota.lean ====
section
/-! DEFINITION. Quotas and what is charged to them (10 R240-R242), the regions in use, and the model hot set: loads,
evictions, holds (09 R231, R232). -/
namespace Sys2Proof.Machine

/-- A sum over a list. -/
def sumBy {α : Type} (f : α → Nat) (l : List α) : Nat := l.foldl (fun n x => n + f x) 0

/-- Bytes of a model's resident copy. -/
def Model.bytes (m : Model) : Nat := 4096 * m.tiles.length

/-- Has the model HBM of its own (09 R231)? -/
def Model.inHbm (m : Model) : Bool :=
  match m.state with
  | .loading => true
  | .resident => true
  | .evicting _ => true
  | _ => false

/-- Is the model resident or evicting? -/
def Model.isResident (m : Model) : Bool :=
  match m.state with
  | .resident => true
  | .evicting _ => true
  | _ => false

/-- HBM bytes charged to a partition (10 R240). -/
def State.useHbm (s : State) (p : Nat) : Nat :=
  sumBy (fun c => if c.part = p then c.hbmCharged + 1048576 * s.cobj c.num 0x16 else 0) s.colls
    + sumBy (fun m => if m.part = p ∧ m.inHbm = true then m.bytes else 0) s.tensor.models
    + sumBy (fun q => if q.part = p ∧ q.state ≠ .waiting then q.reservation else 0) s.tensor.seqs
    + sumBy (fun l => if l.part = p then (if (l.home = 1 ∨ (l.moving = true ∧ l.newHome = 1)) ∧ l.kind = 1 then l.length else 0)
        + (if l.writeBack then l.length else 0) else 0) s.tensor.placements

/-- Flash tiles charged to a partition (10 R240). -/
def State.useFlash (s : State) (p : Nat) : Nat :=
  sumBy (fun c => if c.part = p then c.tilesReserved else 0) s.colls
    + sumBy (fun l => if l.part = p ∧ (l.home = 2 ∨ (l.moving = true ∧ l.newHome = 2)) then l.length / 4096 else 0)
        s.tensor.placements

def State.quotaHbm (s : State) (p : Nat) : Nat := s.obj 0x5011 0 p
def State.quotaFlash (s : State) (p : Nat) : Nat := s.obj 0x5012 0 p
def State.quotaSram (s : State) (p : Nat) : Nat := s.obj 0x5010 0 p

/-- Would an allocation pass a quota (10 R241)? -/
def State.hbmFits (s : State) (p n : Nat) : Bool := decide (s.useHbm p + n ≤ s.quotaHbm p)
def State.flashFits (s : State) (p n : Nat) : Bool := decide (s.useFlash p + n ≤ s.quotaFlash p)

/-- What flash holds besides, until its die reports: ranges being erased, and tiles being written back to a home that is
given up (16 R410). -/
def Grant.flashRange (g : Grant) : List (Nat × Nat) :=
  if g.releasing then []
  else
    match g.kind with
    | .erase _ b n => [(b, n)]
    | .program (.writeBack _) t _ _ => [(t, 1)]
    | _ => []

/-- Flash regions in use, as base and length in tiles. -/
def State.flashRegions (s : State) : List (Nat × Nat) :=
  (s.colls.map (fun c => c.parts)).flatten
    ++ (s.tensor.placements.filter (fun l => decide (l.home = 2))).map
        (fun l => ((l.base - 0x0002000000000000) / 4096, l.length / 4096))
    ++ (s.tensor.placements.filter (fun l => l.moving && decide (l.newHome = 2))).map
        (fun l => ((l.newBase - 0x0002000000000000) / 4096, l.length / 4096))
    ++ (s.pwr.grants.map (fun g => g.flashRange)).flatten

/-! ### Programs and erases of flash (16 R410) -/

/-- Ask for the program of a tile. A rod out of service takes none. -/
def State.askTile (u : ProgUse) (cid : Option Nat) (part : Nat) (s : State) (t : Nat × Bytes) : State :=
  if s.rodIn (tileRod t.1) then s.askGrant (.program u t.1 part t.2) true 1 cid else s

/-- Ask for the programs of tiles, one grant each. -/
def State.askTiles (s : State) (u : ProgUse) (cid : Option Nat) (part : Nat) (ts : List (Nat × Bytes)) : State :=
  ts.foldl (State.askTile u cid part) s

/-- Is a grant a program of this use that its die has not reported? -/
def Grant.programs (g : Grant) (u : ProgUse) : Bool :=
  !g.releasing && (match g.kind with
    | .program v _ _ _ => decide (v = u)
    | _ => false)

/-- Are programs of a use under way? -/
def State.programming (s : State) (u : ProgUse) : Bool := s.pwr.grants.any (fun g => g.programs u)

/-- Take back the requests of a use that no die has been given. -/
def State.dropPrograms (s : State) (u : ProgUse) : State :=
  { s with pwr := { s.pwr with grants := s.pwr.grants.filter (fun g => g.granted || !g.programs u) } }

/-- Ask for the erase of a range of tiles: one grant for each die in service that holds some (log entry 82). -/
def State.askErase (s : State) (base n : Nat) : State :=
  ((List.range 128).filter (fun d => s.unitIn (unitDie d) && (List.range n).any (fun i => decide (tileDie (base + i) = d)))).foldl
    (fun s d => s.askGrant (.erase d base n) true 1 none) s

/-- Write the dirty tiles of a placement's shadow to its home, and count them: into flash one program each. A tile written to
while it is written back is dirty again (10 R245, R246). -/
def State.writeBackAll (s : State) (l : Placement) (cid : Option Nat) : State :=
  let tile (k : Nat) : Bytes := s.peek (l.shadow + 4096 * k) 4096
  let t0 := (l.base - 0x0002000000000000) / 4096
  let t := if l.home = 2 then s.askTiles (.writeBack l.id) cid l.part (l.dirty.map (fun k => (t0 + k, tile k)))
    else l.dirty.foldl (fun s k => s.poke (l.base + 4096 * k) (tile k)) s
  let t := t.count 0x5000 7 (4096 * l.dirty.length)
  { t with tensor := { t.tensor with
    placements := mapWhere (fun x => decide (x.id = l.id)) (fun x => { x with dirty := [] }) t.tensor.placements } }

/-- First and last-but-one address of the partitionable HBM (10 R238). -/
def hbmLo : Nat := 0x0001000600000000
def hbmHi : Nat := 0x0001004000000000

/-- HBM regions with addresses in use, each with the partition it is charged to. -/
def State.hbmOwned (s : State) : List (Nat × Nat × Nat) :=
  (s.tensor.models.filter (fun m => m.inHbm)).map (fun m => (m.part, m.hbmBase, m.bytes))
    ++ (s.tensor.placements.filter (fun l => decide (l.home = 1))).map (fun l => (l.part, l.base, l.length))
    ++ (s.tensor.placements.filter (fun l => l.writeBack)).map (fun l => (l.part, l.shadow, l.length))
    ++ (s.tensor.placements.filter (fun l => l.moving && decide (l.newHome = 1))).map (fun l => (l.part, l.newBase, l.length))
def State.hbmRegions (s : State) : List (Nat × Nat) := s.hbmOwned.map (fun r => r.2)

/-- May a partition's programs and streams use a range of HBM? It lies in the partitionable range, is no longer than the quota and
touches no region charged to another partition (10 R238, R251; DEDUCED, log entry 72). -/
def State.hbmOk (s : State) (part a len : Nat) : Bool :=
  decide (hbmLo ≤ a) && decide (a + len ≤ hbmHi) && decide (len ≤ s.quotaHbm part)
    && s.hbmOwned.all (fun r => decide (r.1 = part) || decide (a + len ≤ r.2.1) || decide (r.2.1 + r.2.2 ≤ a))

/-- Flash tiles not reserved (03 R75). -/
def State.flashFree (s : State) : Nat :=
  flashTiles - (sumBy (fun c => c.tilesReserved) s.colls
    + sumBy (fun l => if l.home = 2 ∨ (l.moving = true ∧ l.newHome = 2) then l.length / 4096 else 0) s.tensor.placements)

/-! ### The hot set (09 R231, R232) -/

def State.model? (s : State) (h : Nat) : Option Model := s.tensor.models.find? (fun m => decide (m.handle = h))
def State.modModel (s : State) (h : Nat) (f : Model → Model) : State :=
  { s with tensor := { s.tensor with models := mapWhere (fun m => decide (m.handle = h)) f s.tensor.models } }

/-- The state code of a handle (09 R231). -/
def ModelState.code (m : ModelState) : Nat :=
  match m with
  | .present => 1
  | .loading => 2
  | .resident => 3
  | .evicting _ => 4
  | .faulted => 5

/-- Models resident, evicting or loading: places of the hot set taken. -/
def State.hotUsed (s : State) : Nat := (s.tensor.models.filter (fun m => m.inHbm)).length

/-- The unheld resident model released longest ago, ties by handle, within a partition or the module. -/
def State.lruModel (s : State) (part : Option Nat) : Option Model :=
  let ms := s.tensor.models.filter (fun m => decide (m.state = .resident) && decide (m.holds = 0)
    && (match part with | none => true | some p => decide (m.part = p)))
  (sortBy (fun a b => decide (a.lastRelease < b.lastRelease)
    || (decide (a.lastRelease = b.lastRelease) && decide (a.handle ≤ b.handle))) ms).head?

/-- Evict an unheld resident model under R232. -/
def State.evictLru (s : State) (m : Model) : State :=
  (s.modModel m.handle (fun m => { m with state := .present })).count 0x5810 5 1

/-- Evict until a load of `n` bytes for a partition fits: the hot set from the whole module, the quota from the partition.
`fuel` bounds the evictions. -/
def State.makeRoom : Nat → State → Nat → Nat → State
  | 0, s, _, _ => s
  | fuel + 1, s, p, n =>
    if 256 ≤ s.hotUsed then
      match s.lruModel none with
      | some m => State.makeRoom fuel (s.evictLru m) p n
      | none => s
    else if s.hbmFits p n && (allocRange s.hbmRegions hbmLo hbmHi 4096 0 n).isSome then s
    else
      match s.lruModel (some p) with
      | some m => State.makeRoom fuel (s.evictLru m) p n
      | none => s

/-- Does a program read or write a range by one of its streams' footprints? -/
def TileProg.touches (p : TileProg) (a n : Nat) : Bool :=
  p.streams.any (fun x => decide (x.fpBase < a + n) && decide (a < x.fpBase + x.fpLength))

/-- Do jobs of a model use a placement: as its compressed copy, or by a stream (10 R244)? -/
def Model.uses (m : Model) (l : Placement) : Bool :=
  (decide (l.kind = 2) && decide (m.placement = l.id)) || m.pkg.prog.touches l.base l.length

/-- Must jobs of a model that are admitted now wait for a move (10 R244)? -/
def State.moveBlocks (s : State) (m : Model) : Bool := s.tensor.placements.any (fun l => l.moving && m.uses l)

/-- Start the load of a present model, or leave it waiting (09 R232). It waits too while its copy moves (10 R244). -/
def State.tryLoad (s : State) (h : Nat) : State :=
  match s.model? h with
  | none => s
  | some m =>
    if m.state = .present ∧ s.moveBlocks m = false then
      let s := s.makeRoom (s.tensor.models.length + 1) m.part m.bytes
      let place := if s.hotUsed < 256 ∧ s.hbmFits m.part m.bytes = true then
          allocRange s.hbmRegions hbmLo hbmHi 4096 m.hbmBase m.bytes else none
      match place with
      | none => if m.loadWaits then s else (s.count 0x5810 6 1).modModel h (fun m => { m with loadWaits := true })
      | some b =>
        let gid := s.pwr.nextGid
        let t := s.now
        let s := s.modModel h (fun m => { m with
          state := .loading, hbmBase := b, loadStart := t, loadGrant := some gid, loadWaits := false })
        s.askGrant (.modelLoad h) false 30 none
    else s

/-- Does a waiting command need the model loaded? -/
def State.wantsLoad (s : State) (h : Nat) : Bool :=
  s.cmds.any (fun c => decide (c.stage = .modelWait h) && decide (c.opcode ≠ Op.modelEvict))

/-- Retry the loads that wait, in handle order (09 R232). -/
def State.retryLoads (s : State) : State :=
  (s.tensor.models.filter (fun m => decide (m.state = .present))).foldl
    (fun s m => if s.wantsLoad m.handle then s.tryLoad m.handle else s) s

/-- A placement is released: its dirty tiles go to its home first, in tier mode 0, and a move of it ends without effect (10
R245, R247; log entry 81). -/
def State.releasePlacement (s : State) (l : Placement) : State :=
  let s := if s.obj 0x5000 4 = 0 then s.writeBackAll l none else s
  let s := s.dropPrograms (.move l.id)
  let s := { s with tensor := { s.tensor with placements := s.tensor.placements.filter (fun x => decide (x.id ≠ l.id)) } }
  if l.moving then s.fail l.moveCid Status.invalidField else s

/-- A handle becomes absent: its placement is freed, and the jobs that wait for it fail, the handle being unused (09 R231;
13 R338). -/
def State.unregister (s : State) (m : Model) : State :=
  let jobs := s.cmds.filter (fun c => decide (c.stage = .modelWait m.handle) && decide (c.opcode ≠ Op.modelEvict))
  let gone (q : Seqn) : Bool := decide (q.state = .waiting) && jobs.any (fun c => decide (c.cid = q.cid))
  let s := { s with tensor := { s.tensor with
      models := s.tensor.models.filter (fun x => decide (x.handle ≠ m.handle))
      seqs := s.tensor.seqs.filter (fun q => !gone q) } }
  let s := (s.tensor.placements.filter (fun l => decide (l.id = m.placement))).foldl (fun s l => s.releasePlacement l) s
  jobs.foldl (fun s c => s.fail c.cid Status.invalidField) s

/-- An eviction ends when no hold is left: the model becomes present, or absent when unregistering, and its MODEL_EVICT
commands complete (09 R231; 13 R338). -/
def State.endEvict (s : State) (h : Nat) : State :=
  match s.model? h with
  | none => s
  | some m =>
    match m.state with
    | .evicting unreg =>
      if m.holds = 0 then
        let s := s.count 0x5810 5 1
        let s := if unreg then s.unregister m else s.modModel h (fun m => { m with state := .present })
        let done := s.cmds.filter (fun c => decide (c.stage = .modelWait h) && decide (c.opcode = Op.modelEvict))
        (done.foldl (fun s c => s.finish c.cid ⟨0, 0, c.stamp, 0, 0, 0⟩) s).retryLoads
      else s
    | _ => s

/-- Take a hold on a resident model. -/
def State.hold (s : State) (h : Nat) : State := s.modModel h (fun m => { m with holds := m.holds + 1 })

/-- End a hold (09 R231, R232). -/
def State.unhold (s : State) (h : Nat) : State :=
  ((s.modModel h (fun m => { m with holds := m.holds - 1, lastRelease := s.now })).endEvict h).retryLoads

/-- Is a placement held: by a job or a search whose model uses it, or by a load or reload from it (10 R244)? -/
def State.placementHeld (s : State) (l : Placement) : Bool :=
  s.tensor.models.any (fun m => m.uses l
    && (decide (m.holds ≠ 0) || decide (m.state = .loading) || !m.reloading.isEmpty))

end Sys2Proof.Machine
end

