-- ==== Sys2Proof/Machine/Jobs.lean ====
section
/-! DEFINITION. Jobs: the searches and sequences of a command, their release (11 R286), and the restart rule for internal
faults (18 R452-R454). -/
namespace Sys2Proof.Machine

/-! ### Searches -/

def Search.is (x : Search) (cid ix : Nat) : Bool := decide (x.cid = cid) && decide (x.ix = ix)
def State.search? (s : State) (cid ix : Nat) : Option Search := s.searches.find? (fun x => x.is cid ix)
def State.modSearch (s : State) (cid ix : Nat) (f : Search → Search) : State :=
  { s with searches := mapWhere (fun x => x.is cid ix) f s.searches }

/-- The key of the reply tag of a vector or payload read. -/
def vecKey (slot : Nat) : Nat := 2 ^ 40 + slot
/-- The read number of the payload row of result slot i, beside the reads of the rerank set. -/
def rowSlot (i : Nat) : Nat := 4096 + i

/-- The reply tag an expansion holds (11 R281). -/
def Expansion.tag? (e : Expansion) (x : Search) : Option Tag :=
  if e.cached then none
  else
    match e.stage with
    | .sent => some ⟨x.cid, x.ix, x.epoch, e.node, x.part, tileRod e.tile, e.deadline⟩
    | .formed _ => some ⟨x.cid, x.ix, x.epoch, e.node, x.part, tileRod e.tile, e.deadline⟩
    | _ => none

/-- The reply tags a vector or payload read of rods holds, one for each tile; a read that no rod serves has deadline 0 and no
tag. -/
def ReadStage.tags (r : ReadStage) (x : Search) (slot : Nat) (rods : List Nat) : List Tag :=
  match r with
  | .sent d => rods.map (fun rod => ⟨x.cid, x.ix, x.epoch, vecKey slot, x.part, rod, d⟩)
  | .returned d _ => if d = 0 then [] else rods.map (fun rod => ⟨x.cid, x.ix, x.epoch, vecKey slot, x.part, rod, d⟩)
  | _ => []

/-- The tags of a candidate's vector. Tiles asked while others still wait for quota have the longest deadline they can get. -/
def RankCand.tags (r : RankCand) (x : Search) (slot limit : Nat) : List Tag :=
  match r.read with
  | .queued => r.asked.map (fun t => ⟨x.cid, x.ix, x.epoch, vecKey slot, x.part, tileRod t, limit⟩)
  | st => st.tags x slot (r.asked.map tileRod)

/-- Tags of the open round, of the vector reads and of the payload reads. -/
def Search.walkTags (x : Search) : List Tag := x.open_.filterMap (fun e => e.tag? x)
def State.readTags (s : State) (x : Search) : List Tag :=
  (x.rank.zipIdx.map (fun p => p.1.tags x p.2 (s.clk.counter + s.obj (0x4100 + x.coll) 0x25))).flatten
    ++ (x.rows.map (fun r => r.read.tags x (rowSlot r.slot) [rodOf r.node])).flatten

/-- The tags of a search. -/
def State.tagsOf (s : State) (x : Search) : List Tag := x.walkTags ++ s.readTags x

/-- The paths on which a segment in flight holds tags, and how many: 256 bytes each on a frame's port; 4,096 toward a channel
chip, one for each tile asked of its rods; 512 toward a host, where only reads hold any (10 R257, R266). Paths 0-15 are frames,
16-23 chips, 24 and 25 ports. -/
def segTags (frame : Nat) (p : StreamProg) (g : SegXfer) : List (Nat × Nat) :=
  if p.write then [(frame, if g.waiting then 0 else ceilDiv p.segBytes 256)]
  else if g.addr < 0x0002000000000000 then [(frame, ceilDiv p.segBytes 256)]
  else if g.addr < 0x8000000000000000 then g.asked.map (fun t => (16 + tileRod t / 8, 1))
  else [(24 + g.addr / 0x4000000000000000 % 2, ceilDiv p.segBytes 512)]

/-- Tags in use on a path (10 R257, R266). -/
def State.tagsBusy (s : State) (path : Nat) : Nat :=
  let flights := ((s.tensor.ctxs.map (fun c =>
    (c.streams.map (fun x => (x.flight.map (fun g => segTags c.frame x.prog g)).flatten)).flatten)).flatten)
  sumBy (fun t => if t.1 = path then t.2 else 0) flights
    + ((s.tags ++ (s.searches.map (fun x => s.tagsOf x)).flatten).filter (fun g => decide (16 + g.rod / 8 = path))).length
    + ((s.cmds.map (fun c => c.asked)).flatten.filter (fun t => decide (16 + tileRod t / 8 = path))).length
    + sumBy (fun h => if h.path = path then h.count else 0) s.tensor.staleHost

/-- The tags of a path (10 R257); 768 on a port whose link is not in flit mode (12 R289). -/
def State.pathTags (s : State) (path : Nat) : Nat :=
  if path < 16 then 1024
  else if path = 24 then (if s.portA.flit then 4096 else 768)
  else if path = 25 then (if s.portB.flit then 4096 else 768)
  else 4096

/-- Add to an account of a partition's class: 0 frame clocks, 1 context-ticks, 2 reads, 3 scores, 4 tokens (11 R283). -/
def State.useClass (s : State) (part cls i n : Nat) : State :=
  let k := 8 * part + cls
  let l := Sparse.get (fun _ => List.replicate 5 0) s.shares.classUse k
  { s with shares := { s.shares with
      classUse := Sparse.put (fun _ => List.replicate 5 0) s.shares.classUse k (l.set i (l.getD i 0 + n)) } }

/-- Add to the class account of a command. -/
def State.useCmd (s : State) (cid i n : Nat) : State :=
  match s.cmd? cid with
  | none => s
  | some c => s.useClass c.part c.cls i n

/-- One tick of waiting for a shared resource (11 R284). -/
def State.waitTick (s : State) (cid : Nat) : State := s.modCmd cid (fun c => { c with waitTicks := c.waitTicks + 1 })

/-- Ask for the power of the firmware's scoring program of a search (05 R125). The manual states no units for it: a value that
fits the pool alone, as every request does (16 R411; log entry 69). -/
def State.askRescore (s : State) (x : Search) : State :=
  let (v, s) := s.draw
  s.askGrant (.rescore x.cid x.ix) false (v % 177) (some x.cid)

/-- Give that power back. -/
def State.dropRescore (s : State) (x : Search) : State :=
  match s.grantOf (.rescore x.cid x.ix) with
  | some g => s.endGrant g.gid
  | none => s

/-- Release what a search holds: its context once its tags allow, charged for the time it was held, and its model (11 R281,
R283, R286). -/
def State.releaseSearch (s : State) (x : Search) : State :=
  let s := { s.dropRescore x with tags := s.tags ++ s.tagsOf x }
  let s := if x.context then s.useCmd x.cid 1 (s.now - x.ctxSince) else s
  match x.holdsModel with
  | some h => s.unhold h
  | none => s

/-- A search that is no more. -/
def State.dropSearch (s : State) (x : Search) : State :=
  { (s.releaseSearch x) with searches := (s.releaseSearch x).searches.filter (fun y => !y.is x.cid x.ix) }

def State.dropSearches (s : State) (cid : Nat) : State :=
  (s.searches.filter (fun x => decide (x.cid = cid))).foldl (fun s x => s.dropSearch x) s

/-- Has the walk of a search ended? -/
def Search.walkOver (x : Search) : Bool :=
  match x.phase with
  | .walked => true
  | .rescoring => true
  | .gathering => true
  | .writing _ => true
  | _ => false

/-- Count a completed search of a collection that began its walk, once: coll_queries_completed and the controller's history (04
R113, R114). -/
def State.noteCompleted (s : State) (x : Search) : State :=
  if x.began && !x.isRerank && !x.counted then
    let s := s.ccount x.coll 0x29 1
    if decide (x.endReason = 0) && x.walkOver then
      s.modColl x.coll (fun c => { c with hopHistory := (c.hopHistory ++ [x.expansions]).drop (c.hopHistory.length + 1 - 1024) })
    else s
  else s

/-- Count the searches of a command that ends without a result. -/
def State.noteAll (s : State) (cid : Nat) : State :=
  (s.searches.filter (fun x => decide (x.cid = cid))).foldl (fun s x => s.noteCompleted x) s

/-! ### Sequences -/

/-- Release the sequences of a command that match: a waiting entry is freed at once; the rows of a running one go on to
its step's END and are discarded (11 R286, R287). -/
def State.dropSeqs (s : State) (cid : Nat) (p : Seqn → Bool) : State :=
  let mine (q : Seqn) : Bool := decide (q.cid = cid) && decide (q.mark ≠ .dead) && p q
  let held := (s.tensor.seqs.filter (fun q => mine q && q.holding)).map (fun q => q.handle)
  let seqs := (s.tensor.seqs.filter (fun q => !(mine q && decide (q.state = .waiting)))).map
    (fun q => if mine q then { q with mark := .dead, holding := false } else q)
  let s := { s with tensor := { s.tensor with seqs := seqs } }
  held.foldl (fun s h => s.unhold h) s

/-- A RUN that restarts keeps its entry and reservation and rejoins ahead of every waiting sequence (18 R454). -/
def State.rejoinSeqs (s : State) (cid : Nat) : State :=
  { s with tensor := { s.tensor with
      seqs := mapWhere (fun q => decide (q.cid = cid) && decide (q.mark = .live))
        (fun q => { q with mark := .rejoin, fault := none, outBytes := 0 }) s.tensor.seqs } }

/-! ### The restart rule -/

/-- A search as it stands when its attempt has been given up: it waits for a context again, or for its encoder, with the
admission tick, snapshot and deadline of its first attempt (04 R112; 18 R453, R454; log entry 68). -/
def Search.again (x : Search) (phase : SPhase) : Search :=
  { x with
    phase := phase, context := false, holdsModel := none, epoch := x.epoch + 1
    cands := [], visited := [], open_ := [], roundExps := 0, roundUncovered := 0
    pool := [], rounds := 0, expansions := 0, uncovered := 0, cacheHits := 0, staleEdges := 0, capDrops := 0, endReason := 0
    hits := [], need := .none, hitsUsed := false, scanned := 0, partialCut := false, rank := [], rows := []
    resultQuals := 0, flags := Flags.none }

/-- Give up the attempts of the searches of a command, ended queries of a batch too: what they hold is released, and their
outstanding replies are of an epoch gone by. -/
def State.againSearches (s : State) (cid : Nat) (phase : SPhase) : State :=
  let mine := s.searches.filter (fun x => decide (x.cid = cid))
  let s := mine.foldl (fun s x => s.releaseSearch x) s
  { s with searches := mapWhere (fun x => decide (x.cid = cid)) (fun x => x.again phase) s.searches }

/-- The reply tags of the tiles that a FETCH has asked for, which hold no walker context: their partition is 16, none. -/
def Cmd.fetchTags (c : Cmd) (limit : Nat) : List Tag :=
  c.asked.map (fun t => ⟨c.cid, 0, 0, vecKey 0, 16, tileRod t, c.askTick + limit⟩)

/-- A FETCH that ends or starts again leaves the tags of its requests outstanding until their replies or their deadline. -/
def State.dropFetch (s : State) (c : Cmd) : State :=
  { s with tags := s.tags ++ c.fetchTags (s.cobj c.collByte 0x25) }

/-- The status of a second internal fault (18 R453). -/
def repeatStatus (checksum : Bool) : Nat := if checksum then Status.checksumFail else Status.faultRepeated

/-- Release what a command holds (11 R286). -/
def State.release (s : State) (cid : Nat) : State :=
  let s := match s.cmd? cid with
    | some c => s.dropFetch c
    | none => s
  ((s.dropSearches cid).dropSeqs cid (fun _ => true)).count 0x2100 0x0A 1

/-- Start a command again after its first internal fault. -/
def State.restartCmd (s : State) (c : Cmd) : State :=
  let t := s.now + 1
  let s := ((s.dropFetch c).count 0x6200 0x09 1).count 0x2100 0x0A 1
  let again (s : State) (st : CmdStage) : State :=
    s.modCmd c.cid (fun c => { c with
      restarted := true, restartAt := some t, flags := Flags.none, stage := st, item := none, judged := false,
      superseded := false, todo := none, asked := [] })
  if c.opcode = Op.encodeSearch then again ((s.againSearches c.cid .encoding).dropSeqs c.cid (fun _ => true)) .fetched
  else if c.stage = .searching then
    again ((s.againSearches c.cid .waiting).dropSeqs c.cid (fun _ => true)) .searching
  else if c.opcode = Op.run then
    match c.stage with
    | .sequence => again (s.rejoinSeqs c.cid) .sequence
    | st => again s st
  else again ((s.dropSearches c.cid).dropSeqs c.cid (fun _ => true)) .fetched

/-- Has the effect of the command been made: after a mutation's journal append it stands (18 R454), as does
a finishing batch once its tiles are written? -/
def Cmd.appended (c : Cmd) : Bool :=
  match c.stage with
  | .ended .. => true
  | .effect _ => decide (c.opcode = Op.bulkBuild)
  | _ => false

/-- An internal fault of a command (18 R453): the first ends the attempt and starts it again in the next tick; the second
completes it. Faults of one tick count as one. FW_COMMIT never restarts, and a CARRY waits for its pass (18 R454, R455). -/
def State.faultCmd (s : State) (cid : Nat) (checksum : Bool) : State :=
  match s.cmd? cid with
  | none => s
  | some c =>
    if c.opcode = Op.fwCommit || decide (c.opcode = Op.carry) || c.appended then s
    else if !c.restarted then s.restartCmd c
    else if c.restartAt = some (s.now + 1) then s
    else ((s.noteAll cid).release cid).fail cid (repeatStatus checksum)

end Sys2Proof.Machine
end

