-- ==== Sys2Proof/Machine/Snapshot.lean ====
section
/-! DEFINITION. What a search sees (04): the snapshot of its admission tick, the node cache, tiles read from the rods,
filters, sketches, exact scores of mode 0, and coverage (18 R459). -/
namespace Sys2Proof.Machine

/-! ### The snapshot (04 R94) -/

/-- The value an entry of the change log restores, if the log holds a change later than tick `t`. -/
def State.logged (s : State) (coll node : Nat) (tomb : Bool) (t : Tick) : Option Nat :=
  (s.chg.find? (fun e => decide (e.coll = coll) && decide (e.node = node) && decide (e.tomb = tomb)
    && decide (t < e.tick))).map (fun e => e.old)

/-- Generation and tombstone bit of a node as of tick `t`. -/
def State.genAt (s : State) (c : Coll) (t : Tick) (n : Nat) : Nat := (s.logged c.num n false t).getD (c.gen n)
def State.tombAt (s : State) (c : Coll) (t : Tick) (n : Nat) : Bool :=
  match s.logged c.num n true t with
  | some v => decide (v = 1)
  | none => c.tomb n

/-- Admission ticks of the searches and FETCHes running, those that a restart would repeat among them (04 R112), and the start
tick of a pass that is planning. -/
def State.snapshots (s : State) : List Tick :=
  (s.searches.filter (fun x => x.began)).map (fun x => x.admTick)
    ++ (s.cmds.filter (fun c => decide (c.opcode = Op.fetch))).filterMap (fun c => c.admTick)
    ++ (match s.carry.pass with
        | some p => if p.planClosed then [] else [p.start]
        | none => [])

/-- Does a snapshot taken before tick `t` remain? -/
def State.snapshotBefore (s : State) (t : Tick) : Bool := s.snapshots.any (fun a => decide (a < t))

/-- Drop the change-log entries that no snapshot needs (04 R94). -/
def State.pruneLog (s : State) : State := { s with chg := s.chg.filter (fun e => s.snapshotBefore e.tick) }

/-- Record a change of a tombstone bit or a generation. -/
def State.logChange (s : State) (coll node : Nat) (tomb : Bool) (old : Nat) : State :=
  { s with chg := s.chg ++ [⟨coll, node, tomb, old, s.now⟩] }

/-! ### Tiles -/

/-- What a tile yields to a reader: nothing when it was programmed under another key (17 R444, R445). -/
def State.tileBytes (s : State) (t : Nat) : Bytes :=
  let v := flashGet s.flash t
  if v.epoch = s.obj 0x7010 0 v.part then v.bytes else []

/-- media_wear: the programs made, in 1/65,536 of 192 PB (06 R172). -/
def State.mediaWear (s : State) : Nat := s.obj 0x4000 0x0A * 65536 / 192000000000000000

/-- Count bytes programmed to NAND; ATTN 4 when media_wear reaches its threshold (06 R171, R172). -/
def State.countNand (s : State) (n : Nat) : State :=
  let t := s.count 0x4000 0x0A n
  let limit := s.obj 0x4000 0x0C
  if s.mediaWear < limit ∧ limit ≤ t.mediaWear then t.raiseEvent 4 else t

/-- Program a tile for a partition; the bytes programmed are counted (06 R171). -/
def State.program (s : State) (t part : Nat) (bs : Bytes) : State :=
  ({ s with flash := flashPut s.flash t ⟨bs, part, s.obj 0x7010 0 part⟩ }).countNand 4096


/-- Does the channel chip of every tile issue reads: not after 4 tk without a tick symbol (02 R30)? -/
def State.chipReads (s : State) (tiles : List Nat) : Bool :=
  tiles.all (fun t => match s.clk.chips[tileRod t / 8]? with
    | some c => !c.stopped
    | none => true)

/-- A rod judges a deadline against its chip's copy of the counter (02 R31); 0 stands for none. -/
def State.rodInTime (s : State) (tile : Nat) (deadline : Tick) : Bool :=
  decide (deadline = 0) || (match s.clk.chips[tileRod tile / 8]? with
    | some c => decide (c.count ≤ deadline)
    | none => true)

/-- Erase what one die holds of a range of tiles. -/
def State.eraseTiles (s : State) (die base n : Nat) : State :=
  { s with flash := s.flash.filter (fun e => !(decide (base ≤ e.1) && decide (e.1 < base + n) && decide (tileDie e.1 = die))) }

def State.isLost (s : State) (t : Nat) : Bool := s.units.lost.any (fun l => decide (l.1 = t) && !l.2)

/-- Is a tile reachable: on a rod in service and not lost? -/
def State.tileIn (s : State) (t : Nat) : Bool := s.rodIn (tileRod t) && !s.isLost t

/-- The tile a rod returns, when it passes the check (03 R55). -/
def State.checkedTile (s : State) (e : Expect) : Option Bytes :=
  let b := s.tileBytes e.tile
  if tileOk b e then some b else none

/-- Expected trailers of node, vector and payload tiles of a segment. -/
def nodeExpect (c : Coll) (d : DirEntry) (t : Nat) : Expect :=
  ⟨t, c.num, TileFmt.node, c.recsPerTile, d.segment, d.generation⟩
def vecExpect (c : Coll) (d : DirEntry) (t : Nat) : Expect :=
  ⟨t, c.num, TileFmt.vector, max 1 c.vecsPerTile, d.segment, d.generation⟩
def payExpect (c : Coll) (d : DirEntry) (t : Nat) : Expect :=
  ⟨t, c.num, TileFmt.payload, c.rowsPerTile, d.segment, d.generation⟩

/-- Format of remainder-journal tiles (06 R152). -/
abbrev TileFmt.journal : Nat := 0x06

def Coll.remSlot (c : Coll) (q : Nat) : Nat := if c.vecsPerTile = 0 then 0 else q % c.ringSize % c.vecsPerTile
def remExpect (c : Coll) (q t : Nat) : Expect :=
  ⟨t, c.num, TileFmt.journal, max 1 c.vecsPerTile, 0xFFFFFFFF, q / c.ringSize⟩

/-! ### The node cache (03 R72) -/

/-- Keep the first `n` lines that satisfy `p`, and every other line. -/
def keepFirst (p : CacheLine → Bool) : Nat → List CacheLine → List CacheLine
  | _, [] => []
  | n, l :: ls =>
    if p l then
      match n with
      | 0 => keepFirst p 0 ls
      | n + 1 => l :: keepFirst p n ls
    else l :: keepFirst p n ls

/-- Sets of the set-associative part: 16 ways of 4,096 bytes. A tile's set is its logical tile number modulo the number of sets
(DESIGN CHOICE, log entry 84). -/
def State.cacheSets (s : State) (c : Nat) : Nat := 16 * s.cobj c 0x16

/-- Look a tile up in both parts, the line most recently used first. -/
def State.cached (s : State) (c t : Nat) : Option CacheLine :=
  s.cache.find? (fun l => decide (l.coll = c) && decide (l.tile = t))

/-- A hit: counted, and the line becomes the most recently used. -/
def State.touchTile (s : State) (c : Nat) (l : CacheLine) : State :=
  let rest := s.cache.filter (fun x => !(decide (x.coll = c) && decide (x.tile = l.tile) && !x.pinned))
  let cache := if l.pinned then s.cache else l :: rest
  ({ s with cache := cache }).ccount c 0x17 1

/-- Fill a tile read from flash, evicting the least recently used line of its set. -/
def State.fillTile (s : State) (c t : Nat) (bs : Bytes) : State :=
  let n := s.cacheSets c
  if n = 0 || (s.cached c t).isSome then s
  else
    let same (l : CacheLine) : Bool := decide (l.coll = c) && !l.pinned && decide (l.tile % n = t % n)
    { s with cache := ⟨c, t, bs, false⟩ :: keepFirst same 15 s.cache }

/-- Drop the lines of a range of tiles (03 R73). -/
def State.dropLines (s : State) (c : Nat) (p : Nat → Bool) : State :=
  { s with cache := s.cache.filter (fun l => !(decide (l.coll = c) && p l.tile)) }

/-- Evict what a cache of its present size cannot hold (03 R77): lines find their sets anew under the new number of sets, and
of each set the 16 most recently used stay (DESIGN CHOICE, log entry 84). -/
def State.shrinkCache (s : State) (c : Nat) : State :=
  let n := s.cacheSets c
  let old := s.cache
  let fits (done : List CacheLine) (l : CacheLine) : Bool :=
    decide (n ≠ 0) && decide ((done.filter (fun x => decide (x.coll = c) && !x.pinned
      && decide (x.tile % n = l.tile % n))).length < 16)
  { s with cache := old.foldl (fun done l =>
      if decide (l.coll = c) && !l.pinned && !fits done l then done else done ++ [l]) [] }

/-- Load the node tiles of the entry set into the pinned area (03 R72). -/
def State.pinEntrySet (s : State) (c : Coll) : State :=
  let tiles := ((c.entrySet.filterMap (fun l => (dirNow c (nodeSegment l.node)).map
    (fun d => (nodePlace c d.bNode l.node).1))).eraseDups)
  { s with cache := s.cache.filter (fun l => !(decide (l.coll = c.num) && l.pinned))
      ++ tiles.map (fun t => ⟨c.num, t, s.tileBytes t, true⟩) }

/-! ### Filters (04 R97-R99) -/

/-- A used term. -/
structure FTerm where
  field : Nat
  op : Nat
  group : Nat
  operand : Nat
  deriving DecidableEq, Repr

/-- The used terms of a block. -/
def filterTerms (b : Bytes) : List FTerm :=
  ((List.range 16).map (fun i =>
    (⟨fieldAt b (16 * i) 1, fieldAt b (16 * i + 1) 1, fieldAt b (16 * i + 2) 1, fieldAt b (16 * i + 8) 8⟩ : FTerm))).filter
    (fun t => decide (t.op ≠ 0))

/-- Sign extension to an integer from a width. -/
def signed (w v : Nat) : Int := if bit v (w - 1) then (v : Int) - 2 ^ w else v

/-- Does a term name a field of a kind its operation allows, with an operand that fits (R98)? -/
def FTerm.ok (schema : List SchemaField) (t : FTerm) : Bool :=
  match schema[t.field]? with
  | none => false
  | some f =>
    decide (t.group < 8) && decide (t.op ≤ 9)
      && (match f.kind with
          | 1 => decide (t.op ≤ 6) && decide (t.operand < 2 ^ f.width)
          | 2 => decide (t.op ≤ 6) && decide ((t.operand : Int) =
              if bit t.operand (f.width - 1) then (t.operand % 2 ^ f.width : Nat) + (2 ^ 64 - 2 ^ f.width : Nat)
              else (t.operand % 2 ^ f.width : Nat))
          | 3 => (decide (t.op ≤ 2) || decide (7 ≤ t.op)) && decide (t.operand < 2 ^ f.width)
          | _ => false)

/-- Is a filter block well formed (R97, R98)? Reserved bytes are zero (00 R6). -/
def filterOk (schema : List SchemaField) (b : Bytes) : Bool :=
  (filterTerms b).all (fun t => t.ok schema) && (List.range 16).all (fun i => zeroAt b (16 * i + 3) 5)

/-- Is a term true of an attribute word (R97, R98)? -/
def FTerm.holds (schema : List SchemaField) (attrs : BitVec 128) (t : FTerm) : Bool :=
  match schema[t.field]? with
  | none => false
  | some f =>
    let v := attrs.toNat / 2 ^ f.low % 2 ^ f.width
    let m := t.operand
    let less (a b : Nat) : Bool :=
      if f.kind = 2 then decide (signed f.width (a % 2 ^ f.width) < signed f.width (b % 2 ^ f.width)) else decide (a < b)
    let eq : Bool := decide (v = m % 2 ^ f.width)
    match t.op with
    | 1 => eq
    | 2 => !eq
    | 3 => less v m
    | 4 => less v m || eq
    | 5 => less m v
    | 6 => less m v || eq
    | 7 => decide (v &&& m ≠ 0)
    | 8 => decide (v &&& m = m)
    | 9 => decide (v &&& m = 0)
    | _ => false

/-- Does an attribute word pass a block (R99)? -/
def filterPass (schema : List SchemaField) (b : Bytes) (attrs : BitVec 128) : Bool :=
  let ts := filterTerms b
  (List.range 8).all (fun g =>
    let us := ts.filter (fun t => decide (t.group = g))
    us.isEmpty || us.any (fun t => t.holds schema attrs))

/-- Does an item pass the filter of a search, or has the search none? -/
def Search.passes (x : Search) (c : Coll) (attrs : BitVec 128) : Bool :=
  !x.params.filter || filterPass c.schema x.filterBlock attrs

/-! ### Sketches and exact scores (03 R59; 05 R120) -/

/-- The sketch of a vector with the flags its dot products raise. -/
def sketchOf (c : Coll) (xs : List Val) : Flagged Nat :=
  (List.range c.sketchBits).foldl (fun (acc : Flagged Nat) j =>
    let row := (((c.proj.drop (j * c.dims)).take c.dims).map (fun p => decodeVal Fmt.bf16 p.toNat))
    let (v, f) := dotVal false row xs
    (acc.1 + b2n (lt32 (c.thresh.getD j zero32) v) * 2 ^ j, acc.2.or f)) (0, Flags.none)

/-- ‖x‖: the square root of x·x. -/
def normOf (xs : List Val) : Flagged F32 :=
  let (d, f) := dotVal false xs xs
  let (r, g) := sqrt32 false d
  (r, f.or g)

/-- The score of a stored vector for a query by the collection's metric (05 R120, R121). -/
def metricScore (metric : Nat) (q : List Val) (qn : F32) (x : List Val) (xn : F32) : Flagged F32 :=
  match metric with
  | 1 =>
    let (d, f) := dotVal false q x
    let (p, g) := mul32 false qn xn
    let (r, h) := div32 false d p
    (r, (f.or g).or h)
  | 2 =>
    let (ds, f) := mapFlagged (fun (p : Val × Val) => addVal false p.1 (negVal p.2)) (q.zip x)
    let (d, g) := dotVal false (ds.map val32) (ds.map val32)
    (if isNan d then nan32 else d ^^^ negZero32, f.or g)
  | _ => dotVal false q x

/-- The stored vector and norm of a slot. -/
def slotVals (c : Coll) (slot : Bytes) : List Val := rowVals c.format c.dims slot
def slotNorm (c : Coll) (slot : Bytes) : F32 := BitVec.ofNat 32 (fieldAt slot (c.dims * fmtBytes c.format) 4)

/-! ### Coverage (18 R459) -/

/-- Segments that have a directory entry. -/
def Coll.segmentsIn (c : Coll) : List Nat := (c.dir.map (fun d => d.segment)).eraseDups

/-- The graph nodes live as of tick `t`, each with the directory entry it is read through. -/
def State.liveNodes (s : State) (c : Coll) (t : Tick) : List (Nat × DirEntry) :=
  (c.segmentsIn.map (fun g =>
    match dirAt c g t with
    | none => []
    | some d => ((List.range d.issued).map (fun i => (g * 1048576 + i, d))).filter
        (fun p => !c.skipped.contains p.1 && !s.tombAt c t p.1))).flatten

/-- The remainder copies live as of tick `t`. -/
def Coll.liveRem (c : Coll) (t : Tick) : List RemItem := c.rem.filter (fun i => i.liveAt t)

/-- Tiles of a node's vector. -/
def vecTilesOf (c : Coll) (d : DirEntry) (n : Nat) : List Nat :=
  if c.vecsPerTile = 0 then (List.range c.tilesPerVec).map (fun q => vecPart c d.bVec n q) else [(vecPlace c d.bVec n).1]

/-- Are the record and the vector of a graph copy, or the vector of a remainder copy, within reach? -/
def State.nodeCovered (s : State) (c : Coll) (d : DirEntry) (n : Nat) : Bool :=
  s.tileIn (nodePlace c d.bNode n).1 && (vecTilesOf c d n).all (fun t => s.tileIn t)
def State.remCovered (s : State) (c : Coll) (i : RemItem) : Bool := (c.remTiles i.seq).all (fun t => s.tileIn t)

/-- Covered and live copies as of tick `t`. -/
def State.covered (s : State) (c : Coll) (t : Tick) : Nat × Nat :=
  let ns := s.liveNodes c t
  let rs := c.liveRem t
  ((ns.filter (fun p => s.nodeCovered c p.2 p.1)).length + (rs.filter (fun i => s.remCovered c i)).length,
    ns.length + rs.length)

/-- Rods out of service. -/
def State.rodsOutNow (s : State) : List Nat := (List.range 64).filter (fun r => !s.rodIn r)

/-- Coverage in 1/65,536: full when nothing is out or lost. -/
def State.coverage (s : State) (c : Coll) (t : Tick) : Nat :=
  if s.rodsOutNow.isEmpty && s.units.lost.isEmpty then 65536
  else
    let (n, v) := s.covered c t
    if v = 0 then 65536 else 65536 * n / v

end Sys2Proof.Machine
end

