-- ==== Sys2Proof/Machine/Rescore.lean ====
section
/-! DEFINITION. Exact rescoring, selection and the result buffer (05); FETCH (13 R329); the merge of partial lists
(05 R135; 13 R328). -/
namespace Sys2Proof.Machine

/-! ### The tally unit (05 R127-R135) -/

/-- Score order of R127: score descending, −0 equal to +0, then external id ascending. -/
def selBefore (a b : RankCand) : Bool :=
  let x := a.score.getD nan32
  let y := b.score.getD nan32
  lt32 y x || (eq32 x y && decide (a.ext.toNat ≤ b.ext.toNat))

/-- What the tally unit forms. -/
structure Tally where
  sel : List RankCand
  out : List RankCand
  nanEx : Nat
  dups : Nat
  ties : Nat
  m : F32
  sumSel : F32
  sumOut : F32
  kth : F32
  /-- Flags raised in forming it; the unit never sets FLUSHED, OVERFLOW or INVALID (R134; 08 R197). -/
  flags : Flags
  deriving DecidableEq, Repr

def RankCand.value (r : RankCand) : F32 := r.score.getD nan32

/-- Steps 3 and 4 and the sums (R127, R129, R130, R133, R134), from candidates left by steps 1 and 2. `extra` gives, from m,
the terms that a merge puts ahead of its left-out sum (R135). -/
def tallyValid (k : Nat) (cs : List RankCand) (nanEx dups : Nat) (extra : F32 → Flagged (List F32)) : Tally :=
  let cs := sortBy selBefore cs
  let sel := cs.take k
  let out := cs.drop k
  let m := match sel with
    | [] => nan32
    | r :: _ => r.value
  let kv := match sel.getLast? with
    | some r => r.value
    | none => nan32
  let terms (l : List RankCand) : Flagged (List F32) := mapFlagged (fun r => expTerm false r.value m) l
  let (ms, f1) := if sel.isEmpty then ([], Flags.none) else extra m
  let (s1, f2) := if sel.isEmpty then (zero32, Flags.none) else sumF32 false (terms sel).1
  let (s2, f3) := if sel.isEmpty then (zero32, Flags.none) else sumF32 false (ms ++ (terms out).1)
  let f := ((((terms sel).2.or (terms out).2).or f1).or f2).or f3
  { sel := sel, out := out, nanEx := nanEx, dups := dups
    ties := (out.filter (fun r => eq32 r.value kv)).length
    m := m, sumSel := s1, sumOut := s2
    kth := if sel.length = k then kv else nan32
    flags := { f with flushed := false, overflow := false, invalid := false } }

/-- Selection within one search: NaN exclusion, and of two copies the remainder's is kept (R131). -/
def tallySearch (k : Nat) (scored : List RankCand) : Tally :=
  let good := scored.filter (fun r => !isNan r.value)
  let kept := good.filter (fun r => r.fromRem || !good.any (fun o => o.fromRem && decide (o.ext = r.ext)))
  tallyValid k kept (scored.length - good.length) (good.length - kept.length) (fun _ => ([], Flags.none))

/-- Of copies in a merge the higher score is kept, at equal scores that of the list of lower index, held in `seq` (R131). -/
def mergeBeats (a b : RankCand) : Bool :=
  lt32 b.value a.value || (eq32 a.value b.value && decide (a.seq < b.seq))

/-! ### The result buffer (05 R137-R139) -/

/-- The header's fields. -/
structure Header where
  k : Nat
  e : Nat
  flags : Nat
  quals : Nat
  payload : Nat
  scored : Nat
  unscored : Nat
  coverage : Nat
  adm : Nat
  deadline : Nat
  /-- Bytes 64-95. -/
  stats : Bytes
  deriving DecidableEq, Repr

/-- The 128-byte header (R138). -/
def headerBytes (h : Header) (t : Tally) : Bytes :=
  leBytes 2 1 ++ leBytes 2 h.k ++ leBytes 2 t.sel.length ++ leBytes 1 h.e ++ leBytes 1 h.flags
    ++ leBytes 2 h.quals ++ leBytes 2 h.payload ++ leBytes 4 t.m.toNat ++ leBytes 4 t.sumSel.toNat
    ++ leBytes 4 t.sumOut.toNat ++ leBytes 4 t.nanEx ++ leBytes 4 t.ties ++ leBytes 4 t.dups
    ++ leBytes 4 h.scored ++ leBytes 4 h.unscored ++ leBytes 4 h.coverage ++ leBytes 8 h.adm ++ leBytes 8 h.deadline
    ++ fit 32 h.stats ++ zeros 32

/-- An entry, and an empty slot (R130, R139). -/
def entryBytes (e : Nat) (tied : Bool) (r : RankCand) : Bytes :=
  leBytes 8 r.ext.toNat ++ leBytes 4 r.value.toNat ++ leBytes 1 (b2n r.fromRem + 4 * b2n tied) ++ zeros 3
    ++ (if e = 24 then leBytes 5 (if r.fromRem then 0xFFFFFFFFFF else encodeLoc ⟨r.node, r.gen⟩) ++ zeros 3 else [])
def emptyEntry (e : Nat) : Bytes :=
  leBytes 8 0xFFFFFFFFFFFFFFFF ++ leBytes 4 nan32.toNat ++ zeros 4
    ++ (if e = 24 then leBytes 5 0xFFFFFFFFFF ++ zeros 3 else [])

/-- SHORT, TIE_OUT and what the unit raised (R128-R130; 07 R190). -/
def Tally.quals (t : Tally) (k : Nat) : Nat :=
  orQuals ((if t.sel.length < k then Qual.short else 0) + (if t.ties ≠ 0 then Qual.tieOut else 0)
    + (if t.nanEx ≠ 0 then Qual.nanSeen else 0)) t.flags.quals

/-- The k entries. -/
def Tally.entries (t : Tally) (k e : Nat) : Bytes :=
  let kv := match t.sel.getLast? with
    | some r => r.value
    | none => nan32
  (t.sel.map (fun r => entryBytes e (decide (t.ties ≠ 0) && eq32 r.value kv) r)).flatten
    ++ (List.replicate (k - t.sel.length) (emptyEntry e)).flatten

/-! ### The end of a search -/

/-- h90 of the controller (04 R114). -/
def h90 (hist : List Nat) : Nat :=
  (sortBy (fun a b => decide (a ≤ b)) hist).getD ((9 * hist.length + 9) / 10 - 1) 0

/-- A query of a batch that has ended: its outcome is kept, and what a restart of the command begins again from (13 R325). -/
def Search.ended (x : Search) (status quals : Nat) : Search :=
  { x with
    phase := .done status, resultQuals := quals, context := false, holdsModel := none, counted := true, open_ := []
    rank := [], rows := [], cands := [], visited := [], pool := [], result := [] }

/-- The status of query i of a batch. -/
def batchStatus (qs : List Search) (i : Nat) : Nat :=
  match qs.find? (fun x => decide (x.ix = i)) with
  | some x => (match x.phase with | .done v => v | _ => 0)
  | none => 0

/-- A batch whose queries have all ended writes its batch area and completes (13 R325). -/
def State.endBatch (s : State) (c : Cmd) : State :=
  let mine := s.searches.filter (fun x => decide (x.cid = c.cid))
  let n := c.field 60 2
  let st := batchStatus mine
  if mine.length = n && mine.all (fun x => match x.phase with | .done _ => true | _ => false) then
    let sts := (List.range n).map st
    let s := s.outWrite c c.outAddr (fit 128 (sts.map (fun v => BitVec.ofNat 8 v)))
    let mask := ((List.range n).filter (fun i => decide (st i ≠ 0))).foldl (fun (m i : Nat) => m + 2 ^ i) 0
    let quals := mine.foldl (fun q x => orQuals q x.resultQuals) 0
    let s := { s with searches := s.searches.filter (fun x => decide (x.cid ≠ c.cid)) }
    s.finish c.cid ⟨Status.success, quals, c.admTick.getD c.stamp, (sts.filter (fun v => decide (v = 0))).length,
      mask % 2 ^ 32, mask / 2 ^ 32⟩
  else s

/-- A search ends with a status and its completion words (04 R113, R114; 05 R140; 13 R325). -/
def State.endSearch (s : State) (x : Search) (status quals dw5 dw6 dw7 : Nat) : State :=
  let s := s.noteCompleted x
  let s := s.dropSearch x
  match s.cmd? x.cid with
  | none => s
  | some c =>
    if c.opcode = Op.searchBatch then
      State.endBatch { s with searches := s.searches ++ [x.ended status quals] } c
    else s.finish x.cid ⟨status, quals, x.admTick, dw5, dw6, dw7⟩

/-! ### Finishing a result (05 R136, R140) -/

/-- Set bits of one byte of a buffer. -/
def orByte (bs : Bytes) (off v : Nat) : Bytes := patch bs off [(bs.getD off 0) ||| BitVec.ofNat 8 v]

/-- Write the result buffer, count what the collection counts, and complete (R138, R140, R141). -/
def State.finishResult (s : State) (x : Search) : State :=
  match s.cmd? x.cid with
  | none => s
  | some c =>
    let p := x.params
    let missing := (x.rows.filter (fun r => r.missing)).length
    let e := if p.nodeIds then 24 else 16
    let quals := orQuals (orQuals x.resultQuals x.flags.quals)
      ((if x.partialCut then Qual.partial_ else 0) + (if x.cold then Qual.cold else 0)
        + (if x.coverage < 65536 then Qual.degraded else 0) + (if c.restarted then Qual.restarted else 0)
        + (if x.staleEdges ≠ 0 then Qual.staleEdge else 0))
    let buf := patch (patch x.result 8 (leBytes 2 quals)) 94 (leBytes 2 missing)
    let buf := x.rows.foldl (fun b r => if r.missing then orByte b (128 + e * r.slot + 12) 2 else b) buf
    let pb := fieldAt x.result 10 2
    let buf := x.rows.foldl (fun b r => patch b (128 + e * p.k + pb * r.slot) (fit pb r.row)) buf
    let s := s.outWrite c x.outAddr buf
    let short := decide (x.resultValid < p.k)
    let s := s.ccount x.coll 0x45 (b2n short)
    let s := s.ccount x.coll 0x46 (b2n (bit quals 2))
    let s := s.ccount x.coll 0x47 (fieldAt x.result 24 4)
    let s := s.ccount x.coll 0x48 (fieldAt x.result 32 4)
    let s := s.ccount x.coll 0x49 (b2n (decide (missing ≠ 0) || decide (fieldAt x.result 40 4 ≠ 0)))
    let s := if x.endReason = 2 then s.ccount x.coll 0x2C 1 else s
    s.endSearch x Status.success quals x.resultValid x.resultKth.toNat x.coverage

/-- Walk statistics and counts of the header, bytes 64-95 (04 R109; 05 R138). -/
def Search.stats (x : Search) : Bytes :=
  if x.isRerank then
    zeros 24 ++ leBytes 2 x.ids.length ++ leBytes 2 0 ++ leBytes 2 x.setSize ++ leBytes 2 0
  else
    leBytes 1 x.params.w ++ leBytes 1 x.endReason ++ leBytes 2 x.rounds ++ leBytes 2 x.expansions
      ++ leBytes 2 x.uncovered ++ leBytes 2 x.cacheHits ++ zeros 2 ++ leBytes 4 x.staleEdges ++ leBytes 4 x.capDrops
      ++ leBytes 4 x.scanned ++ leBytes 2 x.pool.length ++ leBytes 2 (if x.hitsUsed then x.hits.length else 0)
      ++ leBytes 2 x.setSize ++ leBytes 2 0

/-- The payload row of a remainder item (05 R136). -/
def Coll.remRow (c : Coll) (q : Nat) : Bytes :=
  match c.rem.find? (fun i => decide (i.seq = q)) with
  | some i => i.payload
  | none => []

/-- The payload row that a checked payload tile holds of a node. -/
def rowOf (c : Coll) (d : DirEntry) (n : Nat) (b : Bytes) : Option Bytes :=
  let (t, i) := payPlace c d.bPay n
  if tileOk b (payExpect c d t) then some (slice b (i * c.payload) c.payload) else none

/-- The read of the payload row of a selected candidate, after a look into the node cache (R136). A row out of reach is missing
(18 R464), as is every graph row once the rescoring cut has come (R124). -/
def State.rowRead (s : State) (x : Search) (c : Coll) (cut : Bool) (slot : Nat) (r : RankCand) : RowRead :=
  if r.fromRem then ⟨slot, 0, .arrived, c.remRow r.seq, false⟩
  else
    match dirAt c (nodeSegment r.node) x.admTick with
    | none => ⟨slot, r.node, .abandoned, [], true⟩
    | some d =>
      let t := (payPlace c d.bPay r.node).1
      if cut || !s.tileIn t then ⟨slot, r.node, .abandoned, [], true⟩
      else
        match s.cached c.num t with
        | some l => ⟨slot, r.node, .returned 0 (rowOf c d r.node l.bytes), [], false⟩
        | none => ⟨slot, r.node, .queued, [], false⟩

/-- Is the row of a slot settled? -/
def RowRead.settled (w : RowRead) : Bool := w.missing || decide (w.read = .arrived)

/-- Form the result (R127-R139): header, entries and, where rows are asked for, the reads still needed for them. -/
def State.select (s : State) (x : Search) (c : Coll) (cut : Bool) : State :=
  let p := x.params
  let scored := x.rank.filter (fun r => r.score.isSome)
  let t := tallySearch p.k scored
  let e := if p.nodeIds then 24 else 16
  let pb := if p.payloads then c.payload else 0
  let starved := p.filter && decide (x.capDrops ≠ 0) && decide (x.pool.length < p.m)
  let quals := orQuals (t.quals p.k) (if starved then Qual.filterStarved else 0)
  let h : Header :=
    { k := p.k, e := e, flags := b2n p.nodeIds + 2 * b2n p.payloads + 4 * b2n x.hitsUsed, quals := quals, payload := pb
      scored := scored.length, unscored := x.rank.length - scored.length, coverage := x.coverage
      adm := x.admTick, deadline := x.deadline, stats := x.stats }
  let rows : List RowRead := if p.payloads then t.sel.zipIdx.map (fun q => s.rowRead x c cut q.2 q.1) else []
  let x' := { x with
    phase := if rows.all RowRead.settled then .writing s.now else .gathering
    rows := rows, nextRound := s.now, result := headerBytes h t ++ t.entries p.k e ++ zeros (p.k * pb)
    resultQuals := quals, resultValid := t.sel.length, resultKth := t.kth }
  let s := (s.dropRescore x).modSearch x.cid x.ix (fun _ => x')
  if rows.isEmpty then s.finishResult x' else s

/-! ### Reading vectors (05 R123) -/

/-- The vector slot of a graph candidate, read through checked tiles; `bytes` gives the bytes of a tile. -/
def slotOf (c : Coll) (d : DirEntry) (n : Nat) (bytes : Nat → Bytes) : Option Bytes :=
  let ts := vecTilesOf c d n
  if ts.all (fun t => tileOk (bytes t) (vecExpect c d t)) then
    if c.vecsPerTile = 0 then some (((ts.map (fun t => (bytes t).take 4064)).flatten).take c.slotLen)
    else some (slice (bytes (ts.headD 0)) ((vecPlace c d.bVec n).2 * c.slotLen) c.slotLen)
  else none

/-- The vector slot of a remainder item from its journal tiles (06 R152, R154). -/
def State.journalSlot (s : State) (c : Coll) (q : Nat) : Option Bytes :=
  let ts := c.remTiles q
  if ts.all (fun t => tileOk (s.tileBytes t) (remExpect c q t)) then
    if c.vecsPerTile = 0 then some (((ts.map (fun t => (s.tileBytes t).take 4064)).flatten).take c.slotLen)
    else some (slice (s.tileBytes (ts.headD 0)) (c.remSlot q * c.slotLen) c.slotLen)
  else none

/-- What the cache or the rods hold of a tile. -/
def State.cachedOrFlash (s : State) (c t : Nat) : Bytes :=
  match s.cached c t with
  | some l => l.bytes
  | none => s.tileBytes t

/-- The vector slot of a rescoring candidate as it would be read now. -/
def State.candSlot (s : State) (c : Coll) (t : Tick) (r : RankCand) : Option Bytes :=
  if r.fromRem then
    match c.rem.find? (fun i => decide (i.seq = r.seq)) with
    | some i => if i.programmed then s.journalSlot c r.seq else some i.slot
    | none => none
  else
    match dirAt c (nodeSegment r.node) t with
    | some d => slotOf c d r.node (s.cachedOrFlash c.num)
    | none => none

/-- The tiles a candidate's read takes from the rods, and those of them that may be cached. -/
def candTiles (c : Coll) (t : Tick) (r : RankCand) : List Nat :=
  if r.fromRem then c.remTiles r.seq
  else
    match dirAt c (nodeSegment r.node) t with
    | some d => vecTilesOf c d r.node
    | none => []

/-- Is the vector of a remainder candidate served from the write buffer (06 R153)? -/
def Coll.inBuffer (c : Coll) (r : RankCand) : Bool :=
  r.fromRem && c.rem.any (fun i => decide (i.seq = r.seq) && !i.programmed)

/-- The payload tile that a rescoring program is to have of a candidate beside its vector (R126). -/
def State.batchTile (s : State) (x : Search) (c : Coll) (r : RankCand) : List Nat :=
  if x.params.mode ≠ 2 ∨ c.payload = 0 ∨ r.fromRem = true then []
  else
    match dirAt c (nodeSegment r.node) x.admTick with
    | some d => [(payPlace c d.bPay r.node).1].filter (fun t => s.tileIn t)
    | none => []

/-- What a candidate's read yields: its vector slot, or none when a tile it takes fails the check (R123; 03 R55). -/
def State.readSlot (s : State) (x : Search) (c : Coll) (r : RankCand) : Option Bytes :=
  let good := match dirAt c (nodeSegment r.node) x.admTick with
    | some d => (s.batchTile x c r).all (fun t => tileOk (s.cachedOrFlash c.num t) (payExpect c d t))
    | none => true
  if good then s.candSlot c x.admTick r else none

/-- Count a look into the node cache that hits (03 R72; 11 R283). -/
def State.hitTile (s : State) (cid c t : Nat) : State :=
  match s.cached c t with
  | some l => (s.touchTile c l).useCmd cid 2 1
  | none => s

/-- Look a candidate's tiles up (R123): a vector in the write buffer, or whose tiles are all in the node cache, is had at once;
the tiles that miss are to be asked of the rods. -/
def State.lookVector (s : State) (x : Search) (c : Coll) (r : RankCand) : RankCand × State :=
  if c.inBuffer r then ({ r with read := .returned 0 (s.candSlot c x.admTick r) }, s)
  else
    let ts := candTiles c x.admTick r ++ s.batchTile x c r
    let todo := if r.fromRem then ts else ts.filter (fun n => (s.cached c.num n).isNone)
    let read : ReadStage := if todo.isEmpty then .returned 0 (s.readSlot x c r) else .queued
    ({ r with todo := todo, read := read }, if r.fromRem then s else ts.foldl (fun s n => s.hitTile x.cid c.num n) s)

def State.lookVectors (x : Search) (c : Coll) : State → List RankCand → List RankCand × State
  | s, [] => ([], s)
  | s, r :: rs =>
    let (r', s) := s.lookVector x c r
    let (rs', s) := State.lookVectors x c s rs
    (r' :: rs', s)

/-- Is a candidate within reach (18 R461, R464)? -/
def State.candIn (s : State) (c : Coll) (t : Tick) (r : RankCand) : Bool :=
  c.inBuffer r || (candTiles c t r).all (fun n => s.tileIn n)

/-- Rerank-set order (R118): distance, graph before remainder, node id or sequence number. -/
def rankBefore (a b : RankCand) : Bool :=
  decide (a.dist < b.dist) || (decide (a.dist = b.dist)
    && (if a.fromRem = b.fromRem then (if a.fromRem then decide (a.seq ≤ b.seq) else decide (a.node ≤ b.node)) else !a.fromRem))

def PoolEntry.cand (e : PoolEntry) : RankCand := ⟨false, e.node, e.gen, 0, e.ext, e.dist, .queued, none, [], []⟩
def RemHit.cand (h : RemHit) : RankCand := ⟨true, 0, 0, h.seq, h.ext, h.dist, .queued, none, [], []⟩

/-- The rerank set (R118; 13 R327: listed order, the graph copy of an id first). -/
def Search.rankSet (x : Search) (useHits : Bool) : List RankCand :=
  if x.isRerank then
    (x.ids.map (fun i => (x.pool.filter (fun e => decide (e.ext = i))).map PoolEntry.cand
      ++ (x.hits.filter (fun h => decide (h.ext = i))).map RemHit.cand)).flatten
  else
    (sortBy rankBefore (x.pool.map PoolEntry.cand ++ (if useHits then x.hits.map RemHit.cand else []))).take x.params.m

/-! ### Rescoring batches (05 R126) -/

/-- The address at which the device places the input of a sequence entry, and at which the program leaves its output: the
manual fixes neither (log entry 21). -/
def seqInAddr (entry : Nat) : Nat := Config.seqInput entry
def seqOutAddr (entry : Nat) : Nat := Config.seqOutput entry

/-- The lowest free entry of the active sequence table (09 R234). -/
def State.freeEntry? (s : State) : Option Nat :=
  (List.range 4096).find? (fun e => !s.tensor.seqs.any (fun q => decide (q.entry = e)))

/-- Reservation of a sequence (09 R235). -/
def Model.reservation (m : Model) (tokens : Nat) : Nat :=
  roundUp (m.pkg.actFixed + m.pkg.actPerToken * tokens) 65536

/-- Add a waiting sequence for a command. -/
def State.addSeq (s : State) (entry : Nat) (c : Cmd) (m : Model) (tokens : Nat) (batch : Option (Nat × Nat))
    (holding : Bool) (input : Bytes) : State :=
  let q : Seqn :=
    { entry := entry, state := .waiting, part := c.part, handle := m.handle, tokens := tokens
      reservation := m.reservation tokens, joinTick := 0, sq := c.sq, cid := c.cid, cls := c.cls
      fetchTick := c.fetchTick, fault := none, batch := batch, holding := holding, mark := .live, input := input
      outBytes := 0, steps := 0 }
  { s with tensor := { s.tensor with seqs := s.tensor.seqs ++ [q] } }

/-- What a rescoring batch receives for one candidate: vector, payload row, sketch distance (R126). The row of a payload tile
out of reach is zeros. The bytes' layout is the model's (DESIGN CHOICE, log entry 70). -/
def State.batchItem (s : State) (c : Coll) (x : Search) (r : RankCand) : Bytes :=
  let row := if r.fromRem then c.remRow r.seq
    else
      match dirAt c (nodeSegment r.node) x.admTick with
      | some d => ((s.batchTile x c r).map (fun t => (rowOf c d r.node (s.cachedOrFlash c.num t)).getD [])).flatten
      | none => []
  fit c.slotLen ((s.candSlot c x.admTick r).getD []) ++ fit c.payload row ++ leBytes 4 r.dist

/-- Has a candidate its score, or has it been left unscored? -/
def RankCand.settled (r : RankCand) : Bool := r.score.isSome || decide (r.read = .abandoned)

/-- Batch b of a search, and whether it has gone to the frames. -/
def Search.batch (x : Search) (b : Nat) : List RankCand := (x.rank.drop (64 * b)).take 64
def State.batchGone (s : State) (x : Search) (b : Nat) : Bool :=
  (x.batch b).any RankCand.settled || s.tensor.seqs.any (fun q =>
    decide (q.cid = x.cid) && decide (q.batch = some (x.ix, 64 * b)) && decide (q.mark ≠ .dead))

/-- Hand a batch over once its vectors are all there, every batch before it has gone and an entry is free: the query, the tokens,
then its candidates (DESIGN CHOICE of the layout, log entry 70). -/
def State.startBatch (x : Search) (c : Coll) (cmd : Cmd) (m : Model) (s : State) (b : Nat) : State :=
  let rs := x.batch b
  if s.batchGone x b || rs.any (fun r => decide (r.read ≠ .arrived))
      || !(List.range b).all (fun a => s.batchGone x a) then s
  else
    match s.freeEntry? with
    | none => s
    | some e =>
      let inp := x.query ++ x.tokens ++ ((rs.map (fun r => s.batchItem c x r)).flatten)
      s.addSeq e cmd m rs.length (some (x.ix, 64 * b)) false inp

/-- The status of a sequence that can never join: its reservation exceeds the whole quota, or its tokens max_tokens (09 R235). -/
def State.neverJoins (s : State) (m : Model) (part tokens : Nat) : Option Nat :=
  if m.pkg.maxTokens < tokens then some Status.invalidField
  else if s.quotaHbm part < m.reservation tokens then some Status.quotaExceeded
  else none

/-- Hand the batches of a search to the frames in rerank-set order, one sequence each (R126). A search whose batch can never join
ends with the status of such a sequence (09 R235; DEDUCED, log entry 70). -/
def State.startBatches (s : State) (x : Search) (c : Coll) : State :=
  match s.cmd? x.cid, s.model? x.params.model with
  | some cmd, some m =>
    match s.neverJoins m cmd.part (min 64 x.rank.length) with
    | some st => s.endSearch x st 0 0 0 0
    | none => (List.range (ceilDiv x.rank.length 64)).foldl (State.startBatch x c cmd m) s
  | _, _ => s

/-! ### Scoring -/

/-- The query as exact values (13 R323). -/
def Search.qVals (x : Search) (c : Coll) : List Val := rowVals x.qFormat c.dims x.query

/-- Late interaction (R125): the greatest dot product of each query token over the item tokens, summed. -/
def lateScore (qs ts : List (List Val)) : Flagged F32 :=
  let (ms, f) := mapFlagged (fun q =>
    let (ds, g) := mapFlagged (fun t => dotVal false q t) ts
    let (m, _) := maxList ds
    (m, g)) qs
  let (v, h) := sumF32 false ms
  (v, f.or h)

/-- Cut a row into vectors of e elements. -/
def chunks (e : Nat) : Nat → List Val → List (List Val)
  | 0, _ => []
  | n + 1, xs => xs.take e :: chunks e n (xs.drop e)

/-- The exact score of a vector slot in modes 0 and 1 (R120, R125). -/
def Search.scoreSlot (x : Search) (c : Coll) (slot : Bytes) : Flagged F32 :=
  if x.params.mode = 1 then
    let e := max 1 x.params.e
    lateScore (chunks e x.params.tq (rowVals x.qFormat (x.params.tq * e) x.tokens))
      (chunks e (c.dims / e) (slotVals c slot))
  else metricScore c.metric (x.qVals c) x.qNorm (slotVals c slot) (slotNorm c slot)

/-- Score a candidate whose read has arrived. -/
def State.scoreOne (s : State) (x : Search) (c : Coll) (r : RankCand) : Flagged RankCand :=
  match s.readSlot x c r with
  | some b => if r.score.isNone && decide (r.read = .arrived) then
      let (v, f) := x.scoreSlot c b
      ({ r with score := some v }, f)
    else (r, Flags.none)
  | none => (r, Flags.none)

/-- The firmware's frame program scores the candidates that are here, once it has its power (R125). -/
def State.scoreArrived (s : State) (x : Search) (c : Coll) : Search × State :=
  match s.grantOf (.rescore x.cid x.ix) with
  | some g =>
    if g.granted then
      let (rank, f) := mapFlagged (s.scoreOne x c) x.rank
      let n := (rank.filter (fun r => r.score.isSome)).length - (x.rank.filter (fun r => r.score.isSome)).length
      let x' := { x with rank := rank, flags := x.flags.or f }
      (x', (s.modSearch x.cid x.ix (fun _ => x')).useCmd x.cid 3 n)
    else (x, s)
  | none => (x, s)

/-- Once every candidate is scored, select (R127). -/
def State.maybeSelect (s : State) (cid ix : Nat) : State :=
  match s.search? cid ix with
  | none => s
  | some x =>
    match s.coll? x.coll with
    | none => s
    | some c =>
      if x.phase ≠ .rescoring then s
      else
        let (x, s) := if x.params.mode = 1 then s.scoreArrived x c else (x, s)
        if x.rank.all RankCand.settled then s.select x c false
        else if x.params.mode = 2 then s.startBatches x c
        else s

/-- The walk has ended: form the rerank set and look its vectors up (R108, R118, R123). Candidates out of reach take no
part (18 R464). -/
def State.startRescore (s : State) (x : Search) (useHits : Bool) : State :=
  match s.coll? x.coll with
  | none => s
  | some c =>
    let set := x.rankSet useHits
    let near := set.filter (fun r => s.candIn c x.admTick r)
    let (rank, s) := State.lookVectors x c s near
    let x' := { x with
      phase := .rescoring, rank := rank, setSize := set.length, nextRound := s.now
      hitsUsed := useHits && decide (x.need = .complete) && !x.isRerank }
    let s := if x.params.mode = 1 && !rank.isEmpty then s.askRescore x else s
    (s.modSearch x.cid x.ix (fun _ => x')).maybeSelect x.cid x.ix

/-- Set the stage of a read of a search. -/
def Search.setRead (x : Search) (slot : Nat) (r : ReadStage) : Search :=
  if slot < 4096 then
    { x with rank := x.rank.zipIdx.map (fun p => if p.2 = slot then { p.1 with read := r } else p.1) }
  else { x with rows := mapWhere (fun w => decide (rowSlot w.slot = slot)) (fun w => { w with read := r }) x.rows }

/-- A tile failed its check for a command: counted, and an internal fault (03 R55, R75; 18 R452). -/
def State.checkFault (s : State) (cid : Nat) : State := (s.count 0x4000 5 1).faultCmd cid true

/-- The rods of some tiles read them for a request: their chips get tick symbols, and its deadline has not passed by their
counters (02 R30, R31). -/
def State.rodsRead (s : State) (tiles : List Nat) (deadline : Tick) : Bool :=
  s.chipReads tiles && tiles.all (fun t => s.rodInTime t deadline)

/-- Count the tiles that rods have read for a command (03 R75; 11 R283). -/
def State.countReads (s : State) (cid coll n : Nat) : State := (s.ccount coll 0x18 n).useCmd cid 2 n

/-- The rods return the whole tiles of an issued read, checked (R123): tiles of vectors fill the node cache (03 R72). -/
def execVectorRead (cid ix slot : Nat) (s : State) : Ans :=
  match s.search? cid ix with
  | none => .next s
  | some x =>
    match s.coll? x.coll with
    | none => .next s
    | some c =>
      if slot < 4096 then
        match x.rank[slot]? with
        | some r =>
          match r.read with
          | .sent d =>
            if s.rodsRead r.asked d then
              let b := s.readSlot x c r
              let s := s.countReads cid c.num r.asked.length
              let keep := if r.fromRem || b.isNone then [] else r.asked.filter (fun t => (candTiles c x.admTick r).contains t)
              let s := keep.foldl (fun s t => s.fillTile c.num t (s.tileBytes t)) s
              .next (s.modSearch cid ix (fun x => x.setRead slot (.returned d b)))
            else .next s
          | _ => .next s
        | none => .next s
      else
        match x.rows.find? (fun w => decide (rowSlot w.slot = slot)) with
        | some w =>
          match w.read, dirAt c (nodeSegment w.node) x.admTick with
          | .sent d, some e =>
            let t := (payPlace c e.bPay w.node).1
            if s.rodsRead [t] d then
              let b := rowOf c e w.node (s.tileBytes t)
              .next ((s.countReads cid c.num 1).modSearch cid ix (fun x => x.setRead slot (.returned d b)))
            else .next s
          | _, _ => .next s
        | none => .next s

/-- A reply of a read that nobody waits for any more is discarded and counted (11 R281). -/
def State.staleReply (s : State) (cid ix node : Nat) : State :=
  if s.tags.any (fun t => decide (t.cid = cid) && decide (t.ix = ix) && decide (t.node = node)) then
    ({ s with tags := s.tags.filter (fun t => !(decide (t.cid = cid) && decide (t.ix = ix) && decide (t.node = node))) }).count
      0x2100 0x09 1
  else s

/-- A reply still within its deadline, or one that needed no rod (02 R31). -/
def State.inTime (s : State) (d : Tick) : Bool := decide (d = 0) || decide (s.now ≤ d)

/-- A vector is scored, or a payload row is put into the result, once its tile is here (R120-R126, R136). -/
def execVectorReply (cid ix slot : Nat) (s : State) : Ans :=
  match s.search? cid ix with
  | none => .next (s.staleReply cid ix (vecKey slot))
  | some x =>
    match s.coll? x.coll with
    | none => .next s
    | some c =>
      let read : Option ReadStage :=
        if slot < 4096 then (x.rank[slot]?).map (fun r => r.read)
        else (x.rows.find? (fun w => decide (rowSlot w.slot = slot))).map (fun w => w.read)
      match read with
      | some (.returned d (some b)) =>
        if !s.inTime d || decide (x.deadline ≤ s.now) then .next s
        else if 4096 ≤ slot then
          let got (w : RowRead) : RowRead := { w with read := .arrived, row := b }
          let rows := mapWhere (fun w => decide (rowSlot w.slot = slot)) got x.rows
          .next (s.modSearch cid ix (fun x => { x with
            rows := rows, phase := if rows.all RowRead.settled then .writing s.now else .gathering }))
        else if x.params.mode ≠ 0 then
          .next ((s.modSearch cid ix (fun x => x.setRead slot .arrived)).maybeSelect cid ix)
        else
          let (v, f) := x.scoreSlot c b
          let x' := { (x.setRead slot .arrived) with flags := x.flags.or f }
          let x' := { x' with rank := x'.rank.zipIdx.map (fun p => if p.2 = slot then { p.1 with score := some v } else p.1) }
          .next (((s.modSearch cid ix (fun _ => x')).useCmd cid 3 1).maybeSelect cid ix)
      | some (.returned d none) => if s.inTime d && decide (s.now < x.deadline) then .next (s.checkFault cid) else .next s
      | _ => .next (s.staleReply cid ix (vecKey slot))

/-- The rescoring cut of a search at its deadline tick (R124, R136). -/
def State.rescoreCut (s : State) (x : Search) : State :=
  match s.coll? x.coll with
  | none => s
  | some c =>
    let s := { s with tags := s.tags ++ s.readTags x }
    let s := s.dropSeqs x.cid (fun q => match q.batch with | some (i, _) => decide (i = x.ix) | none => false)
    let drop (r : ReadStage) : ReadStage := if r = .arrived then .arrived else .abandoned
    let x' := { x with
      partialCut := true
      rank := x.rank.map (fun r => { r with read := drop r.read })
      rows := x.rows.map (fun w => { w with read := drop w.read, missing := w.missing || decide (w.read ≠ .arrived) }) }
    let s := s.modSearch x.cid x.ix (fun _ => x')
    if x.phase = .gathering then s.modSearch x.cid x.ix (fun _ => { x' with phase := .writing s.now }) else s.select x' c true

/-- At the start of the deadline tick, reads not returned are abandoned and unscored candidates left out (R124). -/
def execRescoringCut (cid ix : Nat) (s : State) : Ans :=
  match s.search? cid ix with
  | none => .next s
  | some x =>
    if (x.phase = .rescoring || x.phase = .gathering) && decide (x.deadline ≤ s.now) then .next (s.rescoreCut x)
    else .next s

/-! ### FETCH (13 R329) -/

/-- The map as lookups take it: a bucket on a rod out of service counts as full and holding nothing (06 R169). -/
def State.mapView (s : State) (c : Coll) : Coll :=
  if s.rodsOutNow.isEmpty then c
  else { c with retiredBuckets := c.retiredBuckets
    ++ (List.range c.mapTiles).filter (fun b => !s.rodIn ((c.mapBase + b) % 64)) }

/-- The graph copy of an id live at tick `t`, with its directory entry (03 R70; 06 R143). -/
def State.graphCopy (s : State) (c : Coll) (t : Tick) (ext : BitVec 64) : Option (Nat × DirEntry) :=
  match mapLookup (s.mapView c) ext with
  | none => none
  | some e =>
    match dirAt c (nodeSegment e.node) t with
    | some d => if decide (nodeIndex e.node < d.issued) && !s.tombAt c t e.node then some (e.node, d) else none
    | none => none

/-- The remainder copy of an id live at tick `t`. -/
def Coll.remCopy (c : Coll) (t : Tick) (ext : BitVec 64) : Option RemItem :=
  c.rem.find? (fun i => decide (i.ext = ext) && i.liveAt t)

/-- What FETCH reads of one id. -/
structure Fetched where
  state : Nat
  loc : Nat
  attrs : Nat
  vec : Bytes
  row : Bytes
  deriving DecidableEq, Repr

/-- The tiles a FETCH reads for one id, and whether the node cache may hold them (03 R72): node and vector tiles may. -/
def State.fetchTiles (s : State) (c : Coll) (t : Tick) (what : Nat) (ext : BitVec 64) : List (Nat × Bool) :=
  match c.remCopy t ext with
  | some i => if s.remCovered c i && i.programmed && bit what 0 then (c.remTiles i.seq).map (fun n => (n, false)) else []
  | none =>
    match s.graphCopy c t ext with
    | none => []
    | some (n, d) =>
      if s.nodeCovered c d n then
        let pt := (payPlace c d.bPay n).1
        ((nodePlace c d.bNode n).1, true) :: ((if bit what 0 then (vecTilesOf c d n).map (fun v => (v, true)) else [])
          ++ (if bit what 1 && decide (c.payload ≠ 0) && s.tileIn pt then [(pt, false)] else []))
      else []

/-- One record of FETCH: none where a tile fails its check. The row of a lost payload tile is zeros (18 R464). -/
def State.fetchOne (s : State) (c : Coll) (t : Tick) (what : Nat) (ext : BitVec 64) : Option Fetched :=
  match c.remCopy t ext with
  | some i =>
    if s.remCovered c i then
      (if i.programmed && bit what 0 then s.journalSlot c i.seq else some i.slot).map
        (fun v => ⟨2, 0xFFFFFFFFFF, i.attrs.toNat, v, i.payload⟩)
    else some ⟨3, 0xFFFFFFFFFF, 0, [], []⟩
  | none =>
    match s.graphCopy c t ext with
    | none => some ⟨0, 0xFFFFFFFFFF, 0, [], []⟩
    | some (n, d) =>
      if s.nodeCovered c d n then
        let (nt, ix) := nodePlace c d.bNode n
        let pt := (payPlace c d.bPay n).1
        let nb := s.cachedOrFlash c.num nt
        let r := decodeRecord c nb ix
        let vec := if bit what 0 then slotOf c d n (s.cachedOrFlash c.num) else some []
        let pay := if bit what 1 && decide (c.payload ≠ 0) && s.tileIn pt then rowOf c d n (s.tileBytes pt)
          else some (zeros c.payload)
        if tileOk nb (nodeExpect c d nt) && decide (r.loc.node = n) && r.valid then
          match vec, pay with
          | some v, some p => some ⟨1, encodeLoc r.loc, r.attrs.toNat, v, p⟩
          | _, _ => none
        else none
      else some ⟨3, 0xFFFFFFFFFF, 0, [], []⟩

/-- A record of FETCH. -/
def fetchRecord (c : Coll) (what : Nat) (ext : BitVec 64) (f : Fetched) : Bytes :=
  leBytes 8 ext.toNat ++ leBytes 1 f.state ++ zeros 7 ++ leBytes 5 f.loc ++ zeros 11
    ++ leBytes 16 (if bit what 2 then f.attrs else 0)
    ++ (if bit what 0 then fit (roundUp c.slotLen 8) f.vec else [])
    ++ (if bit what 1 then fit c.payload f.row else [])

/-- The ids a FETCH lists. -/
def Cmd.fetchIds (c : Cmd) : List (BitVec 64) :=
  let n := c.field 60 2
  (List.range n).map (fun i => BitVec.ofNat 64 (fieldAt (fit (8 * n) c.inbuf) (8 * i) 8))

/-- FETCH begins at its admission: it looks its tiles up in the node cache, and those that miss are to be asked of the rods. -/
def State.beginFetch (s : State) (cmd : Cmd) (c : Coll) : State :=
  let adm := cmd.admTick.getD s.now
  let ts := ((cmd.fetchIds.map (fun i => s.fetchTiles c adm (cmd.field 32 1) i)).flatten).eraseDups
  let (hits, misses) := ts.partition (fun t => t.2 && (s.cached c.num t.1).isSome)
  let s := hits.foldl (fun s t => s.hitTile cmd.cid c.num t.1) s
  s.modCmd cmd.cid (fun k => { k with
    inbuf := cmd.inbuf, admTick := some adm, askTick := s.now, todo := some (misses.map (fun t => t.1)), asked := [] })

/-- The reads of a FETCH are back: counted and cached, and it completes with one record per id, or meets an internal fault where
a tile failed its check. -/
def State.endFetch (s : State) (cmd : Cmd) (c : Coll) (adm : Tick) : State :=
  let what := cmd.field 32 1
  let fs := cmd.fetchIds.map (fun i => (i, s.fetchOne c adm what i))
  let keep := (((cmd.fetchIds.map (fun i => s.fetchTiles c adm what i)).flatten).filter (fun t => t.2)).map (fun t => t.1)
  let s := s.countReads cmd.cid c.num cmd.asked.length
  let s := s.modCmd cmd.cid (fun k => { k with asked := [] })
  if fs.any (fun p => p.2.isNone) then s.checkFault cmd.cid
  else
    let s := (cmd.asked.filter (fun t => keep.contains t)).foldl (fun s t => s.fillTile c.num t (s.tileBytes t)) s
    let fs := fs.filterMap (fun p => p.2.map (fun f => (p.1, f)))
    let s := s.outWrite cmd cmd.outAddr ((fs.map (fun p => fetchRecord c what p.1 p.2)).flatten)
    let (cov, live) := if s.rodsOutNow.isEmpty && s.units.lost.isEmpty then (0, 0) else s.covered c s.now
    let degraded := fs.any (fun p => decide (p.2.state = 3))
      || (fs.any (fun p => decide (p.2.state = 0)) && decide (cov < live))
    s.finish cmd.cid ⟨Status.success, if degraded then Qual.degraded else 0, adm,
      (fs.filter (fun p => decide (p.2.state = 1) || decide (p.2.state = 2))).length, 0, 0⟩

/-- Has a read of a FETCH passed its deadline, which is that of a search's reads (DEDUCED, log entry 71)? -/
def State.fetchLate (s : State) (c : Cmd) : Bool :=
  !c.asked.isEmpty && decide (c.askTick + s.cobj c.collByte 0x25 < s.now)

/-- FETCH reads stored items as of its admission tick and writes one record per id. It is admitted in a tick after its fetch, and
keeps the admission tick of its first attempt. Its first row looks its tiles up; a row once every tile it asked for is back
completes it. -/
def execFetch (cid : Nat) (inbuf : Bytes) (s : State) : Ans :=
  match s.ready? cid Op.fetch with
  | none => .next s
  | some cmd =>
    if s.now ≤ cmd.fetchTick then .next s
    else
      let cmd := if cmd.todo.isNone then { cmd with inbuf := inbuf } else cmd
      match s.coll? cmd.collByte with
      | none => .next (s.fail cid Status.invalidCollection)
      | some c =>
        if c.state ≠ 2 then .next (s.fail cid Status.invalidCollection)
        else if c.repair ≠ 0 then .next (s.fail cid Status.notReady)
        else
          let s := if cmd.todo.isNone then s.beginFetch cmd c else s
          match s.cmd? cid with
          | none => .next s
          | some cmd =>
            if cmd.todo = some [] && s.rodsRead cmd.asked (if cmd.asked.isEmpty then 0 else cmd.askTick + s.cobj c.num 0x25) then
              .next (s.endFetch cmd c (cmd.admTick.getD s.now))
            else .next s

/-! ### RERANK form 1 (05 R135; 13 R328) -/

/-- A partial list as given. -/
structure PartList where
  k : Nat
  valid : Nat
  e : Nat
  flags : Nat
  quals : Nat
  m : F32
  out : F32
  dups : Nat
  coverage : Nat
  entries : List RankCand
  deriving DecidableEq, Repr

/-- Read list j of the input. -/
def partList (inp : Bytes) (j : Nat) : PartList :=
  let off := fieldAt inp (8 * j) 4
  let b := slice inp off (fieldAt inp (8 * j + 4) 4)
  let e := fieldAt b 6 1
  let ent (i : Nat) : RankCand :=
    let o := 128 + i * e
    let l := decodeLoc (fieldAt b (o + 16) 5)
    ⟨bit (fieldAt b (o + 12) 1) 0, l.node, l.gen, j, BitVec.ofNat 64 (fieldAt b o 8), 0, .arrived,
      some (BitVec.ofNat 32 (fieldAt b (o + 8) 4)), [], []⟩
  { k := fieldAt b 2 2, valid := fieldAt b 4 2, e := e, flags := fieldAt b 7 1, quals := fieldAt b 8 2 % 2 ^ 15
    m := BitVec.ofNat 32 (fieldAt b 12 4), out := BitVec.ofNat 32 (fieldAt b 20 4), dups := fieldAt b 32 4
    coverage := fieldAt b 44 4, entries := (List.range (min (fieldAt b 4 2) 1024)).map ent }

/-- Are the reserved fields of a partial list zero, in its header and its k entries (R138, R139; 00 R6)? -/
def partReservedOk (b : Bytes) (k e : Nat) : Bool :=
  decide (fieldAt b 7 1 < 8) && decide (fieldAt b 74 2 = 0) && decide (leNat (slice b 96 32) = 0)
    && (List.range k).all (fun i =>
      let o := 128 + i * e
      decide (fieldAt b (o + 12) 1 < 8) && decide (fieldAt b (o + 13) 3 = 0) && (decide (e = 16) || decide (fieldAt b (o + 21) 3 = 0)))

/-- Is list j well formed? -/
def partListOk (inp : Bytes) (lists j : Nat) : Bool :=
  let off := fieldAt inp (8 * j) 4
  let len := fieldAt inp (8 * j + 4) 4
  if lists ≤ j then decide (off = 0) && decide (len = 0)
  else
    let b := slice inp off len
    let p := partList inp j
    decide (off % 8 = 0) && decide (off + len ≤ inp.length) && decide (128 ≤ len) && decide (fieldAt b 0 2 = 1)
      && (decide (p.e = 16) || decide (p.e = 24)) && decide (p.k ≤ 1024) && decide (p.valid ≤ p.k)
      && decide (128 + p.k * p.e + (if bit p.flags 1 then p.k * fieldAt b 10 2 else 0) ≤ len)
      && partReservedOk b p.k p.e

/-- Merge partial lists into the bytes of a result and its words. -/
def mergeLists (ls : List PartList) (k e now : Nat) : Bytes × Tally × Nat × Nat :=
  let all := (ls.map (fun l => l.entries)).flatten
  let good := all.filter (fun r => !isNan r.value)
  let kept := good.filter (fun r => !good.any (fun o => decide (o.ext = r.ext) && mergeBeats o r))
  let extra (m : F32) : Flagged (List F32) := mapFlagged (fun l =>
    let (t, f) := expTerm false l.m m
    let (p, g) := mul32 false l.out t
    (p, f.or g)) (ls.filter (fun l => decide (l.m ≠ nan32)))
  let dups := ls.foldl (fun n l => n + l.dups) 0 + (good.length - kept.length)
  let t := tallyValid k kept (all.length - good.length) dups extra
  let cov := ls.foldl (fun n l => min n l.coverage) 65536
  let quals := ls.foldl (fun q l => orQuals q l.quals) (t.quals k)
  let h : Header :=
    { k := k, e := e, flags := b2n (decide (e = 24)), quals := quals, payload := 0, scored := 0, unscored := 0
      coverage := cov, adm := now, deadline := 0, stats := [] }
  (headerBytes h t ++ t.entries k e, t, quals, cov)

/-- Merge the lists of a RERANK form 1 and complete it. -/
def State.mergeRerank (s : State) (cmd : Cmd) (inbuf : Bytes) : State :=
  let inp := fit cmd.inLen inbuf
  let n := cmd.field 53 1
  let k := cmd.field 44 2
  let e := if bit (cmd.field 39 1) 1 then 24 else 16
  let ls := (List.range n).map (partList inp)
  if !((List.range 16).all (fun j => partListOk inp n j)) || (decide (e = 24) && ls.any (fun l => decide (l.e ≠ 24))) then
    s.fail cmd.cid Status.invalidField
  else
    let (buf, t, quals, cov) := mergeLists ls k e s.now
    (s.outWrite cmd cmd.outAddr buf).finish cmd.cid
      ⟨Status.success, quals, s.now, t.sel.length, t.kth.toNat, cov⟩

end Sys2Proof.Machine
end

