-- ==== Sys2Proof/Machine/Walk.lean ====
section
/-! DEFINITION. Searches and the walk (04): parameters, admission, seeding, rounds, merges, the remainder scan, the three
ways a walk ends. -/
namespace Sys2Proof.Machine

/-! ### Parameters (04 R78, R119; 13 R322-R327) -/

def pad64 (n : Nat) : Nat := roundUp n 64
/-- Bytes of a row of n elements. -/
def rowLen (fmt n : Nat) : Nat := ceilDiv (n * fmtBits fmt) 8

/-- A field, or its default when it is 0. -/
def orDefault (v d : Nat) : Nat := if v = 0 then d else v

/-- The walk and rescoring parameters of a search command resolved against the collection's settings, when they lie in
their ranges and keep their relations (04 R78; 05 R119, R125, R136, R142; 13 R322, R326, R327). -/
def State.resolve (s : State) (cmd : Cmd) (c : Coll) : Option WalkParams :=
  let op := cmd.opcode
  let n := c.num
  let sfl := cmd.field 39 1
  let listed := decide (op = Op.rerank)
  let count := cmd.field 60 2
  let l := orDefault (cmd.field 36 2) (s.cobj n 0x20)
  let w := orDefault (cmd.field 38 1) (s.cobj n 0x21)
  let h := orDefault (cmd.field 40 2) (s.cobj n 0x23)
  let m := if listed then count else orDefault (cmd.field 42 2) (s.cobj n 0x40)
  let k := orDefault (cmd.field 44 2) (s.cobj n 0x41)
  let f := if bit sfl 6 then cmd.field 56 4 else s.cobj n 0x24
  let mode := if bit sfl 3 then bits sfl 5 4 else s.cobj n 0x42
  let model := orDefault (cmd.field 46 2) (s.cobj n 0x44)
  let e := s.cobj n 0x43
  let tq := cmd.field 52 1
  let qf := cmd.field 50 1
  let ok := decide (1 ≤ l) && decide (l ≤ 1024) && decide (w ≤ 16) && decide (w ≤ l) && decide (1 ≤ h) && decide (h ≤ 1024)
    && decide (w ≤ h) && decide (1 ≤ m) && decide (m ≤ 2048) && decide (1 ≤ k) && decide (k ≤ 1024) && decide (k ≤ m)
    && decide (f ≤ 65536) && (bit sfl 6 || decide (cmd.field 56 4 = 0))
    && (bit sfl 3 || decide (bits sfl 5 4 = 0)) && decide (mode ≠ 3)
    && (if mode = 1 then decide (op ≠ Op.encodeSearch) && decide (e ≠ 0) && decide (e % 16 = 0) && decide (c.dims % e = 0)
          && decide (1 ≤ tq) && decide (tq ≤ 64)
        else decide (tq = 0))
    && (decide (mode ≠ 2) || decide (model ≠ 0xFFFF))
    && (!bit sfl 2 || decide (c.payload ≠ 0))
    && (if op = Op.encodeSearch then decide (qf = 0) else decide (qf ≤ 4) && decide (cmd.field 48 2 = 0) && decide (cmd.field 54 2 = 0))
    && (listed || (decide (cmd.field 51 1 = 0))) && decide (cmd.field 53 1 = 0)
    && (if op = Op.searchBatch then decide (1 ≤ count) && decide (count ≤ 64) else decide (cmd.field 64 4 = 0))
    && (if listed then decide (cmd.field 42 2 = 0) && !bit sfl 0 && !bit sfl 2
        else decide (op = Op.searchBatch) || decide (count = 0))
  if ok then
    some { l := l, w := w, h := h, m := m, k := k, f := f, mode := mode, model := model, filter := bit sfl 0
           nodeIds := bit sfl 1, payloads := bit sfl 2, tq := tq, e := e, wAuto := decide (w = 0) }
  else none

/-- Length of a result buffer (05 R137). -/
def resultLen (p : WalkParams) (c : Coll) : Nat :=
  128 + p.k * (if p.nodeIds then 24 else 16) + (if p.payloads then p.k * c.payload else 0)

/-- Padded length of the query tokens of mode 1. -/
def tokenLen (p : WalkParams) (qf : Nat) : Nat := if p.mode = 1 then pad64 (rowLen qf (p.tq * p.e)) else 0

/-- Padded length of one query block (13 R323, R327); for ENCODE_SEARCH of the encoder input and filter (13 R326). -/
def State.blockLen (s : State) (cmd : Cmd) (c : Coll) (p : WalkParams) : Nat :=
  let flt := if p.filter then 256 else 0
  if cmd.opcode = Op.encodeSearch then
    match s.model? (cmd.field 48 2) with
    | some m => pad64 (rowLen m.pkg.inFormat (cmd.field 54 2 * m.pkg.inDims)) + flt
    | none => flt
  else
    pad64 (rowLen (cmd.field 50 1) c.dims) + (if cmd.opcode = Op.rerank then pad64 (8 * p.m) else 0) + flt
      + tokenLen p (cmd.field 50 1)

/-- Buffer lengths of a search command (05 R137; 13 R323-R327). -/
def State.lengthsOk (s : State) (cmd : Cmd) (c : Coll) (p : WalkParams) : Bool :=
  let need := resultLen p c
  if cmd.opcode = Op.searchBatch then
    let stride := cmd.field 64 4
    let n := cmd.field 60 2
    decide (stride % 8 = 0) && decide (need ≤ stride) && decide (128 + n * stride ≤ cmd.outLen)
      && decide (cmd.inLen = n * s.blockLen cmd c p)
  else decide (need ≤ cmd.outLen) && decide (cmd.inLen = s.blockLen cmd c p)

/-- Parameters of a search command that passes its field checks. -/
def State.searchParams (s : State) (cmd : Cmd) (c : Coll) : Option WalkParams :=
  match s.resolve cmd c with
  | some p => if s.lengthsOk cmd c p then some p else none
  | none => none

/-! ### Making a search -/

/-- A search of a command before its admission: its query block is in the command's buffer. -/
def newSearch (cmd : Cmd) (c : Coll) (ix : Nat) (p : WalkParams) (phase : SPhase) : Search :=
  { cid := cmd.cid, ix := ix, coll := c.num, part := cmd.part, params := p, phase := phase
    ids := [], isRerank := decide (cmd.opcode = Op.rerank), qFormat := cmd.field 50 1, query := [], tokens := []
    filterBlock := []
    outAddr := if cmd.opcode = Op.searchBatch then cmd.outAddr + 128 + ix * cmd.field 64 4 else cmd.outAddr
    sketch := 0, entrySet := [], qNorm := zero32, deadline := 0, cut := 0, admTick := 0, rodsOut := [], cold := false
    cands := [], visited := [], pool := [], open_ := [], roundExps := 0, roundUncovered := 0, nextRound := 0, rounds := 0
    expansions := 0, uncovered := 0, cacheHits := 0, staleEdges := 0, capDrops := 0, endReason := 0, need := .none
    hits := [], hitsUsed := false, scanned := 0, partialCut := false, rank := [], setSize := 0, rows := []
    flags := Flags.none, coverage := 65536, context := false, ctxSince := 0, epoch := 0, firstAdm := none, began := false
    counted := false, result := [], resultQuals := 0, resultValid := 0
    resultKth := nan32, holdsModel := none }

/-- The query block of a search: query, ids, filter, tokens (13 R323, R326, R327). -/
def State.fillQuery (s : State) (x : Search) (cmd : Cmd) (c : Coll) : Search :=
  let p := x.params
  let len := s.blockLen cmd c p
  let b := slice (fit cmd.inLen cmd.inbuf) (x.ix * len) len
  if cmd.opcode = Op.encodeSearch then
    { x with qFormat := c.format, filterBlock := if p.filter then b.drop (len - 256) else [] }
  else
    let v := rowLen x.qFormat c.dims
    let o1 := pad64 v
    let o2 := o1 + (if x.isRerank then pad64 (8 * p.m) else 0)
    let o3 := o2 + (if p.filter then 256 else 0)
    { x with
      query := b.take v
      ids := if x.isRerank then (List.range p.m).map (fun i => BitVec.ofNat 64 (fieldAt b (o1 + 8 * i) 8)) else []
      filterBlock := if p.filter then slice b o2 256 else []
      tokens := if p.mode = 1 then slice b o3 (rowLen x.qFormat (p.tq * p.e)) else [] }

/-- Are the filter and the ids of a query well formed (04 R97, R98; 13 R327)? -/
def Search.queryOk (x : Search) (c : Coll) : Bool :=
  (!x.params.filter || filterOk c.schema x.filterBlock) && decide x.ids.Nodup

/-- Register the searches of a command for admission, or fail it: DW6 names the first offending query of a batch
(13 R324). -/
def State.makeSearches (s : State) (cmd : Cmd) (inbuf : Bytes) (n : Nat) : State :=
  let s := s.modCmd cmd.cid (fun c => { c with inbuf := inbuf })
  let cmd := { cmd with inbuf := inbuf }
  match s.coll? cmd.collByte with
  | none => s.fail cmd.cid Status.invalidCollection
  | some c =>
    match s.searchParams cmd c with
    | none => s.fail cmd.cid Status.invalidField
    | some p =>
      let xs := (List.range n).map (fun i => s.fillQuery (newSearch cmd c i p .waiting) cmd c)
      match xs.find? (fun x => !x.queryOk c) with
      | some x =>
        s.finish cmd.cid { cmd.failWords Status.invalidField with dw6 := if cmd.opcode = Op.searchBatch then x.ix else 0 }
      | none => { s with searches := s.searches ++ xs }.modCmd cmd.cid (fun c => { c with stage := .searching })

/-- SEARCH waits for admission once its query block has been read (13 R322, R323). -/
def execSearch (cid : Nat) (inbuf : Bytes) (s : State) : Ans :=
  match s.ready? cid Op.search with
  | none => .next s
  | some cmd => .next (s.makeSearches cmd inbuf 1)

/-- SEARCH_BATCH checks every query and waits for the admission of each (13 R324, R325). -/
def execSearchBatch (cid : Nat) (inbuf : Bytes) (s : State) : Ans :=
  match s.ready? cid Op.searchBatch with
  | none => .next s
  | some cmd => .next (s.makeSearches cmd inbuf (cmd.field 60 2))

/-- RERANK scores listed ids at its admission, or merges lists (13 R327, R328). -/
def execRerank (cid : Nat) (inbuf : Bytes) (s : State) : Ans :=
  match s.ready? cid Op.rerank with
  | none => .next s
  | some cmd =>
    if cmd.field 51 1 = 1 then .next (s.mergeRerank cmd inbuf) else .next (s.makeSearches cmd inbuf 1)

/-! ### Seeding and merging -/

/-- Rank order (04 R83). -/
def candBefore (a b : Cand) : Bool := decide (a.dist < b.dist) || (decide (a.dist = b.dist) && decide (a.node ≤ b.node))
def poolBefore (a b : PoolEntry) : Bool := decide (a.dist < b.dist) || (decide (a.dist = b.dist) && decide (a.node ≤ b.node))

/-- Offer an eligible node to the result pool, which holds a node once (R86). -/
def Search.offer (x : Search) (e : PoolEntry) : Search :=
  if x.pool.any (fun p => decide (p.node = e.node)) then x
  else { x with pool := (insertBy poolBefore e x.pool).take x.params.m }

/-- The cap of a search (R100). -/
def Search.cap (x : Search) : Nat := x.params.l * x.params.f / 65536

/-- Keep the best cap entries whose filter result is fail, in rank order. -/
def capFails : Nat → List Cand → List Cand
  | _, [] => []
  | n, c :: cs =>
    if c.filt = .fail then
      match n with
      | 0 => capFails 0 cs
      | n + 1 => c :: capFails n cs
    else c :: capFails n cs

/-- Apply the cap and the length to a list in rank order, counting cap drops (R82, R93, R100). With f = 65,536 and more than L
failing seeds R82 removes some where R100 speaks of none: they are removed and counted (DESIGN CHOICE, log entry 73). -/
def Search.trim (x : Search) (cs : List Cand) : Search :=
  let cs := sortBy candBefore cs
  let kept := if x.params.filter then capFails x.cap cs else cs
  { x with cands := kept.take x.params.l, capDrops := x.capDrops + (cs.length - kept.length) }

/-- The admission bound of the open round (R84). -/
def Search.bound (x : Search) (c : Coll) : Nat :=
  if x.params.l ≤ x.cands.length then
    match x.cands[x.params.l - 1]? with
    | some e => e.dist
    | none => c.sketchBits
  else c.sketchBits

/-- The walk ends, and goes on to rescoring unless its remainder pass is outstanding (R104, R107, R108). -/
def State.endWalk (s : State) (x : Search) (reason : Nat) : State :=
  let x' := { x with phase := .walked, endReason := reason, open_ := [] }
  let s := s.modSearch x.cid x.ix (fun _ => x')
  if x'.need = .none || x'.need = .complete then s.startRescore x' true else s

/-- The tests after seeding and after each merge (R104). -/
def State.testWalk (s : State) (x : Search) : State :=
  if x.cands.all (fun e => e.expanded) then s.endWalk x 0
  else if x.params.h ≤ x.expansions then s.endWalk x 1
  else s.modSearch x.cid x.ix (fun _ => { x with phase := .walking, nextRound := s.now + 1, open_ := [] })

/-- Does the walker know where a node's record lies and can it be read (R82, R87)? -/
def State.nodeIn (s : State) (c : Coll) (t : Tick) (n : Nat) : Option (DirEntry × Nat × Nat) :=
  match dirAt c (nodeSegment n) t with
  | some d =>
    let (tile, ix) := nodePlace c d.bNode n
    if s.tileIn tile then some (d, tile, ix) else none
  | none => none

/-- Seed from one entry of the entry set (R82): none when its tile fails the check. -/
def State.seedOne (s : State) (c : Coll) (x : Search) (l : Loc) : Option Search :=
  if decide (l.gen ≠ s.genAt c x.admTick l.node) then some { x with staleEdges := x.staleEdges + 1 }
  else
    match s.nodeIn c x.admTick l.node with
    | none => some x
    | some (d, tile, ix) =>
      let b := s.cachedOrFlash c.num tile
      let r := decodeRecord c b ix
      if !tileOk b (nodeExpect c d tile) || decide (r.loc ≠ l) then none
      else if !r.valid then some { x with staleEdges := x.staleEdges + 1 }
      else
        let dist := sketchDistance c.sketchBits x.sketch r.sketch
        let pass := x.passes c r.attrs
        let x := { x with
          visited := l.node :: x.visited
          cands := ⟨l.node, l.gen, dist, false, if pass then .pass else .fail⟩ :: x.cands }
        some (if pass && !s.tombAt c x.admTick l.node then x.offer ⟨l.node, l.gen, dist, r.ext⟩ else x)

/-- The tiles that seeding looks up: those of the entries whose generation is the snapshot's and whose tile is within reach. -/
def State.seedLooks (s : State) (c : Coll) (x : Search) : List Nat :=
  x.entrySet.filterMap (fun l =>
    if l.gen = s.genAt c x.admTick l.node then (s.nodeIn c x.admTick l.node).map (fun p => p.2.1) else none)

/-- Count a tile looked up: a hit, or a read that fills the cache (03 R72). -/
def State.lookTile (cid c : Nat) (s : State) (t : Nat) : State :=
  match s.cached c t with
  | some _ => s.hitTile cid c t
  | none => (s.countReads cid c 1).fillTile c t (s.tileBytes t)

def State.seedAll (s : State) (c : Coll) : Search → List Loc → Option Search
  | x, [] => some x
  | x, l :: ls =>
    match s.seedOne c x l with
    | none => none
    | some x => State.seedAll s c x ls

/-- Begin an attempt of an admitted search: sketch and norm, coverage, then seeding, or the listed ids of a RERANK
(04 R80, R82; 05 R120; 13 R327; 18 R453, R459). -/
def State.beginAttempt (s : State) (x : Search) (c : Coll) : State :=
  let q := x.qVals c
  let (sk, f1) := if x.isRerank then (0, Flags.none) else sketchOf c q
  let (qn, f2) := if c.metric = 1 && decide (x.params.mode = 0) then normOf q else (zero32, Flags.none)
  let present := c.rem.any (fun i => i.presentAt x.admTick)
  let x := { x with
    sketch := sk, qNorm := qn, flags := (x.flags.or f1).or f2, coverage := s.coverage c x.admTick, rodsOut := s.rodsOutNow
    need := if x.isRerank || !present then .none else .waiting }
  if x.isRerank then s.startRescore x true
  else
    match s.seedAll c { x with cands := [] } x.entrySet with
    | none => (s.modSearch x.cid x.ix (fun _ => { x with phase := .walking })).checkFault x.cid
    | some y =>
      let y := y.trim y.cands
      let s := (s.seedLooks c x).foldl (State.lookTile x.cid c.num) s
      ((s.ccount c.num 0x2E y.staleEdges).ccount c.num 0x2F y.capDrops).testWalk y

/-! ### Admission (R493; 02 R40, R48, R49) -/

/-- The deadline tick of a 32-bit field (02 R48). -/
def extendTick (low adm : Nat) : Nat := (adm + 2147483648) - (adm + 2147483648 + 4294967296 - low) % 4294967296

/-- Is the collection cold (R113)? The setting is compared as it stands, so a greater one makes a warm collection cold again
(DESIGN CHOICE, log entry 73). -/
def State.isCold (s : State) (n : Nat) : Bool := decide (s.cobj n 0x29 < s.cobj n 0x27)

/-- The controller's W (R113, R114). -/
def State.controllerW (s : State) (c : Coll) (l h : Nat) : Nat :=
  if s.isCold c.num || c.hopHistory.isEmpty then min (s.cobj c.num 0x22) (min l h)
  else min (min 16 (min l h)) (max 1 (ceilDiv (h90 c.hopHistory) (s.cobj c.num 0x28)))

/-- The reckoners in service. -/
def State.reckoners (s : State) : List Nat := (List.range 16).filter (fun n => s.unitIn (unitReckoner n))

/-- Judge a search at its admission tick (R493): the first failure, or the search with its deadline and cut tick. The
parameters left at 0 are taken from the collection's settings of this tick (02 R39). -/
def State.judge (s : State) (x : Search) (cmd : Cmd) (adm : Tick) : Except Nat Search :=
  match s.coll? x.coll with
  | none => .error Status.invalidCollection
  | some c =>
    if c.state ≠ 2 then .error Status.invalidCollection
    else
      match s.searchParams cmd c with
      | none => .error Status.invalidField
      | some p =>
        let low := cmd.field 32 4
        let from_ := if cmd.opcode = Op.encodeSearch then cmd.stamp else adm
        let d := if low = 0 then from_ + s.obj 0x3100 1 x.part else extendTick low adm
        if adm + s.obj 0x3100 2 x.part < d then .error Status.invalidField
        else if s.reckoners.isEmpty then .error Status.unitOut
        else if p.mode ≠ 0 && (s.partFrames x.part).isEmpty then .error Status.unitOut
        else
          let model := if p.mode = 2 then s.model? p.model else none
          let few := match model with
            | some m => decide ((s.partFrames x.part).length < m.pkg.prog.framesMin)
            | none => false
          if few then .error Status.unitOut
          else
            let mst : Option Nat :=
              if p.mode ≠ 2 then none
              else
                match model with
                | none => some Status.invalidField
                | some m =>
                  match m.state with
                  | .resident => if m.pkg.kind = 2 then none else some Status.invalidField
                  | .faulted => some Status.modelUnavailable
                  | _ => some Status.notReady
            match mst with
            | some st => .error st
            | none =>
              let batches := match model with
                | some m => m.pkg.rescoreTicks * ceilDiv p.m 64
                | none => 0
              let cut := d - (s.cobj c.num 0x26 + batches)
              if d ≤ adm || (!x.isRerank && decide (cut ≤ adm)) then .error Status.deadlineExpired
              else
                let w := if p.wAuto then s.controllerW c p.l p.h else p.w
                let x := s.fillQuery { x with params := { p with w := w } } cmd c
                .ok { x with deadline := d, cut := cut }

/-- Copies of the listed ids of a RERANK live at its admission tick (13 R327). -/
def State.listCopies (s : State) (x : Search) (c : Coll) : Search :=
  { x with
    pool := x.ids.filterMap (fun i => (s.graphCopy c x.admTick i).map (fun g => ⟨g.1, s.genAt c x.admTick g.1, 0, i⟩))
    hits := x.ids.filterMap (fun i => (c.remCopy x.admTick i).map (fun r => ⟨r.seq, 0, i⟩)) }

/-- What an admitted search keeps from its admission tick (R81, R113). One that begins again keeps what it had, its parameters,
deadline and cut tick among it (R112). -/
def State.admitted (s : State) (x y : Search) (c : Coll) (adm : Tick) : Search :=
  let y := if x.began then { y with params := x.params, deadline := x.deadline, cut := x.cut }
    else { y with admTick := adm, firstAdm := some adm, began := true, entrySet := c.entrySet, cold := s.isCold c.num }
  { y with
    context := true, ctxSince := s.now, phase := .walking
    holdsModel := if y.params.mode = 2 then some y.params.model else none }

/-- Admit one waiting search, or end it with the status it is judged to have. A search that begins again is judged as of the
admission tick of its first attempt. -/
def State.admitOne (s : State) (x : Search) : State :=
  match s.cmd? x.cid with
  | none => s
  | some cmd =>
    let adm := x.firstAdm.getD s.now
    let s := if x.ix = 0 then s.modCmd x.cid (fun c => { c with admTick := some adm }) else s
    match s.judge x cmd adm with
    | .error st => s.endSearch { x with admTick := adm, firstAdm := some adm } st x.flags.quals 0 0 0
    | .ok y =>
      match s.coll? y.coll with
      | none => s
      | some c =>
        let y := s.admitted x y c adm
        let y := if y.isRerank then s.listCopies y c else y
        let s := if y.params.mode = 2 then s.hold y.params.model else s
        (s.modSearch y.cid y.ix (fun _ => y)).beginAttempt y c

/-- Precedence of waiting searches (02 R36; 13 R325). -/
def admitBefore (s : State) (a b : Search) : Bool :=
  let key (x : Search) : List Nat := match s.cmd? x.cid with
    | some c => [portRank c.port, c.sq, c.cid, x.ix]
    | none => [0, 0, 0, 0]
  decide (key a ≤ key b)

/-- Does a search wait for the move of what its rescoring model uses (10 R244; log entry 81)? -/
def State.awaitsMove (s : State) (x : Search) (cmd : Cmd) : Bool :=
  match s.coll? x.coll with
  | none => false
  | some c =>
    match s.searchParams cmd c with
    | none => false
    | some p => decide (p.mode = 2) && (match s.model? p.model with | some m => s.moveBlocks m | none => false)

/-- Searches of a partition that may be admitted in this tick, in precedence order. A command is admitted in a tick after
its fetch (02 R39). -/
def State.admissible (s : State) (part : Nat) : List Search :=
  sortBy (admitBefore s) (s.searches.filter (fun x =>
    decide (x.part = part) && decide (x.phase = .waiting)
      && (match s.cmd? x.cid with
          | some c => decide (c.fetchTick < s.now) && s.served c && decide (c.restartAt.getD 0 ≤ s.now)
              && decide (x.nextRound ≤ s.now) && !s.awaitsMove x c
          | none => false)))

/-- Admit searches in order while the partition has a free context (02 R40; 11 R269). -/
def State.admitList : State → List Search → State
  | s, [] => s
  | s, x :: xs =>
    if s.contextsUsed x.part < recContexts (s.partRec x.part) then State.admitList (s.admitOne x) xs else s

/-- The waiting searches up to one of them, in order. -/
def upTo (cid ix : Nat) : List Search → List Search
  | [] => []
  | x :: xs => if x.is cid ix then [x] else x :: upTo cid ix xs

/-! ### Rounds (R87-R93) -/

/-- The reply a reader forms from a node tile (R90): none when the tile or its record fails the check. -/
def Search.formReply (x : Search) (c : Coll) (n gen : Nat) (b : Bytes) : Option Reply :=
  match dirAt c (nodeSegment n) x.admTick with
  | none => none
  | some d =>
    let (tile, ix) := nodePlace c d.bNode n
    let r := decodeRecord c b ix
    if !tileOk b (nodeExpect c d tile) || decide (r.loc ≠ ⟨n, gen⟩) then none
    else if !r.valid then some ⟨false, r.ext, false, []⟩
    else
      let bound := x.bound c
      some ⟨true, r.ext, x.passes c r.attrs,
        (r.edges.map (fun e => (e.1, sketchDistance c.sketchBits x.sketch e.2))).filter (fun e => decide (e.2 ≤ bound))⟩

/-- Neighbours in the order of R93: target id, then source id. -/
def neighBefore (a b : Nat × Loc × Nat) : Bool :=
  decide (a.2.1.node < b.2.1.node) || (decide (a.2.1.node = b.2.1.node) && decide (a.1 ≤ b.1))

/-- Take one reported neighbour into the list (R93). -/
def State.takeNeigh (s : State) (c : Coll) (x : Search) (n : Nat × Loc × Nat) : Search :=
  let l := n.2.1
  if decide (l.gen ≠ s.genAt c x.admTick l.node) then { x with staleEdges := x.staleEdges + 1 }
  else if x.visited.contains l.node then x
  else { x with visited := l.node :: x.visited, cands := ⟨l.node, l.gen, n.2.2, false, .unknown⟩ :: x.cands }

/-- Take the reply of one expansion: mark it expanded, and offer it (R93, R95, R96). -/
def State.takeReply (s : State) (c : Coll) (x : Search) (e : Expansion) : Search :=
  match e.stage with
  | .arrived r =>
    let dist := match x.cands.find? (fun k => decide (k.node = e.node)) with
      | some k => k.dist
      | none => 0
    let filt : Filt := if !r.valid then .unknown else if r.pass then .pass else .fail
    let x := { x with
      cands := mapWhere (fun k => decide (k.node = e.node)) (fun k => { k with expanded := true, filt := filt }) x.cands
      staleEdges := x.staleEdges + b2n (!r.valid) }
    if r.valid && r.pass && !s.tombAt c x.admTick e.node then x.offer ⟨e.node, e.gen, dist, r.ext⟩ else x
  | _ => x

/-- The merge of the replies of a round (R93). -/
def State.mergeRound (s : State) (x : Search) (c : Coll) : Search :=
  let es := sortBy (fun (a b : Expansion) => decide (a.node ≤ b.node)) x.open_
  let y := es.foldl (fun y e => s.takeReply c y e) x
  let ns := (es.map (fun e => match e.stage with
    | .arrived r => r.neigh.map (fun n => (e.node, n.1, n.2))
    | _ => [])).flatten
  let y := (sortBy neighBefore ns).foldl (fun y n => s.takeNeigh c y n) y
  let y := y.trim y.cands
  { y with
    rounds := y.rounds + 1, expansions := y.expansions + y.roundExps, uncovered := y.uncovered + y.roundUncovered
    cacheHits := y.cacheHits + (es.filter (fun e => e.cached)).length, open_ := [] }

/-- Close and merge the open round (R92, R93). -/
def State.closeRound (s : State) (x : Search) (c : Coll) : State :=
  let y := s.mergeRound x c
  let s := ((s.ccount c.num 0x2D x.roundExps).ccount c.num 0x2E (y.staleEdges - x.staleEdges)).ccount c.num 0x2F
    (y.capDrops - x.capDrops)
  (s.modSearch x.cid x.ix (fun _ => y)).testWalk y

/-- Look one issued expansion up in the node cache (R88). -/
def State.lookNode (s : State) (x : Search) (c : Coll) (k : Cand) : Expansion × State :=
  match dirAt c (nodeSegment k.node) x.admTick with
  | none => (⟨k.node, k.gen, 0, 0, false, 0, .queued⟩, s)
  | some d =>
    let (tile, ix) := nodePlace c d.bNode k.node
    match s.cached c.num tile with
    | some l => (⟨k.node, k.gen, tile, ix, true, 0, .formed (x.formReply c k.node k.gen l.bytes)⟩,
        (s.touchTile c.num l).useCmd x.cid 2 1)
    | none => (⟨k.node, k.gen, tile, ix, false, 0, .queued⟩, s)

def State.lookNodes (x : Search) (c : Coll) : State → List Cand → List Expansion × State
  | s, [] => ([], s)
  | s, k :: ks =>
    let (e, s) := s.lookNode x c k
    let (es, s) := State.lookNodes x c s ks
    (e :: es, s)

/-- The expansions of the next round of a search (R87): those whose record is within reach, and the search with the others
marked expanded at once. -/
def State.pickRound (s : State) (x : Search) (c : Coll) : Search × List Cand :=
  let picks := (x.cands.filter (fun k => !k.expanded)).take (min x.params.w (x.params.h - x.expansions))
  let near := picks.filter (fun k => (s.nodeIn c x.admTick k.node).isSome)
  let far := picks.filter (fun k => (s.nodeIn c x.admTick k.node).isNone)
  ({ x with
    cands := x.cands.map (fun k => if far.any (fun f => decide (f.node = k.node)) then { k with expanded := true } else k)
    roundExps := picks.length, roundUncovered := far.length }, near)

/-- Choose the next round of a search (R87): hits are processed by a reckoner, and misses wait for read quota. -/
def State.openRound (s : State) (x : Search) (c : Coll) : State :=
  let (x', near) := s.pickRound x c
  let (es, s) := State.lookNodes x' c s near
  let x' := { x' with open_ := es, nextRound := s.now }
  let s := s.modSearch x.cid x.ix (fun _ => x')
  if near.isEmpty then s.closeRound x' c else s

/-- The walker chooses a round at the tick after the last merge, before the cut tick (R87-R89, R104). -/
def execRound (cid ix : Nat) (s : State) : Ans :=
  match s.search? cid ix with
  | none => .next s
  | some x =>
    match s.coll? x.coll with
    | none => .next s
    | some c =>
      if x.phase = .walking && x.open_.isEmpty && decide (x.nextRound ≤ s.now) && decide (s.now < x.cut) then
        .next (s.openRound x c)
      else .next s

/-- Change the stage of an open expansion. -/
def Search.setExp (x : Search) (n : Nat) (st : ExpStage) : Search :=
  { x with open_ := mapWhere (fun e => decide (e.node = n)) (fun e => { e with stage := st }) x.open_ }

/-- A rod reads and checks the node tile of a request it has been sent, and forms its reply (R90). It reads nothing while its
chip gets no tick symbols, nor past the deadline by its chip's counter (02 R30, R31). -/
def execExpansionRequest (cid ix node : Nat) (s : State) : Ans :=
  match s.search? cid ix with
  | none => .next s
  | some x =>
    match s.coll? x.coll, x.open_.find? (fun e => decide (e.node = node)) with
    | some c, some e =>
      if e.stage = .sent && s.chipReads [e.tile] && s.rodInTime e.tile e.deadline then
        let b := s.tileBytes e.tile
        let r := x.formReply c node e.gen b
        let s := (s.ccount c.num 0x18 1).useCmd cid 2 1
        let s := if r.isSome then s.fillTile c.num e.tile b else s
        .next (s.modSearch cid ix (fun x => x.setExp node (.formed r)))
      else .next s
    | _, _ => .next s

/-- A reply arrives within its deadline; the round's last closes the round (R92, R93). From the cut tick on the cut comes
first (R106). -/
def execExpansionReply (cid ix node : Nat) (s : State) : Ans :=
  match s.search? cid ix with
  | none => .next (s.staleReply cid ix node)
  | some x =>
    match s.coll? x.coll, x.open_.find? (fun e => decide (e.node = node)) with
    | some c, some e =>
      match e.stage with
      | .formed r =>
        if !s.inTime e.deadline || decide (x.cut ≤ s.now) then .next s
        else
          match r with
          | none => .next (s.checkFault cid)
          | some r =>
            let x' := x.setExp node (.arrived r)
            let s := s.modSearch cid ix (fun _ => x')
            if x'.open_.all (fun e => match e.stage with | .arrived _ => true | _ => false) then .next (s.closeRound x' c)
            else .next s
      | _ => .next (s.staleReply cid ix node)
    | _, _ => .next (s.staleReply cid ix node)

/-! ### Deadlines and cuts (02 R31; R106, R107) -/

/-- Has a reply of the search passed its deadline? -/
def State.lostReply (s : State) (x : Search) : Bool := (s.tagsOf x).any (fun g => decide (g.deadline < s.now))

/-- At the hub tick after a reply deadline the reply is lost: the search meets an internal fault, and a tag left by a cut
is released (02 R31; 04 R92; 11 R281). -/
def execReplyDeadline (cid ix : Nat) (s : State) : Ans :=
  let t := s.now
  let s := { s with tags := s.tags.filter (fun g => !(decide (g.cid = cid) && decide (g.ix = ix) && decide (g.deadline < t))) }
  match s.search? cid ix with
  | none => .next s
  | some x => if s.lostReply x then .next (s.faultCmd cid false) else .next s

/-- The deadline cut of a walk (R106), and of the wait for its remainder pass (R107). -/
def State.cutWalk (s : State) (x : Search) : State :=
  let s := { s with tags := s.tags ++ x.walkTags }
  let x' := { x with phase := .walked, open_ := [], endReason := 2, partialCut := true }
  (s.modSearch x.cid x.ix (fun _ => x')).startRescore x' (decide (x.need = .none) || decide (x.need = .complete))

/-- At the cut tick an unfinished walk ends (R106, R107). -/
def execCutTick (cid ix : Nat) (s : State) : Ans :=
  match s.search? cid ix with
  | none => .next s
  | some x =>
    if (x.phase = .walking || x.phase = .walked) && decide (x.cut ≤ s.now) then .next (s.cutWalk x) else .next s

/-! ### The remainder scan (R101-R103) -/

/-- Order in which waiting searches choose and fill a pass (R102). -/
def scanBefore (s : State) (a b : Search) : Bool :=
  decide (a.admTick < b.admTick) || (decide (a.admTick = b.admTick) && admitBefore s a b)

/-- The searches that wait for a pass which may start now. -/
def State.scanWaiting (s : State) : List Search :=
  s.searches.filter (fun x => decide (x.need = .waiting) && x.context && decide (x.admTick < s.now))

/-- The collection whose oldest waiting search is earliest, ties to the lower number. -/
def State.scanChoice (s : State) : Option Nat :=
  ((sortBy (fun (a b : Search) => decide (a.admTick < b.admTick)
    || (decide (a.admTick = b.admTick) && decide (a.coll ≤ b.coll))) s.scanWaiting).head?).map (fun x => x.coll)

/-- The free scanner starts a pass for one collection and up to 64 searches (R101, R102). remainder_pass_last is set with the
duration of a pass at its start (DESIGN CHOICE, log entry 73). -/
def State.startPass (s : State) (n : Nat) : State :=
  let xs := (sortBy (scanBefore s) (s.scanWaiting.filter (fun x => decide (x.coll = n)))).take 64
  let (held, sb) := match s.coll? n with
    | some c => (c.rem.length, c.sketchBits)
    | none => (0, 0)
  let ns := ceilDiv held 8 * (sb / 256)
  let ids := xs.map (fun x => (x.cid, x.ix))
  let s := { s with
    scan := some ⟨n, s.now, s.now + max 1 (ceilDiv ns 1000), ids⟩
    searches := mapWhere (fun x => ids.contains (x.cid, x.ix)) (fun x => { x with need := .running }) s.searches }
  s.setObj 0x3100 7 0 ns

/-- A remainder pass starts when the scanner is free (R102). -/
def execRemainderPassStart (s : State) : Ans :=
  match s.scan, s.scanChoice with
  | none, some n => if s.scanFree ≤ s.now then .next (s.startPass n) else .next s
  | _, _ => .next s

/-- Order of remainder hits (R103). -/
def hitBefore (a b : RemHit) : Bool := decide (a.dist < b.dist) || (decide (a.dist = b.dist) && decide (a.seq ≤ b.seq))

/-- The items a pass considers for a search: those of its snapshot whose journal tile lay on no rod out (R103; 06 R154). -/
def Search.considered (x : Search) (c : Coll) : List RemItem :=
  c.rem.filter (fun i => i.liveAt x.admTick && (c.remTiles i.seq).all (fun t => !x.rodsOut.contains (tileRod t)))

/-- The remainder hits of a search (R103). -/
def Search.remHits (x : Search) (c : Coll) : List RemHit :=
  (sortBy hitBefore (((x.considered c).filter (fun i => x.passes c i.attrs)).map (fun i =>
    ⟨i.seq, sketchDistance c.sketchBits x.sketch i.sketch, i.ext⟩))).take x.params.m

/-- Deliver the hits of one search of the pass before its cut tick; a walk that has ended goes on to rescoring (R107). A pass that
ends in the cut tick itself has not completed by it (DESIGN CHOICE, log entry 73). -/
def State.deliverHits (s : State) (k : Nat × Nat) : State :=
  match s.search? k.1 k.2 with
  | none => s
  | some x =>
    match s.coll? x.coll with
    | none => s
    | some c =>
      if x.need = .running && decide (s.now < x.cut) then
        let x' := { x with need := .complete, hits := x.remHits c, scanned := (x.considered c).length }
        let s := s.modSearch x.cid x.ix (fun _ => x')
        if x'.phase = .walked then s.startRescore x' true else s
      else s

/-- A completed pass delivers each search's hits, and the scanner is free from the next tick (R102, R103). -/
def execRemainderPassEnd (s : State) : Ans :=
  match s.scan with
  | none => .next s
  | some p =>
    if p.ends ≤ s.now then
      let s := (({ s with scan := none, scanFree := s.now + 1 }).count 0x3100 6 1)
      .next (p.searches.foldl (fun s k => s.deliverHits k) s)
    else .next s

end Sys2Proof.Machine
end

