-- ==== Sys2Proof/Machine/Host.lean ====
section
/-! DEFINITION. The host interface (12, 13): doorbells, the fetch of an entry and its checks (R319), NOP, queues created,
deleted and reset, and what a reset of a queue does to the commands it has fetched. -/
namespace Sys2Proof.Machine

/-- A port takes inputs: the module is up and PERST# is not asserted. -/
def State.takes (s : State) (p : Port) : Bool := s.up && !(s.port p).inReset

/-! ### Doorbells (R296-R298) -/

/-- The owner of a queue pair: the port and function that may ring its doorbells. -/
def Sq.mine (q : Sq) (p : Port) (fn : Nat) : Bool := decide (q.port = p) && decide (q.fn = fn)

/-- Register a doorbell; of several writes of one doorbell in a tick the last is stamped (R298). -/
def State.ring (s : State) (p : Port) (body : OrderBody) (same : OrderBody → Bool) : State :=
  { s with orders := s.orders.filter (fun o => !(decide (o.stamp = s.now + 1) && same o.body)) }.order (portRank p) 0 body

/-- An SQ tail doorbell is registered for the next tick. -/
def execSqTailDoorbell (p : Port) (fn : Fin 64) (q : Nat) (value : BitVec 32) (s : State) : Ans :=
  if s.takes p then
    .next (s.ring p (.sqDoorbell p fn q value.toNat) (fun b => match b with
      | .sqDoorbell p' fn' q' _ => decide (p' = p) && decide (fn' = fn) && decide (q' = q)
      | _ => false))
  else .next s

/-- A CQ head doorbell is registered for the next tick. -/
def execCqHeadDoorbell (p : Port) (fn : Fin 64) (q : Nat) (value : BitVec 32) (s : State) : Ans :=
  if s.takes p then
    .next (s.ring p (.cqDoorbell p fn q value.toNat) (fun b => match b with
      | .cqDoorbell p' fn' q' _ => decide (p' = p) && decide (fn' = fn) && decide (q' = q)
      | _ => false))
  else .next s

/-- A doorbell write that is ignored is counted (R298). -/
def State.badDoorbell (s : State) (p : Port) : State :=
  s.modPort p (fun x => { x with doorbellErrors := x.doorbellErrors + 1 })

/-- A tail doorbell takes effect: its entries carry its stamp (R298, R320). -/
def State.applyTail (s : State) (p : Port) (fn q v : Nat) : State :=
  match s.sq? q with
  | none => s.badDoorbell p
  | some x =>
    if decide (x.state ≠ .active) || !x.mine p fn || decide (x.depth ≤ v) then s.badDoorbell p
    else
      let dist (t : Nat) : Nat := (t + x.depth - x.head) % x.depth
      s.modSq q (fun x => { x with
        tail := v
        stamps := if v = x.tail then x.stamps
          else x.stamps.filter (fun e => decide (dist e.1 < dist v)) ++ (if v = x.head then [] else [(v, s.now)]) })

/-- A head doorbell takes effect: entries up to it are released (R297, R298). -/
def State.applyHead (s : State) (p : Port) (fn q v : Nat) : State :=
  match s.cq? q with
  | none => s.badDoorbell p
  | some c =>
    let owner := decide (c.port = p) && decide (c.fn = fn)
    if !owner || decide (c.depth ≤ v) || decide (c.held < (v + c.depth - c.head) % c.depth) then s.badDoorbell p
    else s.modCq q (fun c => { c with head := v })

/-! ### Commands cut off (R311-R313) -/

/-- Searches and sequences of a command are released as a job (11 R286). -/
def Cmd.isJob (c : Cmd) : Bool := decide (0x10 ≤ c.opcode) && decide (c.opcode ≤ 0x14) || decide (c.opcode = Op.run)

/-- Take a command off the passes it waits for. -/
def Pass.unwait (p : Pass) (cid : Nat) : Pass := { p with waiters := p.waiters.filter (fun w => decide (w ≠ cid)) }
def State.unwait (s : State) (cid : Nat) : State :=
  { s with carry := { s.carry with
      queue := s.carry.queue.map (fun r => { r with waiters := r.waiters.filter (fun w => decide (w ≠ cid)) })
      pass := s.carry.pass.map (fun p => p.unwait cid)
      suspended := s.carry.suspended.map (fun p => p.unwait cid) } }

/-- What a reset or a deletion of its queue does to one fetched command (R312). -/
def State.abandon (s : State) (c : Cmd) : State :=
  let op := c.opcode
  if c.isMutation then
    match c.stage with
    | .ended .. => s
    | _ => s.fail c.cid Status.queueReset
  else if c.isJob then ((s.noteAll c.cid).release c.cid).fail c.cid Status.queueReset
  else if op = Op.nop || op = Op.objRead then s.fail c.cid Status.queueReset
  else if op = Op.carry || op = Op.flush then (s.unwait c.cid).fail c.cid Status.queueReset
  else s

/-- Abandon the fetched commands of a queue, in the order of their fetch. -/
def State.abandonAll (s : State) (q : Nat) : State :=
  (s.cmds.filter (fun c => decide (c.sq = q))).foldl (fun s c => s.abandon c) s

/-- QUEUE_RESET or QUEUE_DELETE of an SQ: unfetched entries are discarded, fetched commands treated as R312 says. -/
def State.cutQueue (s : State) (q : Nat) (delete deleteCq : Bool) (cid : Option Nat) : State :=
  let s := s.modSq q (fun x => { x with
    state := if delete then .deleting else .resetting, tail := x.head, stamps := [], deleteCq := deleteCq, drain := cid })
  (s.abandonAll q).drain 4 q

/-- Queues that a port reset or a function-level reset makes absent: no completion and no output is written for their
commands, and those that run to their end still take effect (R313). -/
def State.killQueues (s : State) (p : Port) (fn : Option Nat) : State :=
  let mine (p' : Port) (f : Nat) : Bool := decide (p' = p) && (match fn with | none => true | some n => decide (f = n))
  let dead := (s.sqs.filter (fun q => mine q.port q.fn)).map (fun q => q.qid)
  let drains := (s.sqs.filter (fun q => mine q.port q.fn)).filterMap (fun q => q.drain)
  let s := { s with
    cmds := mapWhere (fun c => dead.contains c.sq) (fun c => { c with silent := true }) s.cmds
    sqs := s.sqs.filter (fun q => !mine q.port q.fn)
    cqs := s.cqs.filter (fun q => !mine q.port q.fn) }
  let s := (s.cmds.filter (fun c => dead.contains c.sq)).foldl (fun s c => s.abandon c) s
  let s := drains.foldl (fun s cid => match s.cmd? cid with
    | some c => s.finish cid ⟨Status.success, 0, c.stamp, 0, 0, 0⟩
    | none => s) s
  if fn = none ∨ fn = some 0 then
    s.modPort p (fun x => { x with admin := { x.admin with en := false, active := false, halted := false } })
  else s

/-! ### Entries: what each opcode takes (R299, R318, R321) -/

/-- Is the opcode defined? -/
def opKnown (op : Nat) : Bool :=
  [0x01, 0x10, 0x11, 0x12, 0x13, 0x14, 0x20, 0x21, 0x22, 0x23, 0x24, 0x25, 0x30, 0x31, 0x40, 0x41, 0x42, 0x50, 0x51, 0x60,
   0x61, 0x70, 0x71, 0x80, 0x81, 0x82].contains op
def opAdmin (op : Nat) : Bool := decide (0x80 ≤ op)
def opAnyQueue (op : Nat) : Bool := [0x01, 0x50, 0x51, 0x70, 0x71].contains op

/-- The named bytes of an entry from byte 32, as offset and length. -/
def opBytes (op : Nat) : List (Nat × Nat) :=
  match op with
  | 0x01 => [(32, 1), (36, 4)]
  | 0x10 => [(32, 30), (64, 4)]
  | 0x11 => [(32, 30), (64, 4)]
  | 0x12 => [(32, 30), (64, 4)]
  | 0x13 => [(32, 30), (64, 4)]
  | 0x14 => [(32, 1), (60, 2)]
  | 0x20 => [(32, 25)]
  | 0x21 => [(32, 25)]
  | 0x22 => [(32, 25)]
  | 0x24 => [(32, 2), (36, 5)]
  | 0x25 => [(33, 1), (36, 5)]
  | 0x30 => [(32, 3), (36, 5), (42, 10)]
  | 0x40 => [(32, 3), (36, 20)]
  | 0x41 => [(32, 3)]
  | 0x42 => [(32, 2), (36, 4)]
  | 0x50 => [(32, 3), (36, 8)]
  | 0x51 => [(32, 3), (36, 8)]
  | 0x60 => [(32, 3)]
  | 0x61 => [(32, 1), (34, 2)]
  | 0x70 => [(32, 4)]
  | 0x71 => [(32, 4)]
  | 0x80 => [(32, 38), (72, 4)]
  | 0x81 => [(32, 5)]
  | 0x82 => [(32, 4)]
  | _ => []

/-- Reserved bits within named bytes, as offset and the values below which the byte must stay. -/
def opBits (op : Nat) : List (Nat × Nat × Nat) :=
  match op with
  | 0x01 => [(32, 1, 2)]
  | 0x10 => [(39, 1, 128)]
  | 0x11 => [(39, 1, 128)]
  | 0x12 => [(39, 1, 128)]
  | 0x13 => [(39, 1, 128)]
  | 0x14 => [(32, 1, 8)]
  | 0x24 => [(33, 1, 2)]
  | 0x25 => [(33, 1, 2)]
  | 0x40 => [(34, 1, 8)]
  | 0x41 => [(34, 1, 2)]
  | 0x80 => [(37, 1, 8), (72, 4, 2 ^ 20)]
  | 0x81 => [(36, 1, 2)]
  | _ => []

/-- Are reserved bytes and bits zero (R299, R318; 00 R6)? -/
def Cmd.reservedOk (c : Cmd) : Bool :=
  decide (c.field 1 1 < 2) && decide (c.field 5 3 = 0)
    && (List.range 96).all (fun i =>
      (opBytes c.opcode).any (fun r => decide (r.1 ≤ 32 + i) && decide (32 + i < r.1 + r.2)) || decide (c.field (32 + i) 1 = 0))
    && (opBits c.opcode).all (fun r => decide (c.field r.1 r.2.1 < r.2.2))

/-- Does the opcode use an input buffer, an output buffer? -/
def opIn (op : Nat) : Bool :=
  [0x10, 0x11, 0x12, 0x13, 0x14, 0x20, 0x21, 0x24, 0x25, 0x30, 0x40, 0x42, 0x51, 0x70].contains op
def opOut (op : Nat) : Bool := [0x10, 0x11, 0x12, 0x13, 0x14, 0x42, 0x50].contains op

/-- One buffer's address and length (R299). -/
def bufOk (addr len : Nat) (used : Bool) : Bool :=
  decide (addr < 2 ^ 62) && decide (addr % 8 = 0) && (decide (len ≠ 0) || decide (addr = 0))
    && (used || (decide (addr = 0) && decide (len = 0)))
def Cmd.buffersOk (c : Cmd) : Bool :=
  bufOk c.inAddr c.inLen (opIn c.opcode) && bufOk c.outAddr c.outLen (opOut c.opcode)

/-- Does the command name a collection? -/
def Cmd.namesColl (c : Cmd) : Bool :=
  let op := c.opcode
  if op = Op.rerank then decide (c.field 51 1 ≠ 1)
  else if op = Op.flush then decide (c.field 32 1 = 0)
  else decide (0x10 ≤ op) && decide (op ≤ 0x31)

/-- Step 3 of R319. -/
def State.collCheck (s : State) (c : Cmd) : Nat :=
  let b := c.collByte
  let st := s.collState b
  if c.namesColl then
    if 63 < b then Status.invalidCollection
    else
      let ok := if c.opcode = Op.collectionCreate then decide (st = 0)
        else if c.opcode = Op.bulkBuild then decide (st = 1)
        else decide (st = 1) || decide (st = 2)
      if ok then 0 else Status.invalidCollection
  else if b = 0xFF then 0
  else if b < 64 && decide (st ≠ 0) then Status.invalidField
  else Status.invalidCollection

/-- The rescore mode a search command asks for (R322). -/
def State.cmdMode (s : State) (c : Cmd) : Nat :=
  let sfl := c.field 39 1
  if bit sfl 3 then bits sfl 5 4 else s.cobj c.collByte 0x42

/-- The model handles a command names. -/
def State.cmdModels (s : State) (c : Cmd) : List Nat :=
  let op := c.opcode
  if op = Op.run || op = Op.modelEvict || op = Op.modelLoad then [c.field 32 2]
  else if 0x10 ≤ op && op ≤ 0x13 && c.namesColl then
    (if op = Op.encodeSearch then [c.field 48 2] else [])
      ++ (if s.cmdMode c = 2 then [orDefault (c.field 46 2) (s.cobj c.collByte 0x44)] else [])
  else []

def State.placement? (s : State) (id : Nat) : Option Placement := s.tensor.placements.find? (fun l => decide (l.id = id))

/-- The placement a command names. -/
def Cmd.placementId (c : Cmd) : Option Nat :=
  if c.opcode = Op.tierMove then some (c.field 32 2)
  else if c.opcode = Op.flush && c.field 32 1 = 1 then some (c.field 34 2)
  else none

/-- Step 4 of R319: ownership (11 R273), PASID (R344), rights over firmware (R343). -/
def State.accessOk (s : State) (c : Cmd) : Bool :=
  let op := c.opcode
  (match s.coll? c.collByte with
    | some k => !c.namesColl || decide (k.part = c.part)
    | none => true)
    && (decide (op ≠ Op.collectionCreate) || decide (c.field 32 1 = c.part))
    && (s.cmdModels c).all (fun h => match s.model? h with | some m => decide (m.part = c.part) | none => true)
    && (match c.placementId with
      | some i => (match s.placement? i with | some l => decide (l.part = c.part) | none => true)
      | none => true)
    && (!(decide (0x10 ≤ op) && decide (op ≤ 0x13)) || c.pasid.isSome)
    && (!(decide (op = Op.fwLoad) || decide (op = Op.fwCommit))
      || (decide (c.fn = 0) && (s.boot.recovery || s.boot.identityFailed || decide (s.obj 0x7000 2 = 1))))

/-- Objects an admin queue may read in recovery (17 R439). -/
def recoveryObject (index sub : Nat) : Bool :=
  (decide (0x1000 ≤ index) && decide (index ≤ 0x10FF)) || (decide (index = 0x7000) && decide (5 ≤ sub) && decide (sub ≤ 0x0D))

/-- Does the restricted service of recovery (17 R439) or of a failed identity (17 R443) take the command? -/
def State.serviceOk (s : State) (c : Cmd) : Bool :=
  let op := c.opcode
  let reset := decide (op = Op.objWrite) && decide (c.field 32 2 = 0x2000) && decide (c.field 34 1 = 1)
  let fw := decide (op = Op.nop) || decide (op = Op.fwLoad) || decide (op = Op.fwCommit)
  if s.boot.recovery then fw || reset || (decide (op = Op.objRead) && recoveryObject (c.field 32 2) (c.field 34 1))
  else if s.boot.identityFailed then fw || reset || decide (op = Op.objRead)
  else true

/-- Step 6 of R319: the state of the target. -/
def State.stateOk (s : State) (c : Cmd) : Bool :=
  let op := c.opcode
  let items := c.isMutation || (decide (op = Op.rehome) && !bit (c.field 33 1) 0)
  let mode := s.obj 0x5000 4
  s.serviceOk c
    && (match s.coll? c.collByte with
      | some k => !c.namesColl || decide (op = Op.collectionDrop) || decide (op = Op.bulkBuild) || decide (op = Op.flush)
          || (decide (k.state = 2) && (!(items || decide (op = Op.fetch)) || decide (k.repair = 0)))
      | none => true)
    && (!items || decide (s.units.fatalCause ≠ 6))
    && (!(decide (op = Op.tierMove) || decide (op = Op.flush)) || decide (mode = 0))
    && (!(decide (op = Op.fwLoad) || decide (op = Op.fwCommit))
      || s.cmds.all (fun d => decide (d.opcode ≠ (if op = Op.fwLoad then Op.fwCommit else Op.fwLoad))))

/-! ### Step 7: the fields of each opcode -/

/-- Attribute bits lie inside schema fields (R330; 03 R58). -/
def attrsOk (schema : List SchemaField) (attrs : Nat) : Bool :=
  (List.range 128).all (fun i => !bit attrs i
    || schema.any (fun f => decide (f.kind ≠ 0) && decide (f.low ≤ i) && decide (i < f.low + f.width)))

/-- Bytes of a supplied vector. -/
def Coll.givenLen (c : Coll) (fmt : Nat) : Nat := c.dims * fmtBytes fmt
/-- Length of an item record (R331). -/
def Coll.recordLen (c : Coll) (fmt : Nat) : Nat := roundUp (32 + c.givenLen fmt + c.payload) 64

/-- Is an encoder usable for a collection (09 R230)? -/
def Model.encodes (m : Model) (c : Coll) : Bool :=
  decide (m.pkg.kind = 1) && decide (m.pkg.outDims = c.dims) && decide (m.pkg.outFormat = c.format)

/-- Bytes of `tokens` tokens of a model's input. -/
def Model.inputLen (m : Model) (tokens : Nat) : Nat := rowLen m.pkg.inFormat (tokens * m.pkg.inDims)

def State.searchFieldsOk (s : State) (c : Cmd) (k : Coll) : Bool :=
  decide (c.field 51 1 = 0) && (s.searchParams c k).isSome
    && (decide (c.opcode ≠ Op.encodeSearch)
      || (match s.model? (c.field 48 2) with
        | some m => m.encodes k && decide (1 ≤ c.field 54 2) && decide (c.field 54 2 ≤ m.pkg.maxTokens)
        | none => false))

/-- RERANK form 1 (R328). -/
def Cmd.mergeFieldsOk (c : Cmd) : Bool :=
  let k := c.field 44 2
  let e := if bit (c.field 39 1) 1 then 24 else 16
  decide (2 ≤ c.field 53 1) && decide (c.field 53 1 ≤ 16) && decide (1 ≤ k) && decide (k ≤ 1024)
    && decide (c.field 39 1 % 2 = 0) && decide (c.field 39 1 < 4)
    && decide (c.field 32 4 = 0) && decide (c.field 42 2 = 0) && decide (c.field 46 2 = 0) && decide (c.field 48 2 = 0)
    && decide (c.field 52 1 = 0) && decide (c.field 54 2 = 0) && decide (c.field 56 4 = 0) && decide (c.field 60 2 = 0)
    && decide (c.field 64 4 = 0) && decide (128 ≤ c.inLen) && decide (128 + k * e ≤ c.outLen)

/-- FETCH (R329). -/
def Cmd.fetchFieldsOk (c : Cmd) (k : Coll) : Bool :=
  let what := c.field 32 1
  let n := c.field 60 2
  let len := 48 + (if bit what 0 then roundUp k.slotLen 8 else 0) + (if bit what 1 then k.payload else 0)
  decide (1 ≤ n) && decide (n ≤ 1024) && decide (c.inLen = 8 * n) && decide (c.outLen = n * len)
    && (!bit what 1 || decide (k.payload ≠ 0))

/-- INSERT, UPSERT and DELETE (R330). -/
def Cmd.mutationFieldsOk (c : Cmd) (k : Coll) : Bool :=
  let vf := c.field 56 1
  if c.opcode = Op.delete then decide (vf = 0) && decide (c.field 40 16 = 0)
  else attrsOk k.schema (c.field 40 16) && decide (vf ≤ 4) && decide (c.inLen = k.givenLen vf + k.payload)

/-- BULK_BUILD (R333) and REHOME (R334). -/
def Cmd.buildFieldsOk (c : Cmd) (k : Coll) : Bool :=
  let form := c.field 32 1
  let n := c.field 36 4
  let vf := c.field 40 1
  (decide (n ≠ 0) || bit (c.field 33 1) 0) && (decide (k.buildForm = none) || decide (k.buildForm = some form) || decide (n = 0))
    && (match form with
      | 0 => decide (n ≤ 65536) && decide (vf ≤ 4) && decide (c.inLen = n * k.recordLen vf)
      | 1 => decide (n ≤ 262144) && decide (vf = 0) && decide (c.inLen = 4096 * n)
      | _ => false)
def Cmd.rehomeFieldsOk (c : Cmd) (k : Coll) : Bool :=
  let n := c.field 36 4
  let vf := c.field 40 1
  if bit (c.field 33 1) 0 then decide (n = 0) && decide (vf = 0) && decide (c.inLen = 0)
  else decide (1 ≤ n) && decide (n ≤ 65536) && decide (vf ≤ 4) && decide (c.inLen = n * k.recordLen vf)

/-- The collection that COLLECTION_CREATE asks for (R335), before its schema and projection are read. -/
def Cmd.newColl (c : Cmd) : Coll :=
  { num := c.collByte, state := 1, part := c.field 32 1, dims := c.field 36 2, format := c.field 33 1
    metric := c.field 34 1, sketchBits := c.field 38 2, degree := c.field 40 1, payload := c.field 42 2
    capacity := c.field 44 8, schema := [], proj := [], thresh := [], entrySet := [], segments := 0, nodesIssued := 0
    skipped := [], dir := [], tombs := [], gens := [], retired := [], mapBase := 0, buckets := [], retiredBuckets := []
    jBase := 0, rem := [], nextSeq := 0, segBase := 0, workBase := 0, hbmCharged := 0
    tilesReserved := 0, hopHistory := [], repair := 0, buildForm := none, imageTiles := 0, leftOut := []
    descVersion := 0, dropTick := 0 }

/-- The ranges of R51 and the record limit of R57. -/
def Coll.rangesOk (k : Coll) : Bool :=
  decide (k.part ≤ 15) && decide (16 ≤ k.dims) && decide (k.dims ≤ 4096) && decide (k.dims % 16 = 0)
    && decide (k.format ≤ 4) && (decide (k.format ≠ 4) || decide (k.dims ≤ 1024)) && decide (k.metric ≤ 2)
    && (decide (k.sketchBits = 256) || decide (k.sketchBits = 512) || decide (k.sketchBits = 1024))
    && decide (16 ≤ k.degree) && decide (k.degree ≤ 64) && decide (k.degree % 8 = 0)
    && decide (k.payload ≤ 256) && decide (k.payload % 8 = 0) && decide (1 ≤ k.capacity) && decide (k.capacity ≤ 2 ^ 34)
    && decide (k.recBytes ≤ 4064)

def Cmd.createFieldsOk (c : Cmd) : Bool :=
  let k := c.newColl
  k.rangesOk && decide (c.inLen = 128 + 2 * k.sketchBits * k.dims + 4 * k.sketchBits)

/-- MODEL_LOAD (R337), MODEL_EVICT (R338), RUN (R339). -/
def State.loadFieldsOk (s : State) (c : Cmd) : Bool :=
  let h := c.field 32 2
  let fl := c.field 34 1
  let n := c.field 36 4
  decide (h < 1024) && (s.model? h).isNone && decide (1 ≤ n) && decide (c.inLen = 4096 * n)
    && (if bit fl 2 then decide (c.field 48 8 = 4096 * n) && decide (c.field 40 8 < 2 ^ 62) && decide (c.field 40 8 % 8 = 0)
        else decide (c.field 40 8 = 0) && decide (c.field 48 8 = 0))
    && !(bit fl 1 && bit fl 2)
def State.runFieldsOk (s : State) (c : Cmd) : Bool :=
  match s.model? (c.field 32 2) with
  | some m =>
    let n := c.field 36 4
    decide (1 ≤ n) && decide (n ≤ m.pkg.maxTokens) && decide (c.inLen = m.inputLen n)
  | none => false

/-- TIER_MOVE (R341) and FLUSH (R342). -/
def State.moveFieldsOk (s : State) (c : Cmd) : Bool :=
  match s.placement? (c.field 32 2) with
  | some l =>
    let h := c.field 34 1
    (decide (l.kind = 1) || decide (l.kind = 2)) && decide (1 ≤ h) && decide (h ≤ 4) && decide (h ≠ l.home)
      && (decide (l.kind = 1) || decide (h ≠ 1))
  | none => false
def State.flushFieldsOk (s : State) (c : Cmd) : Bool :=
  match c.field 32 1 with
  | 0 => decide (c.field 34 2 = 0)
  | 1 => (s.placement? (c.field 34 2)).isSome
  | 2 => decide (c.field 34 2 = 0)
  | _ => false

/-- FW_LOAD (R343). -/
def Cmd.fwLoadOk (c : Cmd) : Bool :=
  let o := c.field 32 4
  decide (o % 4096 = 0) && decide (c.inLen % 4096 = 0) && decide (c.inLen ≤ 1048576) && decide (o + c.inLen ≤ 67108864)

/-- NOP (R346). -/
def Cmd.nopOk (c : Cmd) : Bool :=
  !bit (c.field 32 1) 0 || (decide (1 ≤ c.field 36 4) && decide (c.field 36 4 ≤ 10000000))

/-- Step 7 of R319 at the fetch. The fields of object and queue commands are judged at their effect. -/
def State.fieldsOk (s : State) (c : Cmd) : Bool :=
  let op := c.opcode
  let onColl (f : Coll → Bool) : Bool := match s.coll? c.collByte with | some k => f k | none => false
  if op = Op.rerank && c.field 51 1 = 1 then c.mergeFieldsOk
  else if 0x10 ≤ op && op ≤ 0x13 then onColl (s.searchFieldsOk c)
  else if op = Op.nop then c.nopOk
  else if op = Op.fetch then onColl c.fetchFieldsOk
  else if c.isMutation then onColl c.mutationFieldsOk
  else if op = Op.bulkBuild then onColl c.buildFieldsOk
  else if op = Op.rehome then onColl c.rehomeFieldsOk
  else if op = Op.collectionCreate then c.createFieldsOk
  else if op = Op.modelLoad then s.loadFieldsOk c
  else if op = Op.modelEvict then (s.model? (c.field 32 2)).isSome
  else if op = Op.run then s.runFieldsOk c
  else if op = Op.tierMove then s.moveFieldsOk c
  else if op = Op.flush then s.flushFieldsOk c
  else if op = Op.fwLoad then c.fwLoadOk
  else true

/-- The sequence a command needs when it is fetched: its model and tokens (09 R234). -/
def State.cmdSequence (s : State) (c : Cmd) : Option (Model × Nat) :=
  if c.opcode = Op.run then (s.model? (c.field 32 2)).map (fun m => (m, c.field 36 4))
  else if c.opcode = Op.encodeSearch then (s.model? (c.field 48 2)).map (fun m => (m, c.field 54 2))
  else none

/-- The first check of R319 that fails, or SUCCESS. -/
def State.checkEntry (s : State) (c : Cmd) : Nat :=
  let op := c.opcode
  if !opKnown op || !(opAnyQueue op || opAdmin op == c.admin) then Status.invalidOpcode
  else if !c.reservedOk || !c.buffersOk then Status.invalidField
  else if s.collCheck c ≠ 0 then s.collCheck c
  else if !s.accessOk c then Status.accessDenied
  else if !s.stateOk c then Status.notReady
  else if (op = Op.insert || op = Op.upsert) && c.field 32 8 = 2 ^ 64 - 1 then Status.invalidField
  else if !s.fieldsOk c then Status.invalidField
  else
    match s.cmdSequence c with
    | some (m, n) => if s.quotaHbm c.part < m.reservation n then Status.quotaExceeded else Status.success
    | none => Status.success

/-- The words of a command that fails at its checks: an item named by the reserved id reports 7 (06 R144). -/
def Cmd.checkWords (c : Cmd) (st : Nat) : Done :=
  let d := c.failWords st
  if (c.opcode = Op.insert || c.opcode = Op.upsert) && c.field 32 8 = 2 ^ 64 - 1 && st = Status.invalidField
      && c.reservedOk && c.buffersOk then
    { d with dw7 := 7 }
  else d

/-! ### The fetch of an entry (R300, R301) -/

/-- Is the module in the stopped service or worse (18 R467)? -/
def State.stopped (s : State) : Bool := [1, 2, 3, 4, 5].contains s.units.fatalCause

/-! ### Room to stage a mutation (06 R148; 16 R406) -/

/-- Bytes of a mutation-journal record with its payload (06 R149). -/
def recordBytes (payload : Nat) : Nat := roundUp (64 + payload) 64

/-- Bytes of the mutation journal's ring (06 R149), and entries of the change log (04 R94). -/
def ringBytes : Nat := 137438953472
def changeLogSize : Nat := 1048576

/-- Tiles of a collection's remainder journal not yet programmed (06 R153). -/
def Coll.openTiles (c : Coll) : List Nat :=
  (((c.rem.filter (fun i => !i.programmed)).map (fun i => c.remTiles i.seq)).flatten).eraseDups

/-- Bytes of the journal record of a mutation. -/
def State.recordOf (s : State) (c : Cmd) : Nat :=
  match s.coll? c.collByte with
  | some k => if c.opcode = Op.delete then recordBytes 0 else recordBytes k.payload
  | none => recordBytes 0

/-- Bytes that a staged mutation holds: its record and its vector. -/
def State.stagedBytes (s : State) (c : Cmd) : Nat :=
  match s.coll? c.collByte with
  | some k => if c.opcode = Op.delete then recordBytes 0 else recordBytes k.payload + k.slotLen
  | none => recordBytes 0

def Cmd.isStaged (c : Cmd) : Bool :=
  match c.stage with
  | .staged _ => true
  | _ => false

/-- Bytes in use of the write buffer: records not yet programmed, staged mutations, open journal tiles. -/
def State.bufferUsed (s : State) : Nat :=
  sumBy (fun r => r.length) (s.wb.journal.drop (s.wb.journal.length - s.wb.unprogrammed))
    + sumBy (fun c => if c.isStaged then s.stagedBytes c else 0) s.cmds
    + 4096 * sumBy (fun k => k.openTiles.length) s.colls

/-- Bytes of the ring in use. -/
def State.ringUsed (s : State) : Nat := sumBy (fun r => r.length) s.wb.journal

/-- The next sequence number a collection may issue: numbers whose tile lies on a rod that is out are skipped (06 R153). -/
def State.nextSeq (s : State) (c : Coll) : Nat :=
  ((List.range (64 * (c.vecsPerTile + 1))).find? (fun i =>
    (c.remTiles (c.nextSeq + i)).all (fun t => s.rodIn (tileRod t)))).getD 0 + c.nextSeq

/-- Is the ring slot of a sequence number free of held items? -/
def Coll.slotFree (c : Coll) (q : Nat) : Bool := c.rem.all (fun i => decide (i.seq % c.ringSize ≠ q % c.ringSize))

/-- The next sequence number of a collection once n more have been issued. -/
def State.seqAfter (s : State) (k : Coll) : Nat → Nat
  | 0 => s.nextSeq k
  | n + 1 => s.nextSeq { k with nextSeq := s.seqAfter k n + 1 }

/-- Has the change log room for one more mutation beside those staged (04 R94)? -/
def State.logRoom (s : State) : Bool := decide (s.chg.length + (s.cmds.filter (fun d => d.isStaged)).length < changeLogSize)

/-- Is there room for a mutation of a collection beside those staged: its bytes in the write buffer, its record in the ring, an
entry of the change log, and, where it needs one, a sequence number whose slot no held item has (06 R148, R153)? -/
def State.roomFor (s : State) (k : Coll) (payload bytes : Nat) (number : Bool) : Bool :=
  let staged := s.cmds.filter (fun d => d.isStaged)
  let mine := (staged.filter (fun d => decide (d.collByte = k.num) && decide (d.opcode ≠ Op.delete))).length
  decide (s.bufferUsed + bytes + 1048576 ≤ s.wb.usable)
    && decide (s.ringUsed + sumBy (fun d => s.recordOf d) staged + recordBytes payload ≤ ringBytes)
    && s.logRoom && (!number || k.slotFree (s.seqAfter k mine))

/-- Room for an item of a REHOME, handled as an UPSERT (06 R170; 13 R334). -/
def State.upsertRoom (s : State) (k : Coll) : Bool := s.roomFor k k.payload (recordBytes k.payload + k.slotLen) true

/-- Does a REHOME wait for room for its next item? -/
def State.rehomeWaits (s : State) (c : Cmd) : Bool :=
  decide (c.opcode = Op.rehome) && !bit (c.field 33 1) 0
    && (match c.stage, s.coll? c.collByte with
      | .effect _, some k => !s.upsertRoom k
      | _, _ => false)

/-- Is there room to stage the mutation: buffer less the configuration journal's tile, ring, change log, number? -/
def State.stageRoom (s : State) (c : Cmd) : Bool :=
  match s.coll? c.collByte with
  | none => true
  | some k => s.roomFor k (if c.opcode = Op.delete then 0 else k.payload) (s.stagedBytes c) (decide (c.opcode ≠ Op.delete))

/-- A mutation waits to be staged for want of room. -/
def State.stagingWaits (s : State) : Bool :=
  s.cmds.any (fun c => c.isMutation && decide (c.stage = .formed) && !s.stageRoom c) || s.cmds.any s.rehomeWaits

/-- Count a fetch held by a full CQ, once for each entry held (R301). -/
def State.noteHold (s : State) (q : Sq) : State :=
  if q.heldSince.isSome then s
  else
    (s.modPort q.port (fun x => { x with cqFetchHolds := x.cqFetchHolds + 1 })).modSq q.qid (fun q => { q with
      heldSince := some s.now, stallCounted := false })

/-- The tail stamps of a queue whose head has moved on. -/
def Sq.advance (q : Sq) : Sq :=
  let h := (q.head + 1) % q.depth
  { q with
    head := h, heldSince := none, stallCounted := false, entryHeld := none, stageHeld := false, jobsSubmitted := q.jobsSubmitted + 1
    stamps := match q.stamps with
      | e :: es => if e.1 = h then es else e :: es
      | [] => [] }

/-- The command a fetched entry makes. -/
def State.newCmd (s : State) (q : Sq) (entry : Bytes) : Cmd where
  cid := s.nextCid
  sq := q.qid
  port := q.port
  fn := q.fn
  part := q.part
  cls := q.cls
  admin := q.admin
  pasid := q.pasid
  silent := false
  entry := entry
  stamp := match q.stamps with
    | e :: _ => e.2
    | [] => s.now
  fetchTick := s.now
  stage := .fetched
  inbuf := []
  item := none
  superseded := false
  judged := false
  flags := Flags.none
  restarted := false
  restartAt := none
  admTick := none
  waitTicks := match q.entryHeld with
    | some t => s.now - t
    | none => 0
  todo := none
  asked := []
  askTick := 0
  page := .none
  logWait := false
  dw5 := (s.port q.port).evCount
  dw6 := 0
  dw7 := 0

/-- Is the entry a NOP with its wait flag set (R307)? -/
def waitsNop (entry : Bytes) : Bool := decide (fieldAt entry 0 1 = Op.nop) && bit (fieldAt entry 32 1) 0

/-- Does the device fetch from a queue now? A lower power state is left first, except for a waiting NOP (R315). -/
def State.fetches (s : State) (q : Sq) (entry : Bytes) : Bool :=
  s.up && decide (q.state = .active) && decide (q.waiting ≠ 0) && !s.stopped
    && ((decide (s.ps.state = 0) && decide (s.ps.exitAt = none)) || waitsNop entry)

/-- Fetch an entry: reserve its completion slot, check it, and fail it or leave it to be executed. -/
def State.fetchEntry (s : State) (q : Sq) (entry : Bytes) : State :=
  let c := s.newCmd q entry
  let s := (s.modSq q.qid Sq.advance).modCq q.cq (fun x => { x with reserved := x.reserved + 1 })
  let s := { s with nextCid := s.nextCid + 1, cmds := s.cmds ++ [c] }
  let st := s.checkEntry c
  if st ≠ Status.success then s.finish c.cid (c.checkWords st)
  else
    match s.cmdSequence c, s.freeEntry? with
    | some (m, n), some e => s.addSeq e c m n none false []
    | _, _ => s

/-- Count a fetch held back for want of room to stage (06 R148), or of a sequence entry (09 R234), once for each entry. -/
def State.holdStage (s : State) (q : Sq) : State :=
  if q.stageHeld then s else (s.count 0x4000 8 1).modSq q.qid (fun q => { q with stageHeld := true })
def State.holdEntry (s : State) (q : Sq) : State :=
  if q.entryHeld.isSome then s
  else (s.count 0x5800 6 1).modSq q.qid (fun q => { q with entryHeld := some s.now })

/-- Queues in the precedence of R36: by port, then by id. -/
def Sq.before (x y : Sq) : Bool := decide (x.port.num < y.port.num) || (decide (x.port = y.port) && decide (x.qid < y.qid))

/-- Is a sequence entry free for a queue beside those that queues ahead of it wait for (01 R19; 09 R234)? -/
def State.entryFor (s : State) (q : Sq) : Bool :=
  s.freeEntry?.isSome && decide ((s.sqs.filter (fun y => y.entryHeld.isSome && y.before q)).length + s.tensor.seqs.length < 4096)

/-- Commands in the precedence of R36. -/
def cmdBefore (a b : Cmd) : Bool :=
  decide (a.port.num < b.port.num) || (decide (a.port = b.port)
    && (decide (a.sq < b.sq) || (decide (a.sq = b.sq) && decide (a.cid ≤ b.cid))))

/-- The device fetches the next entry of an SQ (R300, R301). A fetch is held when the CQ has no free slot, when a mutation
waits to be staged (06 R148), or when no sequence entry is free (09 R234). -/
def execEntryFetch (q : Nat) (entry : Bytes) (s : State) : Ans :=
  match s.sq? q with
  | none => .next s
  | some x =>
    match s.cq? x.cq with
    | none => .next s
    | some c =>
      let op := fieldAt entry 0 1
      if !s.fetches x entry then .next s
      else if c.free = 0 then .next (s.noteHold x)
      else if decide (0x20 ≤ op) && decide (op ≤ 0x22) && s.stagingWaits then .next (s.holdStage x)
      else if (decide (op = Op.run) || decide (op = Op.encodeSearch)) && !s.entryFor x then .next (s.holdEntry x)
      else .next (s.fetchEntry x entry)

/-- More than hif_cq_stall_limit consecutive ticks held: an overrun (R301). -/
def execCqStall (q : Nat) (s : State) : Ans :=
  match s.sq? q with
  | none => .next s
  | some x =>
    match x.heldSince with
    | some t =>
      if !x.stallCounted && decide (s.obj 0x2010 2 < s.now - t) then
        .next (s.modSq q (fun x => { x with overruns := x.overruns + 1, stallCounted := true }))
      else .next s
    | none => .next s

/-- A read of SQ entries that fails halts the SQ and writes one completion (R309). It needs a slot like any other. -/
def execSqReadError (q : Nat) (s : State) : Ans :=
  match s.sq? q with
  | none => .next s
  | some x =>
    match s.cq? x.cq with
    | none => .next s
    | some c =>
      if s.fetches x [] && decide (c.free ≠ 0) then
        let s := (s.modSq q (fun x => { x with state := .halted })).modCq x.cq (fun c => { c with reserved := c.reserved + 1 })
        let s := s.modPort x.port (fun p => { p with
          sqsHalted := p.sqsHalted + 1, admin := if x.admin then { p.admin with halted := true } else p.admin })
        let st := match x.stamps with
          | e :: _ => e.2
          | [] => s.now
        .next (s.post x 0xFFFF false ⟨Status.invalidField, 0, st, 0, x.head, 1⟩)
      else .next s

/-! ### NOP (R307, R346) -/

/-- NOP's words: the event count and the pending mask of its port. -/
def State.finishNop (s : State) (c : Cmd) : State :=
  let p := s.port c.port
  s.finish c.cid ⟨Status.success, 0, c.stamp, p.evCount % 256, p.pending.toNat, 0⟩

/-- NOP completes in a tick after its fetch; with wait set it begins to wait. -/
def execNop (cid : Nat) (s : State) : Ans :=
  match s.cmd? cid with
  | none => .next s
  | some c =>
    if c.stage = .fetched && decide (c.opcode = Op.nop) then
      if bit (c.field 32 1) 0 then
        .next (s.modCmd cid (fun c => { c with stage := .nopWait c.dw5 (c.fetchTick + c.field 36 4) }))
      else if c.fetchTick < s.now then .next (s.finishNop c)
      else .next s
    else .next s

/-- A waiting NOP ends at the first tick after its port's event count changes, or at its limit. -/
def execNopWaitEnd (cid : Nat) (s : State) : Ans :=
  match s.cmd? cid with
  | none => .next s
  | some c =>
    match c.stage with
    | .nopWait _ limit => if limit ≤ s.now then .next (s.finishNop c) else .next s
    | _ => .next s

/-- The limit of a waiting NOP once its port's event count has changed: the tick that begins (R307). -/
def Cmd.nopSeen (s : State) (c : Cmd) : Cmd :=
  match c.stage with
  | .nopWait n limit => if (s.port c.port).evCount ≠ n then { c with stage := .nopWait n (min limit s.now) } else c
  | _ => c

/-! ### Queues (R293, R294, R311, R344, R345) -/

/-- The admin pair of a port, and its range of ids (R293). -/
def State.adminQid (s : State) (p : Port) : Nat :=
  match p with
  | .A => 0
  | .B => s.boot.split
def State.ownsQid (s : State) (p : Port) (q : Nat) : Bool :=
  match p with
  | .A => decide (q < s.boot.split)
  | .B => decide (s.boot.split ≤ q) && decide (q < 262144)

/-- A base is a multiple of 4,096 below 2^62. -/
def baseOk (a : Nat) : Bool := decide (a % 4096 = 0) && decide (a < 2 ^ 62)
def depthOk (d : Nat) : Bool := decide (2 ≤ d) && decide (d ≤ 65536)

/-- Judge a QUEUE_CREATE. -/
def State.judgeQueueCreate (s : State) (c : Cmd) : Nat :=
  let q := c.field 32 4
  let fn := c.field 36 1
  let fl := c.field 37 1
  let part := c.field 38 1
  let cls := c.field 39 1
  let own := bit fl 0
  let cqOk := if own then
      decide (c.field 52 4 = q) && (s.cq? q).isNone && baseOk (c.field 56 8) && depthOk (c.field 64 4)
    else
      decide (c.field 56 8 = 0) && decide (c.field 64 4 = 0)
        && (match s.cq? (c.field 52 4) with
          | some x => decide (x.port = c.port) && decide (x.fn = fn) && decide (x.part = part)
              && (s.sqs.all (fun y => !(decide (y.qid = x.qid) && y.deleteCq)))
              && decide (x.qid ≠ s.adminQid c.port)
          | none => false)
  if fn ≤ (s.port c.port).vfs && part ≤ 15 && !s.partLists part c.port fn then Status.accessDenied
  else if s.ownsQid c.port q && decide (q ≠ s.adminQid c.port) && (s.sq? q).isNone && decide (fn ≤ (s.port c.port).vfs)
      && decide (part ≤ 15) && recEnabled (s.partRec part) && decide (cls ≤ 7)
      && decide (recClassWeight (s.partRec part) cls ≠ 0) && baseOk (c.field 40 8) && depthOk (c.field 48 4) && cqOk
      && decide (c.field 68 2 < (if fn = 0 then 2048 else 64)) then
    Status.success
  else Status.invalidField

/-- A new SQ, with head, tail and counts at 0. -/
def newSq (qid : Nat) (p : Port) (fn part cls cq base depth : Nat) (admin : Bool) (pasid : Option Nat) : Sq where
  qid := qid
  state := .active
  port := p
  fn := fn
  part := part
  cls := cls
  cq := cq
  base := base
  depth := depth
  head := 0
  tail := 0
  admin := admin
  pasid := pasid
  stamps := []
  heldSince := none
  stallCounted := false
  overruns := 0
  entryHeld := none
  stageHeld := false
  jobsSubmitted := 0
  jobsCompleted := 0
  jobsFailed := [0, 0, 0, 0, 0, 0]
  deleteCq := false
  drain := none

/-- A new CQ; its first pass has phase 1 (R303). -/
def newCq (qid : Nat) (p : Port) (fn part base depth : Nat) (ien : Bool) (vector : Nat) : Cq :=
  ⟨qid, p, fn, part, base, depth, 0, 0, 0, true, ien, vector, false⟩

/-- QUEUE_CREATE takes effect (R344). -/
def State.applyQueueCreate (s : State) (c : Cmd) : State :=
  let st := s.judgeQueueCreate c
  if st ≠ Status.success then s.fail c.cid st
  else
    let q := c.field 32 4
    let fl := c.field 37 1
    let pasid := if bit fl 2 then some (c.field 72 4 % 2 ^ 20) else none
    let sq := newSq q c.port (c.field 36 1) (c.field 38 1) (c.field 39 1) (c.field 52 4) (c.field 40 8) (c.field 48 4) false pasid
    let cq := newCq q c.port (c.field 36 1) (c.field 38 1) (c.field 56 8) (c.field 64 4) (bit fl 1) (c.field 68 2)
    let s := { s with sqs := s.sqs ++ [sq], cqs := if bit fl 0 then s.cqs ++ [cq] else s.cqs }
    s.finish c.cid ⟨Status.success, 0, c.stamp, 0, 0, 0⟩

/-- May a QUEUE_DELETE or QUEUE_RESET act on the queue it names? -/
def State.judgeQueueCut (s : State) (c : Cmd) : Nat :=
  match s.sq? (c.field 32 4) with
  | none => Status.invalidField
  | some q =>
    let own := (s.cq? q.qid).isSome
    let shared := s.sqs.any (fun y => decide (y.cq = q.qid) && decide (y.qid ≠ q.qid))
    if decide (q.port ≠ c.port) || q.admin || !(decide (q.state = .active) || decide (q.state = .halted)) then
      Status.invalidField
    else if c.opcode = Op.queueDelete && bit (c.field 36 1) 0 && (shared || !own) then Status.invalidField
    else Status.success

/-- QUEUE_DELETE or QUEUE_RESET takes effect; it completes after every completion of the commands it cuts off. -/
def State.applyQueueCut (s : State) (c : Cmd) : State :=
  let st := s.judgeQueueCut c
  let q := c.field 32 4
  if st ≠ Status.success then s.fail c.cid st
  else
    (s.modCmd c.cid (fun c => { c with stage := .draining q })).cutQueue q (decide (c.opcode = Op.queueDelete))
      (decide (c.opcode = Op.queueDelete) && bit (c.field 36 1) 0) (some c.cid)

/-- QUEUE_CREATE is registered to take effect in phase 2 of the next tick. -/
def execQueueCreate (cid : Nat) (s : State) : Ans :=
  match s.ready? cid Op.queueCreate with
  | none => .next s
  | some c => .next (s.orderCmd c 0)

/-- QUEUE_DELETE is registered to take effect in phase 2 of the next tick. -/
def execQueueDelete (cid : Nat) (s : State) : Ans :=
  match s.ready? cid Op.queueDelete with
  | none => .next s
  | some c => .next (s.orderCmd c 0)

/-- QUEUE_RESET is registered to take effect in phase 2 of the next tick. -/
def execQueueReset (cid : Nat) (s : State) : Ans :=
  match s.ready? cid Op.queueReset with
  | none => .next s
  | some c => .next (s.orderCmd c 0)

/-! ### MSI-X (R304) -/

/-- At the end of a tick each CQ that got an entry calling for it sends its vector's message once. -/
def State.sendMsix (s : State) : State :=
  let on := s.cqs.filter (fun c => c.signal)
  let s := { s with cqs := s.cqs.map (fun c => { c with signal := false }) }
  let s := on.foldl (fun s c => s.sendVector c.port c.fn c.vector) s
  [Port.A, Port.B].foldl (fun s p =>
    let free := (s.port p).vecPending.filter (fun v => !(s.port p).vecMask.contains v)
    let s := s.modPort p (fun x => { x with vecPending := x.vecPending.filter (fun v => !free.contains v) })
    free.foldl (fun s v => s.sendVector p v.1 v.2) s) s

end Sys2Proof.Machine
end

