-- ==== Sys2Proof/Machine/System.lean ====
section
/-! DEFINITION. The structures on flash outside the segments: the tiles of the external-id map, the records and blocks of the
system region - mutation journal, segment-directory journal, collection descriptors, configuration journal (03 R54, R60, R67,
R70, R71; 06 R149; 14 R370; 18 R465). -/
namespace Sys2Proof.Machine

/-- Format codes of these tiles (03 R54). -/
abbrev TileFmt.bucket : Nat := 0x04
abbrev TileFmt.directory : Nat := 0x05
abbrev TileFmt.descriptor : Nat := 0x07
abbrev TileFmt.config : Nat := 0x20

/-- The segment field of tiles outside a segment, and the collection field of tiles of none. -/
def noSegment : Nat := 0xFFFFFFFF
def noCollection : Nat := 0xFF

/-! ### The external-id map (03 R70) -/

/-- The 16 bytes of a map entry. -/
def MapEntry.bytes (e : MapEntry) : Bytes :=
  leBytes 8 e.ext.toNat ++ leBytes 5 (encodeLoc ⟨e.node, e.gen⟩) ++ leBytes 1 e.state ++ zeros 2

/-- The tile of bucket `b`, at logical tile E + b. -/
def Coll.bucketTile (k : Coll) (b : Nat) : Bytes :=
  let es := bucketOf k b
  mkTile ((es.take 254).map (fun e => e.bytes)).flatten (k.mapBase + b) k.num TileFmt.bucket
    (es.filter (fun e => decide (e.state ≠ 0))).length noSegment 0

/-- The bucket tiles, as (logical tile, bytes), that differ between two maps of a collection. -/
def Coll.bucketsChanged (k old : Coll) : List (Nat × Bytes) :=
  ((k.buckets.filter (fun b => decide (bucketOf old b.1 ≠ b.2))).map (fun b => (k.mapBase + b.1, k.bucketTile b.1)))

/-- Ask for the programs of the map tiles that changed since `old`. -/
def State.askBuckets (s : State) (old : Coll) : State :=
  match s.coll? old.num with
  | none => s
  | some k => s.askTiles .alone none k.part (k.bucketsChanged old)

/-! ### Blocks of the system region (03 R54; 18 R465) -/

/-- The numbers of the two copies of block pair `m`: on rods of different channel chips. -/
def blockPair (m : Nat) : Nat × Nat := (128 * (m / 64) + m % 64, 128 * (m / 64) + 64 + (m + 8) % 64)

/-- The die of a block. -/
def blockDie (n : Nat) : Nat := 2 * (n % 64) + n / 64 % 2

/-- The next block pair whose rods are in service. The manual does not say how blocks are numbered; they are taken in ascending
order, never one twice (DESIGN CHOICE, log entry 83). -/
def State.nextPair (s : State) : Nat :=
  ((List.range 64).find? (fun i => let p := blockPair (s.sys.next + i); s.rodIn (p.1 % 64) && s.rodIn (p.2 % 64))).getD 0 + s.sys.next

/-- Ask for the programs of both copies of a block. `make` gives a copy's bytes from its number. -/
def State.askBlock (s : State) (u : SysUse) (cid : Option Nat) (make : Nat → Bytes) : State :=
  let m := s.nextPair
  let p := blockPair m
  let s := { s with sys := { s.sys with next := m + 1 } }
  (s.askGrant (.block u p.1 (make p.1)) true 1 cid).askGrant (.block u p.2 (make p.2)) true 1 cid

/-- A lost copy is written anew from the other, on a chip apart from it (18 R465). -/
def State.rewriteCopy (s : State) (n : Nat) : State :=
  match s.sys.blocks.find? (fun b => decide (b.1 = n)) with
  | none => s
  | some b =>
    let s := { s with sys := { s.sys with blocks := s.sys.blocks.filter (fun x => decide (x.1 ≠ n)) } }
    match s.sys.blocks.find? (fun x => decide (x.2.use = b.2.use) && decide (x.2.bytes.take 4064 = b.2.bytes.take 4064)) with
    | none => s
    | some twin =>
      let m := s.nextPair
      let p := blockPair m
      let at_ := if p.1 % 64 / 8 = twin.1 % 64 / 8 then p.2 else p.1
      let bs := match b.2.use with
        | .records _ => twin.2.bytes
        | _ => patch twin.2.bytes 4068 (leBytes 8 at_)
      ({ s with sys := { s.sys with next := m + 1 } }).askGrant (.block b.2.use at_ bs) true 1 none

/-- Is a grant a block of this use that its die has not reported? -/
def Grant.blocks (g : Grant) (u : SysUse) : Bool :=
  !g.releasing && (match g.kind with
    | .block v _ _ => decide (v = u)
    | _ => false)
def State.blocking (s : State) (u : SysUse) : Bool := s.pwr.grants.any (fun g => g.blocks u)

/-- A block stands on flash. -/
def State.putBlock (s : State) (u : SysUse) (n : Nat) (bs : Bytes) : State :=
  let b : SysBlock := ⟨u, bs⟩
  let kept := s.sys.blocks.filter (fun x => decide (x.1 ≠ n))
  let t : State := { s with sys := { s.sys with blocks := kept ++ [(n, b)] } }
  t.countNand 4096

/-- Blocks that nothing needs any more are erased, one grant each. -/
def State.dropBlocks (s : State) (p : SysUse → Bool) : State :=
  (s.sys.blocks.filter (fun b => p b.2.use && !s.pwr.grants.any (fun g => !g.releasing && decide (g.kind = .eraseBlock b.1)))).foldl
    (fun s b => s.askGrant (.eraseBlock b.1) true 1 none) s

/-- Of the blocks with a directory entry of one segment only the last pair is needed: the others are erased. -/
def State.dropOldEntries (s : State) (coll g : Nat) : State :=
  let mine := s.sys.blocks.filter (fun b => decide (b.2.use = .entry coll g) && decide (b.2.bytes ≠ []))
  (mine.take (mine.length - 2)).foldl (fun s b => s.askGrant (.eraseBlock b.1) true 1 none) s

/-- The collection whose blocks these are. -/
def SysUse.coll? (u : SysUse) : Option Nat :=
  match u with
  | .entry n _ => some n
  | .slice n _ => some n
  | .descHead n => some n
  | .descBody n => some n
  | .records _ => none
  | .config => none

/-- What an erased block held is gone. -/
def State.eraseBlock (s : State) (n : Nat) : State :=
  { s with sys := { s.sys with blocks := s.sys.blocks.filter (fun b => decide (b.1 ≠ n)) } }

/-- Does a block pass the check of its trailer: crc, its own number, format, version (03 R55)? -/
def blockOk (n fmt : Nat) (bs : Bytes) : Bool :=
  decide (bs.length = 4096) && decide (fieldAt bs 4064 4 = (crc32c (bs.take 4064)).toNat) && decide (fieldAt bs 4068 8 = n)
    && decide (fieldAt bs 4077 1 = fmt) && decide (fieldAt bs 4079 1 = 1) && decide (fieldAt bs 4080 4 = noSegment)
    && zeroAt bs 4088 8

/-! ### The segment-directory journal (03 R67, R69) -/

/-- The 64 bytes of a directory entry of a collection. -/
def DirEntry.bytes (d : DirEntry) (coll : Nat) : Bytes :=
  let b := leBytes 1 coll ++ leBytes 1 (1 + 2 * b2n d.dropped) ++ zeros 2 ++ leBytes 4 d.segment ++ leBytes 4 d.generation
    ++ leBytes 4 d.issued ++ leBytes 8 d.bNode ++ leBytes 8 d.bVec ++ leBytes 8 d.bPay ++ leBytes 2 d.slice ++ zeros 2
    ++ leBytes 8 d.switchTick ++ leBytes 4 d.carryPass ++ leBytes 4 d.tombstoned
  b ++ leBytes 4 (crc32c b).toNat

/-- The entry that 64 bytes hold for a collection: none with a bad crc, or that is not live. -/
def readEntry (coll : Nat) (b : Bytes) : Option DirEntry :=
  if decide (fieldAt b 60 4 = (crc32c (b.take 60)).toNat) && decide (fieldAt b 0 1 = coll) && bit (fieldAt b 1 1) 0 then
    some { segment := fieldAt b 4 4, generation := fieldAt b 8 4, issued := fieldAt b 12 4, bNode := fieldAt b 16 8
           bVec := fieldAt b 24 8, bPay := fieldAt b 32 8, slice := fieldAt b 40 2, switchTick := fieldAt b 44 8
           carryPass := fieldAt b 52 4, tombstoned := fieldAt b 56 4, dropped := bit (fieldAt b 1 1) 1 }
  else none

/-- A journal tile with one entry of the 63 it has room for. The journal's length has no stated value, so it never wraps and
its wrap count is 0 (log entry 83). -/
def entryTile (coll : Nat) (d : DirEntry) (n : Nat) : Bytes :=
  mkTile (d.bytes coll) n noCollection TileFmt.directory 1 noSegment 0

/-- The entries of a collection in a block. -/
def SysBlock.entries (b : SysBlock) (n coll : Nat) : List DirEntry :=
  if blockOk n TileFmt.directory b.bytes then
    (List.range (min 63 (fieldAt b.bytes 4078 1))).filterMap (fun i => readEntry coll (slice b.bytes (64 * i) 64))
  else []

/-- The entries of a collection that the directory journal holds, in the order written. -/
def State.journalEntries (s : State) (coll : Nat) : List DirEntry :=
  (s.sys.blocks.map (fun b => match b.2.use with
    | .entry _ _ => b.2.entries b.1 coll
    | _ => [])).flatten

/-- The entry of a segment that takes effect at boot: the highest generation, of equal ones the last written (03 R69). -/
def newestEntry : List DirEntry → Option DirEntry
  | [] => none
  | d :: ds =>
    match newestEntry ds with
    | some e => if e.generation < d.generation then some d else some e
    | none => some d

/-! ### The tables of a segment (03 R71) -/

/-- Byte j of the tombstone bitmap and of the generation table of a segment. -/
def Coll.tombByte (k : Coll) (g j : Nat) : Byte :=
  BitVec.ofNat 8 (sumBy (fun i => 2 ^ i * b2n (k.tombs.contains (g * 1048576 + 8 * j + i))) (List.range 8))
def Coll.genByte (k : Coll) (g j : Nat) : Byte :=
  BitVec.ofNat 8 (k.gen (g * 1048576 + 2 * j) % 16 + 16 * (k.gen (g * 1048576 + 2 * j + 1) % 16))

/-- The slices of a segment: 128 KiB of the bitmap, then 512 KiB of the table. -/
def Coll.sliceBytes (k : Coll) (g : Nat) : Bytes :=
  (List.range 131072).map (fun j => k.tombByte g j) ++ (List.range 524288).map (fun j => k.genByte g j)

/-- The slices of a segment go to the directory journal; those it held before are erased (06 R162 step 3). -/
def State.askSlices (s : State) (k : Coll) (g : Nat) : State :=
  let s := s.dropBlocks (fun u => decide (u = .slice k.num g))
  let bs := k.sliceBytes g
  (List.range (ceilDiv 655360 4064)).foldl (fun s i =>
    s.askBlock (.slice k.num g) none (fun n => mkTile (slice bs (4064 * i) 4064) n noCollection TileFmt.directory 0 noSegment 0)) s

/-- The slices that no directory entry has, lowest first. Which slice a segment takes is the model's choice (log entry 84). -/
def State.freeSlices (s : State) (n : Nat) : List Nat :=
  let used := (s.colls.map (fun k => k.dir.map (fun d => d.slice))).flatten
  ((List.range (used.length + n)).filter (fun i => !used.contains i)).take n

/-! ### Collection descriptors (03 R60) -/

/-- The first tile of a descriptor: the schema and the entry set. The manual does not say how a descriptor is laid out (log
entry 83). -/
def Coll.descHead (k : Coll) : Bytes :=
  fit 128 ((k.schema.map (fun f => leBytes 1 f.low ++ leBytes 1 f.width ++ leBytes 1 f.kind ++ zeros 5)).flatten)
    ++ (k.entrySet.map (fun l => leBytes 5 (encodeLoc l))).flatten

/-- The rest of it: the projection and the thresholds. -/
def Coll.descBody (k : Coll) : Bytes :=
  (k.proj.map (fun p => leBytes 2 p.toNat)).flatten ++ (k.thresh.map (fun t => leBytes 4 t.toNat)).flatten

def Coll.descTile (k : Coll) (payload : Bytes) (n : Nat) : Bytes :=
  mkTile payload n k.num TileFmt.descriptor k.entrySet.length noSegment k.descVersion

/-- The tile that holds the entry set is written anew, and the one before it is erased (06 R162 step 4). -/
def State.askEntrySet (s : State) (k : Coll) : State :=
  (s.dropBlocks (fun u => decide (u = .descHead k.num))).askBlock (.descHead k.num) none (k.descTile k.descHead)

/-- All tiles of the descriptor of a new collection. -/
def State.askDescriptor (s : State) (k : Coll) : State :=
  let body := k.descBody
  (List.range (ceilDiv body.length 4064)).foldl (fun s i =>
    s.askBlock (.descBody k.num) none (k.descTile (slice body (4064 * i) 4064))) (s.askEntrySet k)

/-! ### The mutation journal (06 R149) -/

/-- Bytes 0-59 of a record. -/
def JRec.head (r : JRec) : Bytes :=
  leBytes 8 r.ext.toNat ++ leBytes 8 r.tick ++ leBytes 8 (r.seq.getD 0xFFFFFFFFFFFFFFFF) ++ leBytes 1 r.coll ++ leBytes 1 r.kind
    ++ leBytes 2 r.length ++ leBytes 4 r.pass ++ leBytes 16 (if r.kind = 1 ∨ r.kind = 2 then r.attrs.toNat else 0) ++ zeros 12

/-- A record as written: its head, the crc over it and its payload, the payload, zeros to its length. -/
def JRec.bytes (r : JRec) : Bytes :=
  fit r.length (r.head ++ leBytes 4 (crc32c (r.head ++ r.payload)).toNat ++ r.payload)

/-- Is the crc of the record at the start of some bytes good? -/
def recordCrcOk (payload : Nat) (b : Bytes) : Bool :=
  decide (fieldAt b 60 4 = (crc32c (slice b 0 60 ++ slice b 64 payload)).toNat)

/-- The records that a boot takes from a block: those before the first with a bad crc. -/
def goodRecords (b : Bytes) : Nat → List JRec → List JRec
  | _, [] => []
  | o, r :: rs => if recordCrcOk r.payload.length (slice b o r.length) then r :: goodRecords b (o + r.length) rs else []

/-- The same record, whatever a rebuild has changed of it. -/
def JRec.same (a b : JRec) : Bool :=
  decide (a.ext = b.ext) && decide (a.seq = b.seq) && decide (a.coll = b.coll) && decide (a.kind = b.kind)
    && decide (a.pass = b.pass) && decide (a.segment = b.segment)

/-- Is a record in a block of the mutation journal that the boot can use? -/
def State.recordHeld (s : State) (r : JRec) : Bool :=
  s.sys.blocks.any (fun b => match b.2.use with
    | .records rs => (goodRecords b.2.bytes 0 rs).any (fun x => x.same r)
    | _ => false)

/-- The records, from the oldest, that a tile of the mutation journal takes: at least one. -/
def tileOfRecords : Nat → List JRec → Nat
  | _, [] => 0
  | room, r :: rs => if r.length ≤ room then 1 + tileOfRecords (room - r.length) rs else 0

/-- The records of the mutation journal not yet programmed. -/
def WriteBuf.open_ (w : WriteBuf) : List JRec := w.journal.drop (w.journal.length - w.unprogrammed)

/-- Ask for the program of the next tile of the mutation journal, one at a time. -/
def State.askRecords (s : State) : State :=
  let asked := s.pwr.grants.any (fun g => !g.releasing && (match g.kind with | .block (.records _) _ _ => true | _ => false))
  if s.wb.unprogrammed = 0 || asked then s
  else
    let rs := s.wb.open_.take (max 1 (tileOfRecords 4064 s.wb.open_))
    s.askBlock (.records rs) none (fun _ => fit 4096 (rs.map (fun r => r.bytes)).flatten)

/-- Write records to blocks at once, both copies: what the boot does with those of the dump (16 R407). -/
def State.putRecords : Nat → State → List JRec → State
  | 0, s, _ => s
  | n + 1, s, rs =>
    if rs.isEmpty then s
    else
      let k := max 1 (tileOfRecords 4064 rs)
      let bs := fit 4096 ((rs.take k).map (fun r => r.bytes)).flatten
      let p := blockPair s.nextPair
      let s := { s with sys := { s.sys with next := s.nextPair + 1 } }
      State.putRecords n ((s.putBlock (.records (rs.take k)) p.1 bs).putBlock (.records (rs.take k)) p.2 bs) (rs.drop k)

/-- The tile is on flash: its records no longer need the write buffer. -/
def State.recordsProgrammed (s : State) (rs : List JRec) : State :=
  let n := (s.wb.open_.takeWhile (fun r => rs.any (fun x => x.same r))).length
  { s with wb := { s.wb with unprogrammed := s.wb.unprogrammed - n } }

/-- Blocks of the mutation journal whose records have all left the ring are erased (R163). -/
def State.dropRecords (s : State) : State :=
  s.dropBlocks (fun u => match u with
    | .records rs => rs.all (fun r => !s.wb.journal.any (fun x => x.same r))
    | _ => false)

/-! ### The configuration journal (14 R370) -/

/-- HMAC with SHA-256. -/
def hmac (key msg : Bytes) : Bytes :=
  let k := fit 64 (if 64 < key.length then sha256 key else key)
  sha256 (k.map (fun b => b ^^^ 0x5C) ++ sha256 (k.map (fun b => b ^^^ 0x36) ++ msg))

/-- A key of up to 64 bytes derived from the device root secret: HKDF with a salt of 32 zero bytes (17 R441). -/
def deviceKey (info : Bytes) (length : Nat) : Bytes :=
  let prk := hmac (zeros 32) Config.rootSecret
  let t1 := hmac prk (info ++ [1])
  (t1 ++ hmac prk (t1 ++ info ++ [2])).take length

/-- The bytes of an ASCII string. -/
def ascii (x : String) : Bytes := x.toList.map (fun c => BitVec.ofNat 8 c.toNat)

/-- The key of the configuration journal's tags (17 R441). -/
def configKey : Bytes := deviceKey (ascii "JTN config") 32
/-- The key that wraps the identity private key. -/
def wrappingKey : Bytes := deviceKey (ascii "JTN wrap") 32
/-- The key of the system region apart from the boot area (17 R444). -/
def systemDataKey : Bytes := deviceKey (ascii "JTN xts sys") 64
/-- The data key of a partition at an epoch. -/
def partitionDataKey (p epoch : Nat) : Bytes := deviceKey (ascii "JTN xts part" ++ leBytes 1 p ++ leBytes 4 epoch) 64

/-- The key a tile of the flash tier was programmed under. State holds what a tile decrypts to under it and reads it only while it
is its partition's key (17 R444, R445; log entry 87). -/
def Tile.dataKey (v : Tile) : Bytes := partitionDataKey v.part v.epoch

/-- Bytes 0-47 of a record, whose layout the manual leaves open (log entry 22). -/
def cfgHead (index sub arg v : Nat) : Bytes :=
  leBytes 2 index ++ leBytes 1 sub ++ zeros 1 ++ leBytes 4 arg ++ leBytes 32 v ++ zeros 8

/-- A record of a written value, with its tag. -/
def cfgRecord (index sub arg v : Nat) : CfgRec :=
  ⟨index, sub, arg, v, (hmac configKey (cfgHead index sub arg v)).take 16⟩

/-- Is the tag of a record valid? -/
def CfgRec.ok (r : CfgRec) : Bool := decide (r.tag = (hmac configKey (cfgHead r.index r.sub r.arg r.value)).take 16)

def CfgRec.bytes (r : CfgRec) : Bytes := cfgHead r.index r.sub r.arg r.value ++ r.tag

/-- Append a record in the tick of the write. A full tile of 63 records is programmed; the open one stands in the write
buffer. -/
def State.cfgAppend (s : State) (index sub arg v : Nat) : State :=
  let rs := s.sys.cfg ++ [cfgRecord index sub arg v]
  let s := { s with sys := { s.sys with cfg := rs } }
  if rs.length % 63 = 0 then
    s.askBlock .config none (fun n =>
      mkTile ((rs.drop (rs.length - 63)).map (fun r => r.bytes)).flatten n noCollection TileFmt.config 63 noSegment 0)
  else s

/-- The tiles of the journal. -/
def cfgTiles : Nat → List CfgRec → List (List CfgRec)
  | 0, _ => []
  | n + 1, rs => if rs.isEmpty then [] else rs.take 63 :: cfgTiles n (rs.drop 63)

/-- Records of objects that go back to their defaults count no more. -/
def State.cfgForget (s : State) (p : Nat → Bool) : State :=
  { s with sys := { s.sys with cfg := s.sys.cfg.filter (fun r => !p (objKey r.index r.sub r.arg)) } }

/-- The records a replay takes: in each tile those before the first with a bad tag. -/
def State.cfgGood (s : State) : List CfgRec :=
  ((cfgTiles s.sys.cfg.length s.sys.cfg).map (fun t => t.takeWhile (fun r => r.ok))).flatten

/-- The journal is replayed in order: the last record of an object sets its value. -/
def State.cfgReplay (s : State) : State := s.cfgGood.foldl (fun s r => s.setObj r.index r.sub r.arg r.value) s

end Sys2Proof.Machine
end

