-- ==== Sys2Proof/Machine/Dict.lean ====
section
/-! DEFINITION. The object dictionary in use: the values of objects that show other state, the checks of a read or a write
(14 R366-R373) in the order of R368, and the effect of a write. -/
namespace Sys2Proof.Machine

/-! ### Values computed from other state -/

/-- A number made of little-endian fields, each given as width in bytes and value. -/
def packFields (l : List (Nat × Nat)) : Nat := leNat ((l.map (fun p => leBytes p.1 p.2)).flatten)

/-- A mask with bit i set where `f i`. -/
def maskOf (n : Nat) (f : Nat → Bool) : Nat := ((List.range n).filter f).foldl (fun m i => m + 2 ^ i) 0

/-- Two's complement in 32 bits. -/
def i32 (x : Int) : Nat := (x % 4294967296).toNat

/-- fatal pending, recovery, READY or start-up (14 R376; 18 R467). -/
def State.deviceState (s : State) : Nat :=
  if s.units.fatalCause ≠ 0 then 3 else if s.boot.recovery then 2 else if s.boot.ready then 1 else 0

/-- Ring state from the two links (15 R399). -/
def Bdl.ring (b : Bdl) : Nat := if b.upLink then (if b.downLink then 0 else 2) else if b.downLink then 1 else 3

/-- Mean hop delay, rounded to 1 ns, of samples that are twice the delay (15 R390). -/
def meanDelay (l : List Nat) : Nat := if l.isEmpty then 0 else (sumBy id l + l.length) / (2 * l.length)

/-- Limit and pools of the governor (16 R409, R418). -/
def thermalLimit (step : Nat) : Nat := if step ≤ 1 then 1200 else if step = 2 then 1000 else 900
def State.effLimit (s : State) : Nat := min (s.obj 0x6000 1) (thermalLimit s.pwr.step)
def State.mediaReserve (s : State) : Nat := if 3 ≤ s.pwr.step then 32 else 64
def State.generalPool (s : State) : Nat := s.effLimit - (660 + s.mediaReserve)
def State.heldUnits (s : State) (media : Bool) : Nat :=
  sumBy (fun g => if g.granted && (g.media == media) then g.units else 0) s.pwr.grants

/-- Zone of a sensor and its thresholds in m°C for steps 1 to 4 (16 R417). -/
def sensorZone (i : Nat) : Nat :=
  if i < 16 then 0 else if i < 20 then 1 else if i < 28 then 2 else if i < 44 then 3 else if i < 46 then 4 else 5
def zoneLimits (z : Nat) : List Int :=
  match z with
  | 0 => [95000, 100000, 105000, 115000]
  | 1 => [85000, 90000, 95000, 105000]
  | 2 => [95000, 100000, 105000, 115000]
  | 3 => [70000, 75000, 80000, 90000]
  | 4 => [100000, 105000, 110000, 125000]
  | _ => [45000, 48000, 50000, 55000]
/-- The greatest step whose threshold a zone has reached. -/
def zoneStep (temps : List Int) (z : Nat) : Nat :=
  let ts := (temps.zipIdx.filter (fun p => decide (sensorZone p.2 = z))).map (fun p => p.1)
  ((zoneLimits z).filter (fun l => ts.any (fun t => decide (l ≤ t)))).length

/-- The record of a unit (18 R473). -/
def State.unitRecord (s : State) (u : Nat) : UnitRec :=
  match s.units.recs.find? (fun r => decide (r.unit = u)) with
  | some r => r
  | none => ⟨u, 0, 0, 0, 0⟩

/-- Rods that are returning (18 R463). -/
def State.returning (s : State) : Nat := ((List.range 64).filter (fun r => decide (s.unitState r = 3))).length

/-- A collection's live count (06): external ids with at least one live copy. -/
def State.liveCount (s : State) (c : Coll) : Nat :=
  let ids := ((s.liveNodes c s.now).map (fun p => (decodeRecord c (s.cachedOrFlash c.num (nodePlace c p.2.bNode p.1).1)
      (nodePlace c p.2.bNode p.1).2).ext)) ++ (c.liveRem s.now).map (fun i => i.ext)
  ids.eraseDups.length

/-- Objects of a collection that show its parameters and state (03 R76; 04 R116; 06 R174). -/
def State.collValue (s : State) (c : Coll) (sub arg : Nat) : Option Nat :=
  match sub with
  | 0x01 => some c.state
  | 0x02 => some c.part
  | 0x03 => some c.dims
  | 0x04 => some c.format
  | 0x05 => some c.metric
  | 0x06 => some c.sketchBits
  | 0x07 => some c.degree
  | 0x08 => some c.payload
  | 0x09 => some c.capacity
  | 0x0A => some c.nodesIssued
  | 0x0B => some c.segments
  | 0x0C => some c.recBytes
  | 0x0D => some c.recsPerTile
  | 0x0E => some c.slotLen
  | 0x0F => some c.vecsPerTile
  | 0x10 => some c.tilesPerVec
  | 0x11 => some c.rowsPerTile
  | 0x12 => some (match c.schema[arg]? with | some f => packFields [(1, f.low), (1, f.width), (1, f.kind)] | none => 0)
  | 0x13 => some (match c.entrySet[arg]? with | some l => encodeLoc l | none => 0)
  | 0x14 => some c.mapTiles
  | 0x15 => some (4096 * c.tilesReserved)
  | 0x2A => some (b2n (s.isCold c.num))
  | 0x2B => some (h90 c.hopHistory)
  | 0x50 => some (s.liveCount c)
  | 0x51 => some ((c.rem.filter (fun i => decide (i.retiredTick = none))).length)
  | 0x52 => some c.nextSeq
  | 0x58 => some (if s.carry.queue.any (fun r => decide (r.coll = c.num)) then 1
      else match s.carry.pass with
        | some p => if p.coll = c.num then (if p.planClosed then 3 else 2)
            else if s.carry.suspended.any (fun q => decide (q.coll = c.num)) then 4 else 0
        | none => if s.carry.suspended.any (fun q => decide (q.coll = c.num)) then 4 else 0)
  | 0x59 => some (match s.carry.pass with
      | some p => if p.coll = c.num then p.lastSwitched.getD 0xFFFFFFFF else 0xFFFFFFFF
      | none => 0xFFFFFFFF)
  | 0x5A => some c.retired.length
  | _ => none

/-- The record of a placement (10 R243). -/
def Placement.value (l : Placement) : Nat :=
  packFields [(2, l.id), (1, l.kind), (1, l.part), (1, l.home),
    (1, b2n l.writeBack + 2 * b2n (!l.dirty.isEmpty) + 4 * b2n l.moving), (2, 0), (8, l.base), (8, l.length), (8, l.owner)]

/-- The record of a sequence (09 R234). -/
def State.seqValue (s : State) (q : Seqn) : Nat :=
  let st := match q.state with | .waiting => 1 | .running => 2 | .leaving => 3
  let id := match s.cmd? q.cid with | some c => c.cmdId | none => 0
  packFields [(1, st), (1, q.part), (2, q.handle), (4, q.tokens), (8, q.reservation), (8, q.joinTick), (4, q.sq), (2, id), (1, q.cls)]

/-- port_status and port_counters (12 R316). -/
def PortState.status (p : PortState) : Nat :=
  packFields [(1, b2n p.linkUp), (1, p.rate), (1, p.width), (1, b2n p.flit), (1, p.l0pWidth), (1, p.linkState), (2, 0),
    (2, p.pending.toNat), (1, p.evCount)]
def PortState.counters (p : PortState) : Nat :=
  packFields [(8, p.doorbellErrors), (8, p.cqFetchHolds), (8, p.sqsHalted), (8, p.aerCorrectable), (8, p.aerUncorrectable),
    (8, p.msixSent)]

/-- queue_state (12 R316) and queue_jobs (11 R288). -/
def SqState.code (x : SqState) : Nat :=
  match x with
  | .absent => 0
  | .active => 1
  | .halted => 2
  | .resetting => 3
  | .deleting => 4
def State.queueState (s : State) (q : Nat) : Nat :=
  match s.sq? q with
  | none => 0
  | some x =>
    let (w, h, r) := match s.cq? x.cq with | some c => (c.write, c.head, c.reserved) | none => (0, 0, 0)
    packFields [(1, x.state.code), (1, x.port.num), (1, x.fn), (1, x.part), (1, x.cls), (3, 0), (4, x.cq), (4, x.depth),
      (2, x.head), (2, x.tail), (2, w), (2, h), (4, r), (4, x.overruns)]
def State.queueJobs (s : State) (q : Nat) : Nat :=
  match s.sq? q with
  | none => 0
  | some x => packFields ([(8, x.jobsSubmitted), (8, x.jobsCompleted)] ++ x.jobsFailed.map (fun n => (4, n)))

/-- class_slowdown (11 R284): mean and 99th percentile over the window, total elapsed over total solo, in 1/256. -/
def State.slowdown (s : State) (k : Nat) : Nat :=
  let w := sortBy (fun a b => decide (a ≤ b)) (Sparse.get (fun _ => []) s.shares.slow k)
  let t := Sparse.get (fun _ => []) s.shares.totals k
  let n := w.length
  let ratio := if t.getD 1 0 = 0 then 0 else 256 * t.getD 0 0 / t.getD 1 0
  packFields [(4, n), (4, if n = 0 then 0 else sumBy id w / n), (4, w.getD ((99 * n + 99) / 100 - 1) 0), (4, ratio), (8, t.getD 2 0)]

/-- The measurements (17 R447). -/
def State.measurement (s : State) (i : Nat) : Bytes :=
  match i with
  | 1 => fit 32 Config.romHash
  | 2 => match s.boot.running with | some f => fit 32 f.digest | none => zeros 32
  | 3 => match s.boot.committed with | some f => fit 32 f.digest | none => zeros 32
  | 4 => sha256 (leBytes 1 s.boot.locks.toNat ++ leBytes 1 (s.obj 0x7000 2) ++ leBytes 1 (s.obj 0x7000 3)
      ++ ((List.range 16).map (fun p => leBytes 64 (s.partRec p))).flatten
      ++ ((List.range 16).map (fun p => leBytes 4 (s.obj 0x7010 0 p))).flatten)
  | 5 => fit 32 (leBytes 1 (s.obj 0x7000 4))
  | _ => zeros 32

/-- A slot of a bank of the tick table (02 R44, R47). -/
def TickTable.slot (t : TickTable) (bank : Bool) (i : Nat) : Nat :=
  (Sparse.get (fun _ => BitVec.ofNat 256 defaultSlot) (if bank then t.bank1 else t.bank0) i).toNat

/-- Is a switch pending whose banks exchange in this tick: the first multiple of 4,096 after the tick of its write (02 R45)? -/
def State.exchanges (s : State) : Bool :=
  s.table.pending && decide (s.clk.counter % 4096 = 0) && decide (s.table.asked < s.clk.counter)

/-- The bank in force: a pending exchange is done at its tick, be it before or after BANK_EXCHANGE (02 R45). -/
def State.activeBank (s : State) : Bool := if s.exchanges then !s.table.active else s.table.active

/-- Map repair of a collection (18 R462): 0 none; 1 waiting for its pass to come to a segment boundary; 2 running. -/
def State.repairCode (s : State) (c : Coll) : Nat :=
  if c.repair = 0 then 0
  else match s.carry.pass with
    | some p => if p.coll = c.num then 1 else 2
    | none => 2

/-- A measured voltage or current: a value the manual does not state, 0 before the first sample (16 R424). -/
def State.measuredValue (s : State) (k : Nat) : Nat :=
  match s.pwr.measured with
  | some n => Config.freeValue (n + k) % 2 ^ 32
  | none => 0

/-- Value of an object that is no stored setting or counter. -/
def State.shown (s : State) (index sub arg : Nat) : Option Nat :=
  match index, sub with
  | 0x3000, 0x01 => some s.now
  | 0x3000, 0x07 => some s.clk.skewMax
  | 0x3010, 0x01 => some (b2n s.table.active)
  | 0x3010, 0x03 => some s.table.switchTick
  | 0x3010, 0x04 => some s.table.status
  | 0x3011, 0x00 => some (s.table.slot (!s.table.active) arg)
  | 0x3012, 0x00 => some (s.table.slot s.table.active arg)
  | 0x3100, 0x03 => some (sumBy (fun p => s.contextsUsed p) (List.range 16))
  | 0x3100, 0x04 => some s.chg.length
  | 0x4000, 0x01 => some s.colls.length
  | 0x4000, 0x02 => some (sumBy (fun c => c.segments) s.colls)
  | 0x4000, 0x04 => some s.flashFree
  | 0x4000, 0x06 => some s.bufferUsed
  | 0x4000, 0x07 => some s.ringUsed
  | 0x4000, 0x0B => some s.mediaWear
  | 0x4000, 0x0D => some (s.carry.queue.length + b2n s.carry.pass.isSome)
  | 0x5000, 0x06 => some (4096 * sumBy (fun l => l.dirty.length) s.tensor.placements)
  | 0x5013, 0x00 => some (s.useHbm arg)
  | 0x5014, 0x00 => some (s.useFlash arg)
  | 0x5020, 0x00 => some (match s.placement? arg with
      | some l => if l.kind = 3 then { l with length := 1048576 * (1 + s.cobj l.owner 0x16) }.value else l.value
      | none => 0)
  | 0x5100, 0x01 => some (sumBy (fun c => (c.streams.filter (fun x => x.armed)).length) s.tensor.ctxs)
  | 0x5102, 0x00 => some (packFields ((Sparse.get (fun _ => []) s.tensor.stalls arg).map (fun n => (8, n))))
  | 0x5103, 0x00 => some (s.tagsBusy arg)
  | 0x5800, 0x01 => some (maskOf 16 (fun f => s.unitIn (unitFrame f)))
  | 0x5800, 0x05 => some s.tensor.seqs.length
  | 0x5801, 0x00 => some (Sparse.count s.tensor.busy arg)
  | 0x5802, 0x00 => some (sumBy (fun q => if q.part = arg ∧ q.state ≠ .waiting then q.reservation else 0) s.tensor.seqs)
  | 0x5803, 0x00 => some (match s.tensor.seqs.find? (fun q => decide (q.entry = arg)) with | some q => s.seqValue q | none => 0)
  | 0x5810, 0x01 => some ((s.tensor.models.filter (fun m => m.isResident)).length)
  | 0x5811, 0x00 => some (match s.model? arg with
      | some m => packFields [(1, m.state.code), (1, m.part), (1, b2n m.mirror.isSome), (1, 0), (4, m.pkg.version), (8, m.bytes)]
      | none => 0)
  | 0x5812, 0x00 => some (match s.model? arg with | some m => m.holds | none => 0)
  | 0x2100, 0x01 => some (maskOf 16 (fun p => recEnabled (s.partRec p)))
  | 0x2120, 0x00 => some (packFields ((Sparse.get (fun _ => List.replicate 5 0) s.shares.classUse arg).map (fun n => (8, n))))
  | 0x2121, 0x00 => some (s.slowdown arg)
  | 0x8010, 0x00 => some (s.queueJobs arg)
  | 0x8011, 0x00 => some (s.queueState arg)
  | 0x2010, 0x03 => some s.sqs.length
  | 0x2011, 0x00 => some (if arg = 0 then s.portA.status else s.portB.status)
  | 0x2012, 0x00 => some (if arg = 0 then s.portA.counters else s.portB.counters)
  | 0x2020, 0x01 => some s.ps.state
  | 0x2000, 0x02 => some s.deviceState
  | 0x2001, 0x01 => some s.boot.stage
  | 0x1100, 0x01 => some s.bdl.nodeId
  | 0x1100, 0x02 => some s.bdl.state
  | 0x1100, 0x05 => some s.bdl.ring
  | 0x1100, 0x0A => some (meanDelay s.bdl.delayUp)
  | 0x1100, 0x0B => some (meanDelay s.bdl.delayDown)
  | 0x6000, 0x06 => some s.effLimit
  | 0x6000, 0x07 => some (s.heldUnits false)
  | 0x6000, 0x08 => some (s.heldUnits true)
  | 0x6000, 0x0E => some s.pwr.step
  | 0x6000, 0x10 => some s.wb.usable
  | 0x6100, 0x04 => some s.pwr.peak
  | 0x6100, 0x05 => some (s.pwr.energy / 1000)
  | 0x6100, 0x01 => some (s.measuredValue 0)
  | 0x6100, 0x02 => some (s.measuredValue 1)
  | 0x6101, 0x00 => some (packFields [(4, s.measuredValue (2 + 2 * arg)), (4, s.measuredValue (3 + 2 * arg)),
      (4, s.pwr.railFaults.getD arg 0)])
  | 0x6102, 0x00 => some (packFields [(4, i32 (s.pwr.temps.getD arg 0)), (4, i32 (s.pwr.tempsMax.getD arg 0)),
      (1, zoneStep s.pwr.temps (sensorZone arg))])
  | 0x6103, 0x00 => some (packFields ((List.range 32).map (fun b => (8, Sparse.count s.shares.latency (32 * arg + b)))))
  | 0x6200, 0x01 => some (maskOf 64 (fun r => s.rodIn r))
  | 0x6200, 0x02 => some (maskOf 8 (fun c => s.unitIn (unitChip c)))
  | 0x6200, 0x03 => some (maskOf 16 (fun n => s.unitIn (unitReckoner n)))
  | 0x6200, 0x04 => some ((s.units.recs.filter (fun r => decide (r.state ≠ 0))).length)
  | 0x6200, 0x0C => some s.units.fatalCause
  | 0x6201, 0x00 => some (let r := s.unitRecord arg; packFields [(1, r.state), (1, r.cause), (2, 0), (4, r.faults), (8, r.tick)])
  | 0x6202, 0x00 => some (match s.coll? arg with
      | some c => let (n, v) := s.covered c s.now
          packFields [(4, if v = 0 then 65536 else 65536 * n / v), (1, s.repairCode c), (1, s.returning), (2, 0), (8, v - n), (8, v)]
      | none => 0)
  | 0x6203, 0x00 => some (match s.units.lost[arg]? with
      | some l => l.1 + (if l.2 then 2 ^ 63 else 0)
      | none => 0xFFFFFFFFFFFFFFFF)
  | 0x7000, 0x01 => some s.boot.locks.toNat
  | 0x7000, 0x05 => some (match s.boot.running with | some f => f.version | none => 0)
  | 0x7000, 0x06 => some (match s.boot.running with | some f => f.security | none => 0)
  | 0x7000, 0x0A => some (if s.boot.identityFailed then 2 else 0)
  | 0x7000, 0x0C => some s.boot.cause
  | 0x7020, 0x00 => some (leNat (s.measurement arg))
  | _, _ => none

/-- The value of an element of an object, as its bytes read little-endian (R372). Objects of an absent collection read 0. -/
def State.readObj (s : State) (index sub arg : Nat) : Nat :=
  if 0x4100 ≤ index ∧ index ≤ 0x413F then
    match s.coll? (index - 0x4100) with
    | none => 0
    | some c => (s.collValue c sub arg).getD (s.obj index sub arg)
  else (s.shown index sub arg).getD (s.obj index sub arg)

/-! ### Rights (R371) -/

/-- Who accesses: a function of a port, or the Beadline manager. -/
inductive Who where
  | fn (p : Port) (n : Nat)
  | manager
  deriving DecidableEq, Repr

/-- The partition that an element belongs to, by its argument. -/
def argPartition (index arg : Nat) : Option Nat :=
  if [0x2110, 0x5010, 0x5011, 0x5012, 0x5013, 0x5014, 0x5101, 0x5102, 0x5802, 0x6103, 0x7010, 0x3100].contains index then some arg
  else if index = 0x2120 || index = 0x2121 then some (arg / 8)
  else none

/-- Is the argument within the object's range (R367)? -/
def ObjDesc.argOk (d : ObjDesc) (arg : Nat) : Bool :=
  if d.type = 8 then decide (d.argMin ≤ arg) && decide (arg < d.argLimit) else decide (arg = 0)

/-- May a virtual function reach the element? -/
def State.vfReads (s : State) (p : Port) (n : Nat) (d : ObjDesc) (index arg : Nat) : Bool :=
  if 0x4100 ≤ index ∧ index ≤ 0x413F then
    match s.coll? (index - 0x4100) with
    | some c => s.partLists c.part p n
    | none => true
  else if decide (d.type ≠ 8) || !d.argOk arg then true
  else if index = 0x8010 || index = 0x8011 then
    match s.sq? arg with
    | some q => q.mine p n
    | none => false
  else
    match argPartition index arg with
    | some part => s.partLists part p n
    | none => true

def State.mayRead (s : State) (w : Who) (d : ObjDesc) (index arg : Nat) : Bool :=
  match w with
  | .manager => true
  | .fn p n => decide (n = 0) || s.vfReads p n d index arg

def State.mayWrite (s : State) (w : Who) (index : Nat) : Bool :=
  if (0x1000 ≤ index ∧ index ≤ 0x10FF) ∨ (0x8000 ≤ index ∧ index ≤ 0x80FF) then false
  else
    match w with
    | .manager => true
    | .fn p n => decide (n = 0) || (decide (0x4100 ≤ index) && decide (index ≤ 0x413F)
        && (match s.coll? (index - 0x4100) with
          | some c => s.partLists c.part p n
          | none => false))

/-- Judge a read (R368). -/
def State.judgeRead (s : State) (w : Who) (index sub arg len : Nat) : Nat :=
  match findObj index sub with
  | none => Status.invalidField
  | some d =>
    if d.acc = 2 || !s.mayRead w d index arg then Status.accessDenied
    else if !d.argOk arg || decide (len ≠ d.size) then Status.invalidField
    else Status.success

/-! ### Checks of written values -/

/-- Fields and ranges of a partition record (11 R268, R270). -/
def recordOk (r : Nat) : Bool :=
  let on := recEnabled r
  decide (r % 256 < 2) && decide (recField r 36 28 = 0)
    && (!on || (decide (recContexts r ≤ 8128) && decide (1 ≤ recFrameWeight r) && decide (1 ≤ recQuantum r)
      && decide (recQuantum r ≤ 4096) && (List.range 8).any (fun c => decide (recClassWeight r c ≠ 0))))

/-- Does a slot fix a frame to a partition (02 R44)? -/
def slotFixes (slot f p : Nat) : Bool := bit (slot / 2 ^ 64) f && decide (slot / 2 ^ (4 * f) % 16 = p)
/-- Slots of a bank that differ from the default, and the default itself, which fixes no frame. -/
def TickTable.fixes (t : TickTable) (bank : Bool) (f p : Nat) : Bool :=
  (if bank then t.bank1 else t.bank0).any (fun e => slotFixes e.2.toNat f p)

/-- Does a partition own or use anything (11 R270)? -/
def State.partUsed (s : State) (p : Nat) : Bool :=
  s.colls.any (fun c => decide (c.part = p)) || s.tensor.models.any (fun m => decide (m.part = p))
    || s.tensor.placements.any (fun l => decide (l.part = p)) || s.sqs.any (fun q => decide (q.part = p) && !q.admin)
    || decide (s.useHbm p ≠ 0) || decide (s.useFlash p ≠ 0)

/-- Judge a write of a partition record (11 R270). -/
def State.partWriteOk (s : State) (p v : Nat) : Bool :=
  let others := sumBy (fun q => if q ≠ p ∧ recEnabled (s.partRec q) = true then recContexts (s.partRec q) else 0) (List.range 16)
  let on := recEnabled v
  recordOk v && decide (others + (if on then recContexts v else 0) ≤ 8128)
    && (List.range 16).all (fun f => bit (recFrames v) f
      || !(bit (recFrames (s.partRec p)) f && (s.tensor.ctxs.any (fun c => decide (c.part = p) && decide (c.frame = f) && c.started && decide (c.wait ≠ .ended))
        || s.table.fixes s.table.active f p || (s.table.pending && s.table.fixes (!s.table.active) f p))))
    && decide (s.contextsUsed p ≤ recContexts v)
    && s.sqs.all (fun q => decide (q.part ≠ p) || q.admin
      || (bit (recFunctions v) (64 * q.port.num + q.fn) && decide (recClassWeight v q.cls ≠ 0)))
    && (on || !(recEnabled (s.partRec p)) || !s.partUsed p)

/-- Judge a quota write (10 R242). -/
def State.sramUse (s : State) (p f : Nat) : Nat :=
  sumBy (fun c => if c.part = p ∧ c.frame = f ∧ c.started = true then
    (match s.model? c.handle with | some m => m.pkg.prog.sram | none => 0)
      + sumBy (fun x => (x.poolA.length + x.poolB.length) * x.prog.segBytes * x.prog.tileSegs) c.streams else 0) s.tensor.ctxs
def State.quotaWriteOk (s : State) (index p v : Nat) : Bool :=
  let sum := sumBy (fun q => if q = p then v else s.obj index 0 q) (List.range 16)
  if index = 0x5011 then decide (sum ≤ 249108103168) && decide (s.useHbm p ≤ v)
  else if index = 0x5012 then decide (sum ≤ 13671875000) && decide (s.useFlash p ≤ v)
  else (List.range 16).all (fun f =>
    decide (sumBy (fun q => if bit (recFrames (s.partRec q)) f && recEnabled (s.partRec q)
      then (if q = p then v else s.obj index 0 q) else 0) (List.range 16) ≤ 25165824)
      && decide (s.sramUse p f ≤ v)) && decide (v ≤ 25165824)

/-- A report row (15 R401). -/
def reportOk (v : Nat) : Bool :=
  let idx := recField v 0 2
  let sub := recField v 2 1
  let n := recField v 3 1
  let period := recField v 8 4
  decide (recField v 12 4 = 0)
    && (decide (v = 0) || (decide (n ≤ 40) && (decide (period = 0) || decide (1024 ≤ period))
      && (match findObj idx sub with
        | some d => decide (d.size = n) && decide (d.acc ≠ 2) && d.argOk (recField v 4 4)
        | none => false)))

/-- Relations among the settings of a collection (04 R117; 05 R142; 06 R175). coll_rescore_model takes a model handle, 0 to
1,023, or 0xFFFF; its table states no range, and another value is refused with INVALID_FIELD (DESIGN CHOICE, log entry 84). -/
def State.collWriteOk (s : State) (c : Coll) (sub v : Nat) : Bool :=
  let cur (k : Nat) : Nat := if sub = k then v else s.cobj c.num k
  let l := cur 0x20
  let w := cur 0x21
  let h := cur 0x23
  match sub with
  | 0x20 => decide (w ≤ l)
  | 0x21 => decide (w ≤ l) && decide (w ≤ h)
  | 0x23 => decide (w ≤ h)
  | 0x40 => decide (cur 0x41 ≤ v)
  | 0x41 => decide (v ≤ cur 0x40)
  | 0x43 => decide (v = 0) || (decide (v % 16 = 0) && decide (c.dims % v = 0))
  | 0x44 => decide (v < 1024) || decide (v = 0xFFFF)
  | 0x54 => decide (v ≤ c.degree)
  | 0x55 => decide (w ≤ v)
  | _ => true

/-- Is any job running or waiting (10 R247)? A TIER_MOVE or a FLUSH under way counts as one. -/
def State.jobRuns (s : State) : Bool :=
  s.cmds.any (fun c => c.isJob || (match c.stage with | .moving _ => true | .flushing _ => true | _ => false)) || !s.searches.isEmpty || !s.tensor.seqs.isEmpty

/-- Checks of R368 step 4 on the value, and the refusals of the object's own chapter. -/
def State.valueCheck (s : State) (d : ObjDesc) (index sub arg v : Nat) : Nat :=
  let bad : Nat := Status.invalidField
  if !d.inRange v || !d.wellTyped v then bad
  else if 0x4100 ≤ index ∧ index ≤ 0x413F then
    match s.coll? (index - 0x4100) with
    | none => bad
    | some c =>
      if c.state = 3 || !s.collWriteOk c sub v then bad
      else if sub = 0x16 ∧ s.quotaHbm c.part < s.useHbm c.part + 1048576 * v - 1048576 * s.cobj c.num 0x16 then
        Status.quotaExceeded
      else Status.success
  else
    match index, sub with
    | 0x2110, 0 => if s.partWriteOk arg v then Status.success else bad
    | 0x5010, 0 => if s.quotaWriteOk index arg v then Status.success else bad
    | 0x5011, 0 => if s.quotaWriteOk index arg v then Status.success else bad
    | 0x5012, 0 => if s.quotaWriteOk index arg v then Status.success else bad
    | 0x5101, 0 => if decide (recField v 0 2 + recField v 2 2 + recField v 4 2 = 256) && decide (recField v 6 2 = 0) then
        Status.success else bad
    | 0x7010, 0 => if recEnabled (s.partRec arg) then bad else Status.success
    | 0x3011, 0 => if s.table.pending then Status.notReady else Status.success
    | 0x3010, 2 => if s.table.pending then Status.notReady else Status.success
    | 0x3100, 1 => if v ≤ s.obj 0x3100 2 arg then Status.success else bad
    | 0x1120, 0 => if reportOk v then Status.success else bad
    | 0x1100, 6 => if v = 2 ^ Nat.log2 v then Status.success else bad
    | 0x6000, 1 => if v ≤ s.obj 0x6000 2 then Status.success else bad
    | 0x6000, 2 => if 900 ≤ v ∧ v ≤ ceilingMost then Status.success else bad
    | 0x6200, 8 => if decide (v < 232) && !(decide (192 ≤ v) && decide (v < 200)
        && (List.range 8).all (fun c => decide (192 + c = v) || !s.unitIn (unitChip c))) then Status.success else bad
    | 0x5000, 5 => if s.jobRuns || decide (s.obj 0x5000 4 ≠ 0) then Status.notReady else Status.success
    | 0x2000, 5 => if s.boot.locks = 0 then Status.success else Status.locked
    | _, _ => Status.success

/-- Is the write turned away by the service still in force (17 R439, R443; 18 R467)? -/
def State.writeServed (s : State) (d : ObjDesc) (index sub : Nat) : Bool :=
  (decide (index = 0x2000) && decide (sub = 1))
    || !(s.boot.recovery || s.boot.identityFailed || s.stopped || (decide (s.units.fatalCause = 6) && d.saved))

/-- Judge a write alone (R368): existence, access and rights, lock, then argument, length and value. -/
def State.judgeWrite (s : State) (w : Who) (index sub arg len v : Nat) : Nat :=
  match findObj index sub with
  | none => Status.invalidField
  | some d =>
    if d.acc = 0 || d.acc = 4 || !s.mayWrite w index then Status.accessDenied
    else if d.acc = 3 && bit s.boot.locks.toNat d.lock then Status.locked
    else if !s.writeServed d index sub then Status.notReady
    else if !d.argOk arg || decide (len ≠ d.size) then Status.invalidField
    else s.valueCheck d index sub arg v

/-! ### The effect of a write -/

/-- Register an order of an internal source (02 R36). -/
def State.internal (s : State) (sub : Nat) (body : OrderBody) : State := s.order 5 sub body

/-- Set lock bits (R363, R364). -/
def State.setLocks (s : State) (m : BitVec 5) : State := { s with boot := { s.boot with locks := s.boot.locks ||| m } }

/-- Reserved fields of a slot (02 R44, R46 code 5). -/
def slotReserved (v : Nat) : Bool := decide (recField v 27 1 < 2) && decide (recField v 28 4 = 0)
def slotCarryReads (v : Nat) : Nat := recField v 26 1
def slotCarryWrite (v : Nat) : Bool := bit (recField v 27 1) 0
def slotQuota (v p : Nat) : Nat := recField v (10 + p) 1
/-- Guaranteed reads of a slot. -/
def slotGuaranteed (v : Nat) : Nat :=
  sumBy (fun p => if slotQuota v p = 255 then 0 else slotQuota v p) (List.range 16) + slotCarryReads v

/-- The lowest code of R46 that the shadow bank meets, or 1 when it passes. -/
def State.checkShadow (s : State) : Nat :=
  let bank := !s.table.active
  let own := (if bank then s.table.bank1 else s.table.bank0).map (fun e => e.2.toNat)
  let rest := 4096 - own.length
  let writes := (own.filter slotCarryWrite).length + rest
  let reads := sumBy slotCarryReads own + 4 * rest
  if own.any (fun v => decide (24 < slotGuaranteed v)) then 2
  else if writes < 256 || reads < 4096 then 3
  else if own.any (fun v => (List.range 16).any (fun f => bit (v / 2 ^ 64) f
      && !bit (recFrames (s.partRec (v / 2 ^ (4 * f) % 16))) f)) then 4
  else if own.any (fun v => !slotReserved v) then 5
  else 1

/-- Ask for a switch of the tick table: checked in the tick of the write (02 R45, R46). -/
def State.requestSwitch (s : State) : State :=
  let c := s.checkShadow
  { s with table := { s.table with pending := decide (c = 1), status := c, asked := s.clk.counter } }

/-- Write a slot of the shadow bank. -/
def TickTable.putShadow (t : TickTable) (i v : Nat) : TickTable :=
  let put (b : List (Nat × BitVec 256)) := Sparse.put (fun _ => BitVec.ofNat 256 defaultSlot) b i (BitVec.ofNat 256 v)
  if t.active then { t with bank0 := put t.bank0 } else { t with bank1 := put t.bank1 }

/-- A write that passes its checks takes effect (R368, R370). A write of a saved object adds a record to the configuration
journal, whose layout the manual leaves open: its length is taken as 64 bytes (log entry 22). -/
def State.applyWrite (s : State) (index sub arg v : Nat) : State :=
  let s := match findObj index sub with
    | some d => if d.saved then (s.count 0x2000 3 64).cfgAppend index sub arg v else s
    | none => s
  match index, sub with
  | 0x2000, 1 => s.order 1 0 (.moduleReset 2)
  | 0x2000, 5 => { s with boot := { s.boot with defaultsAsked := true } }
  | 0x3010, 2 => s.requestSwitch
  | 0x3011, 0 => { s with table := s.table.putShadow arg v }.setObj index sub arg v
  | 0x5000, 5 => s.setObj 0x5000 4 0 2
  | 0x6200, 8 => s.internal 0 (.unitOut v 7)
  | 0x7000, 1 => s.setLocks (BitVec.ofNat 5 v)
  | 0x5011, 0 => (s.setObj index sub arg v).retryLoads
  | _, _ =>
    let s := s.setObj index sub arg v
    if 0x4100 ≤ index ∧ index ≤ 0x413F ∧ sub = 0x16 then s.shrinkCache (index - 0x4100) else s

end Sys2Proof.Machine
end

