-- ==== Sys2Proof/Machine/Mutate.lean ====
section
/-! DEFINITION. INSERT, UPSERT and DELETE (06 R143-R155; 13 R330): forming an item, staging, the judgement and the effect at
the commit tick, and the remainder journal on flash. -/
namespace Sys2Proof.Machine

/-! ### Items (13 R330, R331) -/

/-- Convert supplied elements into a vector slot of the stored format, with the cosine norm of the vector as supplied
(03 R61; 13 R330). -/
def Coll.storeVector (k : Coll) (fmt : Nat) (bs : Bytes) : Flagged Bytes :=
  let xs := rowVals fmt k.dims bs
  let (codes, f) := mapFlagged (fun v => convertStored k.format v) xs
  let body := (codes.map (fun v => leBytes (fmtBytes k.format) v)).flatten
  if k.metric = 1 then
    let (n, g) := normOf xs
    (body ++ leBytes 4 n.toNat, f.or g)
  else (body, f)

/-- An item with its slot, payload row and sketch; the sketch is that of the stored vector (03 R59; 06 R150, R165). -/
def Coll.formItem (k : Coll) (ext : BitVec 64) (attrs : BitVec 128) (fmt : Nat) (data : Bytes) : Flagged Item :=
  let data := fit (k.givenLen fmt + k.payload) data
  let (slot, f) := k.storeVector fmt (data.take (k.givenLen fmt))
  let (sk, g) := sketchOf k (slotVals k slot)
  (⟨ext, attrs, slot, data.drop (k.givenLen fmt), sk⟩, f.or g)

/-- The external id a mutation names. -/
def Cmd.ext (c : Cmd) : BitVec 64 := BitVec.ofNat 64 (c.field 32 8)

/-- Form the item of an INSERT or UPSERT; it then waits to be staged. -/
def State.formCmd (s : State) (c : Cmd) (inbuf : Bytes) : State :=
  match s.coll? c.collByte with
  | none => s.fail c.cid Status.invalidCollection
  | some k =>
    if s.reckoners.isEmpty then s.fail c.cid Status.unitOut
    else
      let (i, f) := k.formItem c.ext (BitVec.ofNat 128 (c.field 40 16)) (c.field 56 1) inbuf
      s.modCmd c.cid (fun c => { c with item := some i, flags := c.flags.or f, stage := .formed })

/-- INSERT: its vector is converted, and it waits to be staged. -/
def execInsert (cid : Nat) (inbuf : Bytes) (s : State) : Ans :=
  match s.ready? cid Op.insert with
  | none => .next s
  | some c => .next (s.formCmd c inbuf)

/-- UPSERT: its vector is converted, and it waits to be staged. -/
def execUpsert (cid : Nat) (inbuf : Bytes) (s : State) : Ans :=
  match s.ready? cid Op.upsert with
  | none => .next s
  | some c => .next (s.formCmd c inbuf)

/-- DELETE has no item: it waits to be staged. -/
def execDelete (cid : Nat) (s : State) : Ans :=
  match s.ready? cid Op.delete with
  | none => .next s
  | some c => .next (s.modCmd c.cid (fun c => { c with stage := .formed }))

/-! ### Staging (R34, R147, R148) -/

/-- Is a mutation of the same queue, fetched earlier, not staged yet? Staging keeps submission order (02 R34). -/
def State.earlierUnstaged (s : State) (c : Cmd) : Bool :=
  s.cmds.any (fun d => d.isMutation && decide (d.sq = c.sq) && decide (d.cid < c.cid)
    && (match d.stage with
      | .fetched => true
      | .formed => true
      | _ => false))

/-- Does another mutation that is formed rank ahead of one for the room that is left (01 R19; 02 R36)? -/
def State.rankedAhead (s : State) (c : Cmd) : Bool :=
  s.cmds.any (fun d => d.isMutation && decide (d.stage = .formed) && decide (d.cid ≠ c.cid) && cmdBefore d c && s.served d
    && !s.earlierUnstaged d)

/-- A mutation whose record and vector fit the write buffer, the journal, the change log and the sequence space is staged;
its commit tick is the next. One that the full change log delays is counted once (04 R94, R115). -/
def execStage (cid : Nat) (s : State) : Ans :=
  match s.cmd? cid with
  | none => .next s
  | some c =>
    if decide (c.stage = .formed) && c.isMutation && s.served c && !s.earlierUnstaged c && !s.rankedAhead c then
      if s.stageRoom c then .next (s.modCmd cid (fun c => { c with stage := .staged (s.now + 1) }))
      else if !c.logWait && !s.logRoom then .next ((s.count 0x3100 5 1).modCmd cid (fun c => { c with logWait := true }))
      else .next s
    else .next s

/-! ### The judgement at the commit tick (R144-R146) -/

/-- Node ids of a collection's allocated segments owned by rods in service and not retired (R146). -/
def State.usableIds (s : State) (k : Coll) : Nat :=
  k.segments * 16384 * (64 - s.rodsOutNow.length) - (k.retired.filter (fun n => s.rodIn (rodOf n))).length
def State.usableCapacity (s : State) (k : Coll) : Nat := min k.capacity (s.usableIds k)

/-- Would one more item pass a bound of R146? `replaces` says that the UPSERT deletes a live copy of the id. -/
def State.collFull (s : State) (k : Coll) (replaces : Bool) : Bool :=
  decide (4194304 ≤ k.rem.length) || decide (s.usableCapacity k < s.liveCount k - b2n replaces + 1)

/-- The live copies of an id (R143). -/
def State.copies (s : State) (k : Coll) (ext : BitVec 64) : Option Nat × Option RemItem :=
  ((s.graphCopy k s.now ext).map (fun g => g.1), k.remLookup s.now ext)

/-- The outcome of a mutation judged alone: its status and DW7 (R144, R146). `op` is its opcode. -/
def State.outcome (s : State) (k : Coll) (op : Nat) (ext : BitVec 64) : Nat × Nat :=
  let (g, r) := s.copies k ext
  let live := g.isSome || r.isSome
  if op = Op.delete then (Status.success, if live then 4 else 5)
  else if op = Op.insert && live then (Status.invalidField, 6)
  else if s.collFull k live then (Status.capacityFull, 8)
  else (Status.success, b2n g.isSome + 2 * b2n r.isSome)

/-- The outcome of a staged command: the collection must be ready and serve mutations (13 R319; 18 R462, R467). -/
def State.judgeMutation (s : State) (c : Cmd) : Nat × Nat :=
  match s.coll? c.collByte with
  | none => (Status.invalidCollection, 0xFFFFFFFF)
  | some k =>
    if k.state = 3 then (Status.invalidCollection, 0xFFFFFFFF)
    else if k.state ≠ 2 || decide (k.repair ≠ 0) || decide (s.units.fatalCause = 6) then (Status.notReady, 0xFFFFFFFF)
    else s.outcome k c.opcode c.ext

/-! ### The effect at the commit tick (R143, R149-R155) -/

/-- Tombstone a node, with its change-log entry (R155). -/
def State.tombstone (s : State) (coll n : Nat) : State :=
  match s.coll? coll with
  | none => s
  | some k =>
    if k.tomb n then s
    else (s.logChange coll n true 0).modColl coll (fun k => { k with tombs := k.tombs ++ [n] })

/-- Delete every live copy of an id. -/
def State.deleteCopies (s : State) (k : Coll) (ext : BitVec 64) : State :=
  let (g, r) := s.copies k ext
  let t := s.now
  let s := match g with
    | some n => s.tombstone k.num n
    | none => s
  match r with
  | none => s
  | some i => s.modColl k.num (fun k => { k with
      rem := mapWhere (fun j => decide (j.seq = i.seq)) (fun j => { j with deleteTick := some t }) k.rem })

/-- Append a record to the mutation journal (R149). -/
def State.journal (s : State) (r : JRec) : State :=
  { s with wb := { s.wb with journal := s.wb.journal ++ [r], unprogrammed := s.wb.unprogrammed + 1 } }

/-- A record of a mutation. -/
def mutationRecord (k : Coll) (kind : Nat) (ext : BitVec 64) (tick : Tick) (seq : Option Nat) (attrs : BitVec 128)
    (payload : Bytes) : JRec where
  ext := ext
  tick := tick
  seq := seq
  coll := k.num
  kind := kind
  length := if kind = 3 then recordBytes 0 else recordBytes k.payload
  pass := 0
  attrs := attrs
  payload := payload
  plan := []
  segment := 0

/-- The tiles of the remainder journal that a new item closes: the last slot of a tile has been given out (R153). -/
def State.filledTiles (s : State) (k : Coll) (q : Nat) : List Nat :=
  if k.vecsPerTile = 0 then k.remTiles q
  else if k.remTiles (s.nextSeq k) = k.remTiles q then [] else k.remTiles q

/-- Ask for the program of a tile of a remainder journal: one unit of the media reserve (16 R410). -/
def State.askProgram (s : State) (coll t : Nat) : State := s.askGrant (.nand (tileDie t) coll t) true 1 none

/-- An item enters the remainder with the next sequence number, counted as host-equivalent bytes (R151, R171). -/
def State.enterItem (s : State) (k : Coll) (i : Item) : Nat × State :=
  let q := s.nextSeq k
  let t := s.now
  let r : RemItem :=
    { ext := i.ext, commitTick := t, deleteTick := none, seq := q, attrs := i.attrs, sketch := i.sketch
      payload := i.payload, slot := i.slot, retiredTick := none, programmed := false }
  let s := s.modColl k.num (fun k => { k with rem := k.rem ++ [r], nextSeq := q + 1 })
  let n := k.slotLen + k.payload
  let s := (s.count 0x4000 9 n).ccount k.num 0x5B n
  let s := match s.coll? k.num with
    | some k' => (s.filledTiles k' q).foldl (fun s t => s.askProgram k.num t) s
    | none => s
  (q, s)

/-- The effect of a mutation that takes effect: its record is appended, its deletions and its new item follow. The sequence
number of the new item, if any. -/
def State.applyItem (s : State) (k : Coll) (op : Nat) (ext : BitVec 64) (item : Option Item) : Option Nat × State :=
  let graph := (s.copies k ext).1.toList.map (fun n => (n, []))
  let s := if op = Op.insert then s else s.deleteCopies k ext
  match item with
  | some i =>
    let (q, s) := s.enterItem k i
    (some q, s.journal (mutationRecord k (if op = Op.insert then 1 else 2) ext s.now (some q) i.attrs i.payload))
  | none => (none, s.journal { mutationRecord k 3 ext s.now none 0 [] with plan := graph })

/-- A mutation's words once committed. -/
def mutationDone (st tick dw5 dw7 : Nat) (q : Option Nat) : CmdStage :=
  .ended tick st 0 tick dw5 (match q with | some q => q % 2 ^ 32 | none => 0xFFFFFFFF) dw7

/-- Commit a judged mutation. Its completion is written in a later tick. -/
def State.commitOne (s : State) (c : Cmd) : State :=
  let t := s.now
  let stop (s : State) (st dw7 : Nat) : State := s.modCmd c.cid (fun c => { c with stage := mutationDone st t 0 dw7 none })
  if c.superseded then
    (stop s Status.superseded 0xFFFFFFFF).ccount c.collByte 0x5C 1
  else
    let (st, dw7) := s.judgeMutation c
    if st ≠ Status.success then stop s st dw7
    else
      match s.coll? c.collByte with
      | none => s
      | some k =>
        if dw7 = 5 then stop s st dw7
        else
          let (q, s) := s.applyItem k c.opcode c.ext c.item
          s.modCmd c.cid (fun c => { c with stage := mutationDone st t 1 dw7 q })

/-- Mutations whose commit tick has come and that have been judged, in precedence order (02 R36). -/
def State.dueCommits (s : State) : List Cmd :=
  let key (c : Cmd) : List Nat := [portRank c.port, c.sq, c.cid]
  sortBy (fun a b => decide (key a ≤ key b)) (s.cmds.filter (fun c => c.judged
    && (match c.stage with
      | .staged t => decide (t ≤ s.now)
      | _ => false)))

/-- Commit every one of them. -/
def State.commitDue (s : State) : State := s.dueCommits.foldl (fun s c => s.commitOne c) s

/-- The commands of a list up to one of them. -/
def cmdsUpTo (cid : Nat) : List Cmd → List Cmd
  | [] => []
  | c :: cs => if c.cid = cid then [c] else c :: cmdsUpTo cid cs

/-- COMMIT of a mutation: those of higher precedence that are due commit first (R34; 02 R36). -/
def execCommit (cid : Nat) (s : State) : Ans :=
  if s.dueCommits.any (fun c => decide (c.cid = cid)) then
    .next ((cmdsUpTo cid s.dueCommits).foldl (fun s c => s.commitOne c) s)
  else .next s

/-! ### The remainder journal on flash (R152, R153) -/

/-- The bytes of a journal tile, from the items it holds. -/
def Coll.journalTile (k : Coll) (t : Nat) : Bytes :=
  let here := k.rem.filter (fun i => (k.remTiles i.seq).contains t)
  match here with
  | [] => mkTile [] t k.num TileFmt.journal 0 0xFFFFFFFF 0
  | i :: _ =>
    let gen := i.seq / k.ringSize
    if k.vecsPerTile = 0 then
      let off := 4064 * (t - (k.remTiles i.seq).headD 0)
      mkTile (slice i.slot off 4064) t k.num TileFmt.journal 1 0xFFFFFFFF gen
    else
      let body := here.foldl (fun b i => patch b (k.remSlot i.seq * k.slotLen) (fit k.slotLen i.slot)) (zeros 4064)
      mkTile body t k.num TileFmt.journal ((here.map (fun i => k.remSlot i.seq + 1)).foldl max 0) 0xFFFFFFFF gen

/-- Program a journal tile: its items are then read from flash. -/
def State.programJournal (s : State) (coll t : Nat) : State :=
  match s.coll? coll with
  | none => s
  | some k =>
    let s := s.program t k.part (k.journalTile t)
    s.modColl coll (fun k => { k with
      rem := k.rem.map (fun i => if (k.remTiles i.seq).contains t then
        { i with programmed := (k.remTiles i.seq).all (fun u => tileOk (s.tileBytes u) (remExpect k i.seq u)) } else i) })

end Sys2Proof.Machine
end

