-- ==== Sys2Proof/Machine/Carry.lean ====
section
/-! DEFINITION. The carry (06 R156-R165): requests, the start of a pass, its plan, the rewriting of segments, the directory
switch, the end of a pass, and the release of items and tiles. -/
namespace Sys2Proof.Machine

/-! ### Requests and the end of a pass (R156; 13 R332; 18 R455) -/

def State.setPass (s : State) (p : Option Pass) : State := { s with carry := { s.carry with pass := p } }

/-- Order of the queue: request tick, then collection number. -/
def reqBefore (a b : CarryReq) : Bool := decide (a.tick < b.tick) || (decide (a.tick = b.tick) && decide (a.coll ≤ b.coll))

/-- Request a pass, or join the one that runs or waits. -/
def State.requestPass (s : State) (n : Nat) (who : List Nat) : State :=
  match s.carry.pass with
  | some p =>
    if p.coll = n then s.setPass (some { p with waiters := p.waiters ++ who })
    else if s.carry.queue.any (fun r => decide (r.coll = n)) then
      { s with carry := { s.carry with
          queue := mapWhere (fun r => decide (r.coll = n)) (fun r => { r with waiters := r.waiters ++ who }) s.carry.queue } }
    else { s with carry := { s.carry with queue := insertBy reqBefore ⟨n, s.now, who⟩ s.carry.queue } }
  | none =>
    if s.carry.queue.any (fun r => decide (r.coll = n)) then
      { s with carry := { s.carry with
          queue := mapWhere (fun r => decide (r.coll = n)) (fun r => { r with waiters := r.waiters ++ who }) s.carry.queue } }
    else { s with carry := { s.carry with queue := insertBy reqBefore ⟨n, s.now, who⟩ s.carry.queue } }

/-- CARRY starts or joins a pass. -/
def execCarry (cid : Nat) (s : State) : Ans :=
  match s.ready? cid Op.carry with
  | none => .next s
  | some c =>
    if s.collState c.collByte ≠ 2 then .next (s.fail cid Status.invalidCollection)
    else if s.reckoners.isEmpty then .next (s.fail cid Status.unitOut)
    else .next ((s.modCmd cid (fun c => { c with stage := .passWait })).requestPass c.collByte [cid])

/-- Fail the CARRY commands that wait for a pass. -/
def State.failWaiters (s : State) (ws : List Nat) (st : Nat) : State := ws.foldl (fun s w => s.fail w st) s

/-- Take back the requests for the directory entry of a rewrite that no die has been given. -/
def State.dropEntry (s : State) (n : Nat) : State :=
  let mine (g : Grant) : Bool := match g.kind with
    | .block (.entry m _) _ [] => decide (m = n)
    | .block (.descHead m) _ [] => decide (m = n)
    | _ => false
  { s with pwr := { s.pwr with grants := s.pwr.grants.filter (fun g => g.granted || g.releasing || !mine g) } }

/-- The units of a pass's segment rewrite are to be released (16 R410), and programs no die has been given are not made. -/
def State.endPassGrant (s : State) (p : Pass) : State :=
  let s := (s.dropPrograms (.carry p.coll)).dropEntry p.coll
  match p.grant with
  | some g => s.endGrant g
  | none => s

/-- Abandon a pass whose plan is not closed: nothing is retired (R159). It is a pass end, with ATTN 5 (R156). -/
def State.abandonPass (s : State) (p : Pass) (st : Nat) : State :=
  (((s.setPass none).endPassGrant p).raiseEvent Attn.carryDone).failWaiters p.waiters st

/-- Suspend a pass (18 R455), or abandon it when its plan is not closed. Under map repair its commands stay (18 R462). -/
def State.suspendPass (s : State) (p : Pass) (st : Nat) : State :=
  if p.planClosed then
    let q : Pass := { p with phase := .suspended s.now, waiters := [], rewrite := none, grant := none, restarted := false }
    let s := (s.setPass none).endPassGrant p
    { s with carry := { s.carry with suspended := s.carry.suspended ++ [q] } }.failWaiters p.waiters st
  else s.abandonPass p st

/-- Suspend a writing pass for map repair: its commands stay with it (18 R462). -/
def State.suspendForRepair (s : State) (p : Pass) : State :=
  let q : Pass := { p with phase := .suspended s.now, rewrite := none, grant := none, restarted := false, byRepair := true }
  let s := (s.setPass none).endPassGrant p
  { s with carry := { s.carry with suspended := s.carry.suspended ++ [q] } }

/-- A carry record of the mutation journal (R149). DESIGN CHOICE (log entry 74): each is 64 bytes long, a kind 5 record too,
and a kind 5 record carries the edges of the item it plans and no neighbour's. -/
def carryRecord (p : Pass) (kind : Nat) (tick : Tick) (seq : Option Nat) (plan : List (Nat × List Loc)) (segment : Nat) : JRec where
  ext := 0
  tick := tick
  seq := seq
  coll := p.coll
  kind := kind
  length := recordBytes 0
  pass := p.number
  attrs := 0
  payload := []
  plan := plan
  segment := segment

/-- Records that leave the ring at the end of a pass (R163): those of retired items, deletions of retired remainder copies
without a graph copy still to be rewritten, and the carry records of earlier passes. -/
def leavesAtEnd (p : Pass) (gone : List RemItem) (r : JRec) : Bool :=
  decide (r.coll = p.coll)
    && ((decide (r.kind = 1 ∨ r.kind = 2) && gone.any (fun i => decide (r.seq = some i.seq)))
      || (decide (r.kind = 3) && r.plan.isEmpty && gone.any (fun i => decide (i.ext = r.ext) && decide (i.deleteTick = some r.tick)))
      || (decide (4 ≤ r.kind) && decide (r.pass < p.number)))

/-- Drop records from the ring, oldest first; those not yet programmed stand at its end. -/
def WriteBuf.leave (w : WriteBuf) (p : JRec → Bool) : WriteBuf :=
  let old := w.journal.take (w.journal.length - w.unprogrammed)
  let new := w.journal.drop (w.journal.length - w.unprogrammed)
  let kept := new.filter (fun r => !p r)
  { w with journal := old.filter (fun r => !p r) ++ kept, unprogrammed := kept.length }

/-- The end of a pass: folded items, and those deleted by its start, are retired; a kind 7 record, ATTN 5, and its CARRY
commands complete (R156, R162, R163; 13 R332). -/
def State.endPass (s : State) (p : Pass) : State :=
  let t := s.now
  let out (i : RemItem) : Bool := p.folded.any (fun f => decide (f.seq = i.seq)) || p.deletedAtP.contains i.seq
  let gone := match s.coll? p.coll with
    | some k => k.rem.filter (fun i => out i && decide (i.retiredTick = none))
    | none => []
  let s := s.modColl p.coll (fun k => { k with
    rem := mapWhere (fun i => out i && decide (i.retiredTick = none)) (fun i => { i with retiredTick := some t }) k.rem })
  let s := s.journal (carryRecord p 7 t none [] 0)
  let s := { s with wb := s.wb.leave (leavesAtEnd p gone) }
  let s := (s.setPass none).endPassGrant p
  let s := s.raiseEvent Attn.carryDone
  p.waiters.foldl (fun s w => match s.cmd? w with
    | some c => s.finish w ⟨Status.success, p.flags.quals, c.stamp, p.rewritten, p.number, p.folded.length⟩
    | none => s) s

/-! ### The start of a pass (R158, R165) -/

/-- Fresh ids from `next` upward below `limit`, skipping those of rods out of service. `fuel` bounds the ids looked at. -/
def State.freshIds (s : State) (limit : Nat) : Nat → Nat → Nat → List Nat
  | 0, _, _ => []
  | fuel + 1, need, next =>
    if need = 0 ∨ limit ≤ next then []
    else if s.rodIn (rodOf next) then next :: State.freshIds s limit fuel (need - 1) (next + 1)
    else State.freshIds s limit fuel need (next + 1)

/-- Does the journal vector of an item lie on rods in service (R154; 18 R460)? -/
def State.itemIn (s : State) (k : Coll) (i : RemItem) : Bool := s.remCovered k i

/-- The folded items and the reclaim set of a pass that starts now, with their node ids. -/
def State.newPass (s : State) (k : Coll) (who : List Nat) : Pass :=
  let live := sortBy (fun (a b : RemItem) => decide (a.seq ≤ b.seq))
    (k.rem.filter (fun i => i.liveAt s.now && s.itemIn k i))
  let reclaim := sortBy (fun a b => decide (a ≤ b))
    (k.tombs.filter (fun n => s.rodIn (rodOf n) && !k.retired.contains n))
  let need := live.length - reclaim.length
  let fresh := s.freshIds (k.segments * 1048576) (64 * need + 64) need k.nodesIssued
  { coll := k.num, number := s.cobj k.num 0x57 + 1, start := s.now, phase := .planning, seqLimit := k.nextSeq
    folded := (live.zip (reclaim ++ fresh)).map (fun p => ⟨p.1.seq, p.2, (k.gen p.2 + 1) % 16⟩)
    deletedAtP := (k.rem.filter (fun i => decide (i.retiredTick = none) && i.deleteTick.isSome)).map (fun i => i.seq)
    reclaim := reclaim, planClosed := false, edges := [], todo := [], rewrite := none, grant := none, rewritten := 0
    lastSwitched := none, restarted := false, byRepair := false, waiters := who
    backEdges := s.cobj k.num 0x54, searchL := s.cobj k.num 0x55, share := s.cobj k.num 0x56, flags := Flags.none }

/-- Nodes of a segment tombstoned at a tick. -/
def State.tombsAt (s : State) (k : Coll) (t : Tick) (g n : Nat) : Nat :=
  ((List.range n).filter (fun i => s.tombAt k t (g * 1048576 + i))).length

/-- The segments a pass rewrites, ascending (R161). -/
def State.passSegments (s : State) (k : Coll) (p : Pass) : List Nat :=
  (List.range k.segments).filter (fun g =>
    (match dirNow k g with
      | some d => decide (d.generation ≠ 0xFFFFFFFF)
      | none => true)
    && (p.folded.any (fun f => decide (nodeSegment f.node = g)) || p.edges.any (fun e => decide (nodeSegment e.1 = g))
      || (match dirNow k g with
        | some d => decide (p.share * d.issued ≤ (s.tombsAt k p.start g d.issued - d.tombstoned) * 65536)
        | none => false)))

/-- Ask for the power of the next segment rewrite (16 R410). -/
def State.askRewrite (s : State) (p : Pass) : State :=
  match p.todo with
  | [] => s.setPass (some { p with grant := none })
  | _ :: _ =>
    (s.setPass (some { p with grant := some s.pwr.nextGid })).askGrant (.carrySegment p.coll) false 40 none

/-- Close the plan of a pass (R159). -/
def State.closePlan (s : State) (k : Coll) (p : Pass) : State :=
  let s := s.journal (carryRecord p 5 s.now none [] 0)
  s.askRewrite { p with planClosed := true, phase := .writing, todo := s.passSegments k p }

/-- Resume a suspended pass at the failing segment: items assigned to ids on rods out of service stay in the remainder. -/
def State.resumePass (s : State) (p : Pass) (who : List Nat) : State :=
  let p := { p with
    phase := .writing, waiters := p.waiters ++ who, byRepair := false
    folded := p.folded.filter (fun f => s.rodIn (rodOf f.node)
      || (match p.lastSwitched with | some g => decide (nodeSegment f.node ≤ g) | none => false)) }
  let s := { s with carry := { s.carry with suspended := s.carry.suspended.filter (fun q => decide (q.coll ≠ p.coll)) } }
  s.askRewrite p

/-- May carry work go on: out of boot, not stopped, and no map repair ahead of it (18 R462, R467)? -/
def State.carryServed (s : State) : Bool :=
  s.up && s.boot.ready && !s.stopped && s.colls.all (fun k => decide (k.repair = 0))

/-- The next queued pass starts, or resumes. -/
def State.startCarry (s : State) (r : CarryReq) : State :=
  let s := { s.commitDue with carry := { s.carry with queue := s.carry.queue.drop 1 } }
  match s.coll? r.coll with
  | none => s.failWaiters r.waiters Status.invalidCollection
  | some k =>
    if s.reckoners.isEmpty then s.failWaiters r.waiters Status.unitOut
    else
      match s.carry.suspended.find? (fun p => decide (p.coll = r.coll)) with
      | some p => s.resumePass p r.waiters
      | none =>
        let p := s.newPass k r.waiters
        let s := (s.setObj (0x4100 + k.num) 0x57 0 p.number).journal (carryRecord p 4 s.now (some p.seqLimit) [] 0)
        if p.folded.isEmpty then s.closePlan k p else s.setPass (some p)

/-- PASS_START: the module is free of carry, and the request is of an earlier tick. -/
def execPassStart (s : State) : Ans :=
  match s.carry.pass, s.carry.queue with
  | none, r :: _ => if s.carryServed && decide (r.tick < s.now) then .next (s.startCarry r) else .next s
  | _, _ => .next s

/-! ### The prune (R160) -/

/-- A candidate of a prune, with its vector slot and its score with the node pruned. -/
structure PruneCand where
  loc : Loc
  slot : Bytes
  score : F32
  deriving DecidableEq, Repr

/-- The exact score of two stored vectors. -/
def Coll.pairScore (k : Coll) (a b : Bytes) : Flagged F32 :=
  metricScore k.metric (slotVals k a) (slotNorm k a) (slotVals k b) (slotNorm k b)

def pruneBefore (a b : PruneCand) : Bool :=
  lt32 b.score a.score || (eq32 a.score b.score && decide (a.loc.node ≤ b.loc.node))

/-- Take candidates in order; one is kept unless some kept one scores higher with it than the node pruned does. -/
def Coll.pruneLoop (k : Coll) (kept : List PruneCand) (f : Flags) : List PruneCand → Flagged (List PruneCand)
  | [] => (kept, f)
  | c :: cs =>
    if k.degree ≤ kept.length then (kept, f)
    else
      let (scores, g) := mapFlagged (fun (o : PruneCand) => k.pairScore c.slot o.slot) kept
      Coll.pruneLoop k (if scores.any (fun v => lt32 c.score v) then kept else kept ++ [c]) (f.or g) cs

/-- The prune of the node with slot `x` over candidates with their slots. -/
def Coll.prune (k : Coll) (x : Bytes) (cs : List (Loc × Bytes)) : Flagged (List Loc) :=
  let (scored, f) := mapFlagged (fun (c : Loc × Bytes) =>
    let (v, f) := k.pairScore x c.2
    ((⟨c.1, c.2, v⟩ : PruneCand), f)) cs
  let (kept, g) := k.pruneLoop [] f (sortBy pruneBefore (scored.filter (fun c => !isNan c.score)))
  (kept.map (fun c => c.loc), g)

/-! ### Planning (R159) -/

/-- The item a pass folds onto a node. -/
def Pass.itemAt (p : Pass) (k : Coll) (n : Nat) : Option (Folded × RemItem) :=
  match p.folded.find? (fun f => decide (f.node = n)) with
  | none => none
  | some f => (k.rem.find? (fun i => decide (i.seq = f.seq))).map (fun i => (f, i))

/-- The stored vector of a remainder item, from the write buffer or its journal tile, whose rod must be in service (R153,
R154, R157). -/
def State.itemSlot (s : State) (k : Coll) (i : RemItem) : Option Bytes :=
  if !i.programmed then some i.slot else if s.itemIn k i then s.journalSlot k i.seq else none

/-- The vector a locator names: that of a folded item, or of a graph node. -/
def State.locSlot (s : State) (k : Coll) (p : Pass) (l : Loc) : Option Bytes :=
  match p.itemAt k l.node with
  | some (f, i) => if f.gen = l.gen then s.itemSlot k i else none
  | none =>
    match dirNow k (nodeSegment l.node) with
    | some d => if s.nodeCovered k d l.node then slotOf k d l.node (s.cachedOrFlash k.num) else none
    | none => none

/-- The record of a node as flash holds it now. -/
def State.recordNow (s : State) (k : Coll) (n : Nat) : Option NodeRec :=
  match dirNow k (nodeSegment n) with
  | none => none
  | some d =>
    let (tile, ix) := nodePlace k d.bNode n
    let b := s.cachedOrFlash k.num tile
    if s.tileIn tile && tileOk b (nodeExpect k d tile) then some (decodeRecord k b ix) else none

/-- A node or vector tile that carry reads is looked up in the node cache, and filled after a read from its rod (03 R72). -/
def State.carryTile (s : State) (c t : Nat) : State :=
  match s.cached c t with
  | some l => s.touchTile c l
  | none => { s.fillTile c t (s.tileBytes t) with carry := { s.carry with reads := s.carry.reads + 1 } }

/-- Carry reads a tile: of a graph copy's node or vector tiles (true) through the node cache, or of a payload or journal tile
(false), which the cache never holds. -/
def State.carryLook (s : State) (c : Nat) (t : Bool × Nat) : State :=
  if t.1 then s.carryTile c t.2 else { s with carry := { s.carry with reads := s.carry.reads + 1 } }

def State.carryLooks (s : State) (c : Nat) (ts : List (Bool × Nat)) : State := ts.foldl (fun s t => s.carryLook c t) s

/-- The node tile of a graph copy, where it can be read. -/
def State.recordTiles (s : State) (k : Coll) (n : Nat) : List (Bool × Nat) :=
  match dirNow k (nodeSegment n) with
  | none => []
  | some d => (if s.tileIn (nodePlace k d.bNode n).1 then [(true, (nodePlace k d.bNode n).1)] else [])

/-- The journal tiles of an item that is no longer in the write buffer. -/
def State.itemTiles (s : State) (k : Coll) (i : RemItem) : List (Bool × Nat) :=
  if i.programmed && s.itemIn k i then (k.remTiles i.seq).map (fun t => (false, t)) else []

/-- The tiles that hold the vector a locator names. -/
def State.locTiles (s : State) (k : Coll) (p : Pass) (l : Loc) : List (Bool × Nat) :=
  match p.itemAt k l.node with
  | some (_, i) => s.itemTiles k i
  | none =>
    match dirNow k (nodeSegment l.node) with
    | some d => if s.nodeCovered k d l.node then (vecTilesOf k d l.node).map (fun t => (true, t)) else []
    | none => []

/-- The command under which planning searches run: none of the host's. -/
def Cmd.internal (cid part : Nat) : Cmd where
  cid := cid
  sq := 0
  port := .A
  fn := 0
  part := part
  cls := 0
  admin := false
  pasid := none
  silent := true
  entry := []
  stamp := 0
  fetchTick := 0
  stage := .searching
  inbuf := []
  item := none
  superseded := false
  judged := false
  flags := Flags.none
  restarted := false
  restartAt := none
  admTick := none
  waitTicks := 0
  todo := none
  asked := []
  askTick := 0
  page := .none
  logWait := false
  dw5 := 0
  dw6 := 0
  dw7 := 0

/-- The planning search of an item: the snapshot of the pass's start, its L, the collection's H, the controller's W, no
filter and no deadline, the item's own vector as the query. -/
def State.planSearch (s : State) (k : Coll) (p : Pass) (i : RemItem) (slot : Bytes) : Search :=
  let l := p.searchL
  let h := s.cobj k.num 0x23
  let w0 := s.cobj k.num 0x21
  let w := if w0 = 0 then s.controllerW k l h else min w0 (min l h)
  let q : WalkParams :=
    { l := l, w := w, h := h, m := s.cobj k.num 0x40, k := 1, f := 65536, mode := 0, model := 0xFFFF, filter := false
      nodeIds := false, payloads := false, tq := 0, wAuto := false, e := 0 }
  let x := newSearch (Cmd.internal s.nextCid k.part) k 0 q .walking
  { x with
    qFormat := k.format, query := slot, qNorm := slotNorm k slot, sketch := i.sketch, admTick := p.start
    entrySet := k.entrySet, rodsOut := s.rodsOutNow }

/-- One round of a planning search, its tiles read at once: none when a tile fails its check. -/
def State.planRound (s : State) (k : Coll) (x : Search) : Option Search × State :=
  let (x, near) := s.pickRound x k
  let es := near.map (fun c =>
    match s.nodeIn k x.admTick c.node with
    | some (_, tile, ix) =>
      (⟨c.node, c.gen, tile, ix, false, 0, .formed (x.formReply k c.node c.gen (s.cachedOrFlash k.num tile))⟩ : Expansion)
    | none => ⟨c.node, c.gen, 0, 0, false, 0, .formed none⟩)
  let s := es.foldl (fun s e => s.carryTile k.num e.tile) s
  let got := es.map (fun e => match e.stage with
    | .formed (some r) => { e with stage := .arrived r }
    | _ => e)
  if got.all (fun e => match e.stage with | .arrived _ => true | _ => false) then
    (some (s.mergeRound { x with open_ := got } k), s)
  else (none, s)

/-- A planning search walks until it has converged or its hop budget is spent. -/
def State.planWalk (k : Coll) : Nat → State → Search → Option Search × State
  | 0, s, x => (some x, s)
  | fuel + 1, s, x =>
    if x.cands.all (fun e => e.expanded) || decide (x.params.h ≤ x.expansions) then (some x, s)
    else
      match s.planRound k x with
      | (none, s) => (none, s)
      | (some y, s) => State.planWalk k fuel s y

/-- The locator a candidate of the rerank set stands for: its node, or the id assigned to the folded item. -/
def Pass.candLoc (p : Pass) (r : RankCand) : Option Loc :=
  if r.fromRem then (p.folded.find? (fun f => decide (f.seq = r.seq))).map (fun f => ⟨f.node, f.gen⟩)
  else some ⟨r.node, r.gen⟩

/-- The edges the plan gives a node, or those its record holds. -/
def State.planEdges (s : State) (k : Coll) (p : Pass) (n : Nat) : List Loc :=
  match p.edges.find? (fun e => decide (e.1 = n)) with
  | some e => e.2
  | none =>
    match s.recordNow k n with
    | some r => r.edges.map (fun e => e.1)
    | none => []

def Pass.putEdges (p : Pass) (n : Nat) (l : List Loc) : Pass :=
  { p with edges := p.edges.filter (fun e => decide (e.1 ≠ n)) ++ [(n, l)] }

/-- Candidates of a prune with the vectors that can be read. -/
def State.pruneSet (s : State) (k : Coll) (p : Pass) (ls : List Loc) : List (Loc × Bytes) :=
  ls.filterMap (fun l => (s.locSlot k p l).map (fun b => (l, b)))

def Pass.raise (p : Pass) (f : Flags) : Pass := { p with flags := p.flags.or f }

/-- Add the back-edge from a neighbour to an item, pruning the neighbour when it has more than D edges. -/
def State.backEdge (s : State) (k : Coll) (item : Loc) (p : Pass) (n : Loc) : Pass × State :=
  let es := (s.planEdges k p n.node).filter (fun l => decide (l ≠ item)) ++ [item]
  let s := s.carryLooks k.num (s.recordTiles k n.node)
  if es.length ≤ k.degree then (p.putEdges n.node es, s)
  else
    let s := s.carryLooks k.num ((n :: es).map (s.locTiles k p)).flatten
    match s.locSlot k p n with
    | some x =>
      let (kept, f) := k.prune x (s.pruneSet k p es)
      ((p.putEdges n.node kept).raise f, s)
    | none => (p, s)

/-- The back-edges of a planned item, in the order of its kept neighbours. -/
def State.backEdges (k : Coll) (item : Loc) : State → Pass → List Loc → Pass × State
  | s, p, [] => (p, s)
  | s, p, n :: ns =>
    let (p, s) := s.backEdge k item p n
    State.backEdges k item s p ns

/-- Plan one folded item: none when a tile fails its check. -/
def State.planItem (s : State) (k : Coll) (p : Pass) (f : Folded) : Option Pass × State :=
  match k.rem.find? (fun i => decide (i.seq = f.seq)) with
  | none => (some p, s)
  | some i =>
    match s.itemSlot k i with
    | none => (none, s)
    | some slot =>
      let s := s.carryLooks k.num (s.itemTiles k i)
      let x := s.planSearch k p i slot
      match s.seedAll k x x.entrySet with
      | none => (none, s)
      | some y =>
        match State.planWalk k (y.params.h + 1) s (y.trim y.cands) with
        | (none, s) => (none, s)
        | (some y, s) =>
          let y := { y with hits := (y.remHits { k with rem := k.rem.filter (fun j => decide (j.seq ≠ f.seq)) }) }
          let set := (y.rankSet true).filter (fun r => s.candIn k p.start r)
          let s := s.carryLooks k.num ((set.filter (fun r => !k.inBuffer r)).map (fun r =>
            (candTiles k p.start r).map (fun t => (!r.fromRem, t)))).flatten
          if set.any (fun r => (s.candSlot k p.start r).isNone) then (none, s)
          else
            let cs := set.filterMap (fun r => match p.candLoc r, s.candSlot k p.start r with
              | some l, some b => some (l, b)
              | _, _ => none)
            let (kept, fl) := k.prune slot cs
            let me : Loc := ⟨f.node, f.gen⟩
            let graph := kept.filter (fun l => (p.itemAt k l.node).isNone)
            let (p, s) := State.backEdges k me s ((p.putEdges f.node kept).raise fl) (graph.take p.backEdges)
            (some p, s.journal (carryRecord p 5 s.now (some f.seq) [(f.node, kept)] 0))

def State.planItems (k : Coll) : State → Pass → List Folded → Option Pass × State
  | s, p, [] => (some p, s)
  | s, p, f :: fs =>
    match s.planItem k p f with
    | (none, s) => (none, s)
    | (some p, s) => State.planItems k s p fs

/-- The reads since the last step have given carry what its next step takes from the rods (02 R44; R157). The step spends
them. -/
def State.spend (s : State) : State := { s with carry := { s.carry with credit := 0 } }

/-- A pass without the folded items whose journal vector is on a rod gone out of service: they stay in the remainder. -/
def Pass.readable (p : Pass) (s : State) (k : Coll) : Pass :=
  { p with folded := p.folded.filter (fun f => k.rem.any (fun i => decide (i.seq = f.seq) && (!i.programmed || s.itemIn k i))) }

/-- The tiles that PLAN reads from the rods. -/
def State.planReads (s : State) (k : Coll) (p : Pass) : Nat :=
  (State.planItems k s (p.readable s k) (p.readable s k).folded).2.carry.reads - s.carry.reads

/-- PLAN: a planning search for each folded item in ascending sequence order, then the plan is closed. It waits until carry
has been given its tile reads. A search that meets a failed tile twice ends the pass (R159; 18 R455); flash does not change
between the two attempts. -/
def execPlan (s : State) : Ans :=
  match s.carry.pass with
  | none => .next s
  | some p =>
    match s.coll? p.coll with
    | none => .next s
    | some k =>
      if p.planClosed || !s.carryServed then .next s
      else if s.reckoners.isEmpty then .next (s.abandonPass p Status.unitOut)
      else if s.carry.credit < s.planReads k p then .next s
      else
        match State.planItems k s (p.readable s k) (p.readable s k).folded with
        | (some p', s) => .next (s.spend.closePlan k p')
        | (none, s) => .next ((s.spend.count 0x4000 5 2).abandonPass p Status.checksumFail)

/-! ### Rewriting a segment (R161) -/

/-- What a node's slots hold after the rewrite. -/
structure NodeNew where
  record : NodeRec
  slot : Bytes
  row : Bytes
  flags : Flags
  deriving DecidableEq, Repr

/-- Is an edge to be removed: its target tombstoned at the start of the pass, stale, or owned by a rod out of service? -/
def State.edgeDead (s : State) (k : Coll) (p : Pass) (l : Loc) : Bool :=
  !s.rodIn (rodOf l.node)
    || (match p.folded.find? (fun f => decide (f.node = l.node)) with
      | some f => decide (f.gen ≠ l.gen)
      | none => p.reclaim.contains l.node || k.retired.contains l.node || decide (l.gen ≠ k.gen l.node))

/-- The candidates that remain to a node for its repair: its edges that stay, then the out-edges of the removed targets.
DESIGN CHOICE (log entry 75): a removed target offers edges only while its record is valid and has the edge's locator; the
node that now holds another item than a stale edge names offers none. -/
def State.repairSet (s : State) (k : Coll) (p : Pass) (n : Nat) (es : List Loc) : List Loc :=
  let good := es.filter (fun l => !s.edgeDead k p l)
  let offered := ((es.filter (fun l => s.edgeDead k p l)).map (fun l => match s.recordNow k l.node with
    | some r => if r.valid && decide (r.loc = l) then r.edges.map (fun e => e.1) else []
    | none => [])).flatten.filter (fun l => !s.edgeDead k p l && decide (l.node ≠ n))
  (good ++ offered).eraseDups

/-- Repair the edges of a node with vector `x`. -/
def State.repairEdges (s : State) (k : Coll) (p : Pass) (n : Nat) (x : Bytes) (es : List Loc) : Flagged (List Loc) :=
  if es.any (fun l => s.edgeDead k p l) then k.prune x (s.pruneSet k p (s.repairSet k p n es)) else (es, Flags.none)

/-- The tiles that the repair of a node reads: the records of the removed targets, then the vectors to choose from. -/
def State.repairTiles (s : State) (k : Coll) (p : Pass) (n : Nat) : List (Bool × Nat) :=
  let es := s.planEdges k p n
  let dead := es.filter (fun l => s.edgeDead k p l)
  if dead.isEmpty then []
  else (dead.map (fun l => s.recordTiles k l.node)).flatten ++ ((s.repairSet k p n es).map (s.locTiles k p)).flatten

/-- The sketch of an edge's target. -/
def State.locSketch (s : State) (k : Coll) (p : Pass) (old : List (Loc × Nat)) (l : Loc) : Nat :=
  match old.find? (fun e => decide (e.1 = l)) with
  | some e => e.2
  | none =>
    match p.itemAt k l.node with
    | some (_, i) => i.sketch
    | none => (match s.recordNow k l.node with | some r => r.sketch | none => 0)

/-- Are all the tiles of a node readable or lost, and does its record check? -/
def State.nodeChecks (s : State) (k : Coll) (d : DirEntry) (n : Nat) : Bool :=
  let (nt, ix) := nodePlace k d.bNode n
  let b := s.cachedOrFlash k.num nt
  let r := decodeRecord k b ix
  !s.nodeCovered k d n
    || (tileOk b (nodeExpect k d nt) && (!r.valid || (decide (r.loc.node = n) && (slotOf k d n (s.cachedOrFlash k.num)).isSome
      && (decide (k.payload = 0) || !s.tileIn (payPlace k d.bPay n).1
        || (s.checkedTile (payExpect k d (payPlace k d.bPay n).1)).isSome))))

/-- The payload row of a node. -/
def State.payRow (s : State) (k : Coll) (d : DirEntry) (n : Nat) : Bytes :=
  if k.payload = 0 then []
  else
    let (t, i) := payPlace k d.bPay n
    match s.checkedTile (payExpect k d t) with
    | some b => slice b (i * k.payload) k.payload
    | none => []

/-- The new content of a node's slots: none where they are empty. `d` is the segment's present entry, if any. -/
def State.nodeNew (s : State) (k : Coll) (p : Pass) (d : Option DirEntry) (n : Nat) : Option NodeNew :=
  let make (ext : BitVec 64) (gen : Nat) (attrs : BitVec 128) (sk : Nat) (slot row : Bytes) (old : List (Loc × Nat))
      (es : List Loc) : NodeNew :=
    let (es, f) := s.repairEdges k p n slot es
    ⟨{ ext := ext, loc := ⟨n, gen⟩, valid := true, entry := k.entrySet.any (fun l => decide (l.node = n))
       carryPass := p.number, attrs := attrs, sketch := sk
       edges := es.map (fun l => (l, s.locSketch k p old l)) }, slot, row, f⟩
  match p.itemAt k n with
  | some (f, i) =>
    (s.itemSlot k i).map (fun v => make i.ext f.gen i.attrs i.sketch v i.payload [] (s.planEdges k p n))
  | none =>
    match d with
    | none => none
    | some d =>
      if d.issued ≤ nodeIndex n || p.reclaim.contains n || !s.nodeCovered k d n then none
      else
        match s.recordNow k n, slotOf k d n (s.cachedOrFlash k.num) with
        | some r, some v =>
          if r.valid then some (make r.ext r.loc.gen r.attrs r.sketch v (s.payRow k d n) r.edges (s.planEdges k p n))
          else none
        | _, _ => none

/-- The record of an emptied node (R158, R161 step 5): valid flag 0, with the locator that the switch gives it, so that a seed
finds it and skips it (04 R82, R90). The slot of an id never issued is all zero (03 R63). -/
def State.emptyRecord (s : State) (k : Coll) (p : Pass) (n : Nat) : Bytes :=
  if p.reclaim.contains n then
    let was : Bool := match s.recordNow k n with | some r => r.valid | none => false
    encodeRecord k { ext := 0, loc := ⟨n, if was then (k.gen n + 1) % 16 else k.gen n⟩, valid := false, entry := false
                     carryPass := p.number, attrs := 0, sketch := 0, edges := [] }
  else []

/-- The tiles of one kind of a segment: tile q of rod r from the slots of its nodes, `per` to a tile. `blank` fills a slot
without content. -/
def Coll.regionTilesOf (k : Coll) (g base per n fmt gen len : Nat) (content : Nat → Option Bytes)
    (blank : Nat → Bytes) : List (Nat × Bytes) :=
  (List.range (64 * n)).map (fun t =>
    let cells := (List.range per).map (fun i =>
      let j := per * (t / 64) + i
      let m := nodeOnRod g j (t % 64)
      if j < 16384 then (content m, blank m) else (none, []))
    let body := (cells.map (fun c => fit len (c.1.getD c.2))).flatten
    (base + t, mkTile body (base + t) k.num fmt (cells.filter (fun c => c.1.isSome)).length g gen))

/-- The tiles of vectors that take several tiles each. -/
def Coll.longVectors (k : Coll) (g base gen : Nat) (content : Nat → Option Bytes) : List (Nat × Bytes) :=
  (List.range (64 * k.vecTiles)).map (fun t =>
    let q := t / 64
    let v := content (nodeOnRod g (q / k.tilesPerVec) (t % 64))
    (base + t, mkTile (slice (v.getD []) (4064 * (q % k.tilesPerVec)) 4064) (base + t) k.num TileFmt.vector 1 g gen))

/-- The tiles of a whole segment with the given content at a base (R161 step 6). -/
def Coll.segmentTiles (k : Coll) (g base gen : Nat) (content : Nat → Option NodeNew) (blank : Nat → Bytes) : List (Nat × Bytes) :=
  let bVec := base + 64 * k.nodeTiles
  let bPay := bVec + 64 * k.vecTiles
  k.regionTilesOf g base k.recsPerTile k.nodeTiles TileFmt.node gen k.recBytes
      (fun n => (content n).map (fun v => encodeRecord k v.record)) blank
    ++ (if k.vecsPerTile = 0 then k.longVectors g bVec gen (fun n => (content n).map (fun v => v.slot))
      else k.regionTilesOf g bVec k.vecsPerTile k.vecTiles TileFmt.vector gen k.slotLen
        (fun n => (content n).map (fun v => v.slot)) (fun _ => []))
    ++ (if k.payload = 0 then []
      else k.regionTilesOf g bPay k.rowsPerTile k.payTiles TileFmt.payload gen k.payload
        (fun n => (content n).map (fun v => v.row)) (fun _ => []))

/-- Blocks asked for ahead of a switch, whose content the switch gives, that no switch has used. -/
def State.dropUnused (s : State) (n g : Nat) : State :=
  let unused (b : Nat × SysBlock) : Bool :=
    decide (b.2.bytes = []) && (decide (b.2.use = .entry n g) || decide (b.2.use = .descHead n))
  { s with sys := { s.sys with blocks := s.sys.blocks.filter (fun b => !unused b) } }

/-- Does the entry set name a node of a segment? -/
def Coll.entersIn (k : Coll) (g : Nat) : Bool := k.entrySet.any (fun l => decide (nodeSegment l.node = g))

/-- What is due of the rewrite of a segment when a die has reported. Once the last of its tiles is programmed, the programs of
its directory entry are asked for, and of the descriptor tile that holds the entry set where the segment has a part in it; the
switch gives them the values of its tick. When they have completed, the entry and the kind 6 record are durable (R161 step 7,
R162 step 4). -/
def State.rewriteDurable (s : State) (n : Nat) : State :=
  match s.carry.pass, s.coll? n with
  | some p, some k =>
    (match p.rewrite with
    | none => s
    | some w =>
      if p.coll ≠ n ∨ w.written.isSome = true ∨ s.programming (.carry n) = true then s
      else if !w.entering then
        let s := (s.dropUnused n w.segment).setPass (some { p with rewrite := some { w with entering := true } })
        let s := s.askBlock (.entry n w.segment) none (fun _ => [])
        if k.entersIn w.segment then s.askBlock (.descHead n) none (fun _ => []) else s
      else if s.blocking (.entry n w.segment) || s.blocking (.descHead n) then s
      else
        let t := s.now
        (s.journal (carryRecord p 6 t none [] w.segment)).setPass (some { p with rewrite := some { w with written := some t } }))
  | _, _ => s

/-- The blocks asked for ahead of a switch hold what the switch gives them. -/
def State.fillBlocks (s : State) (u : SysUse) (make : Nat → Bytes) : State :=
  let fill (b : Nat × SysBlock) : Nat × SysBlock := if b.2.use = u ∧ b.2.bytes = [] then (b.1, ⟨u, make b.1⟩) else b
  { s with sys := { s.sys with blocks := s.sys.blocks.map fill } }

/-- The pass as the rewrite of a segment finds it: items assigned to rods gone out of service, and those whose vector is on
one, stay in the remainder. -/
def State.passFor (s : State) (k : Coll) (p : Pass) (g : Nat) : Pass :=
  { p with folded := p.folded.filter (fun f => decide (nodeSegment f.node ≠ g)
      || (s.rodIn (rodOf f.node) && (p.readable s k).folded.contains f)) }

/-- The reads of a segment rewrite: the tiles of the segment (step 1), the vectors of its folded items, and what the repair
of its nodes reads (step 4). -/
def State.rewriteReads (s : State) (k : Coll) (p : Pass) (g : Nat) : State :=
  let p := s.passFor k p g
  let here := p.folded.filter (fun f => decide (nodeSegment f.node = g))
  let own := match dirNow k g with
    | some d => (List.range k.segTiles).map (fun t => (decide (t < 64 * (k.nodeTiles + k.vecTiles)), d.bNode + t))
    | none => []
  let issued := match dirNow k g with | some d => d.issued | none => 0
  let items := (here.filterMap (fun f => (p.itemAt k f.node).map (fun i => s.itemTiles k i.2))).flatten
  let ids := (List.range issued).map (fun i => g * 1048576 + i) ++ here.map (fun f => f.node)
  s.carryLooks k.num (own.filter (fun t => s.tileIn t.2) ++ items ++ (ids.eraseDups.map (s.repairTiles k p)).flatten)

/-- The rewrite of a segment into a free part of the workspace. -/
def State.rewriteSegment (s : State) (k : Coll) (p : Pass) (g base : Nat) : State :=
  let read := s.rewriteReads k p g
  let p := s.passFor k p g
  let d := dirNow k g
  let issued := match d with | some d => d.issued | none => 0
  let gen := match d with | some d => d.generation + 1 | none => 1
  let ids := (List.range issued).map (fun i => g * 1048576 + i)
  let mine (n : Nat) : Bool := p.folded.any (fun f => decide (f.node = n))
  let old (n : Nat) : Bool := match s.recordNow k n with | some r => r.valid | none => false
  let emptied := ids.filter (fun n => p.reclaim.contains n && !mine n && old n)
  let retiring := match d with
    | some d => ids.filter (fun n => !s.nodeCovered k d n && !k.skipped.contains n && !k.retired.contains n && !mine n)
    | none => []
  let f := (ids ++ p.folded.map (fun f => f.node)).foldl (fun f n =>
    if nodeSegment n = g then (match s.nodeNew k p d n with | some v => f.or v.flags | none => f) else f) Flags.none
  let tiles := k.segmentTiles g base gen (fun n => s.nodeNew k p d n) (fun n => s.emptyRecord k p n)
  let w : Rewrite :=
    { segment := g, bNode := base, bVec := base + 64 * k.nodeTiles
      bPay := if k.payload = 0 then 0 else base + 64 * (k.nodeTiles + k.vecTiles)
      emptied := emptied, retiring := retiring, written := none, entering := false, held := false }
  ((read.setPass (some ({ p with rewrite := some w, restarted := false }.raise f))).askTiles (.carry k.num) none k.part
    tiles).rewriteDurable k.num

/-- Does every tile of a segment that carry reads pass its check? -/
def State.segmentChecks (s : State) (k : Coll) (g : Nat) : Bool :=
  match dirNow k g with
  | none => true
  | some d => (List.range d.issued).all (fun i => k.skipped.contains (g * 1048576 + i) || s.nodeChecks k d (g * 1048576 + i))

/-- A fault of the rewrite: it restarts once, then the pass is suspended (18 R455). -/
def State.faultPass (s : State) (p : Pass) (checksum : Bool) : State :=
  if p.restarted then s.suspendPass p (repeatStatus checksum) else s.setPass (some { p with restarted := true })

/-- Has the present slot of the tick table carry writes (02 R44)? -/
def State.carryWrites (s : State) : Bool := slotCarryWrite (s.table.slot s.activeBank (s.now % 4096))

/-- The places that hold a whole segment's tiles, by their first: the carry workspace, then one for each segment (R52). -/
def Coll.places (k : Coll) : List Nat :=
  (List.range 8).map (fun i => k.workBase + i * k.segTiles) ++ (List.range k.segments).map (fun g => k.segBase + g * k.segTiles)

/-- Is a die still at work on some tile of a range? -/
def State.diesBusy (s : State) (base n : Nat) : Bool :=
  s.pwr.grants.any (fun g => !g.releasing && (match g.kind with
    | .erase _ b m => decide (b < base + n) && decide (base < b + m)
    | .program _ t _ _ => decide (base ≤ t) && decide (t < base + n)
    | _ => false))

/-- The places that no directory entry names and where no die is at work (03 R69; R164, R165). -/
def State.freePlaces (s : State) (k : Coll) : List Nat :=
  k.places.filter (fun b => !k.dir.any (fun d => decide (d.bNode = b)) && !s.diesBusy b k.segTiles)

/-- The free place a rewrite of segment `g` goes to: `asked`, or the first. One place stays kept for each segment not yet
written, so that only the workspace serves rewrites (R52, R164). -/
def State.placeFor (s : State) (k : Coll) (g asked : Nat) : Option Nat :=
  let kept := if (dirNow k g).isSome then k.segments - k.segmentsIn.length else 0
  if (s.freePlaces k).length ≤ kept then none
  else if (s.freePlaces k).contains asked then some asked
  else (s.freePlaces k).head?

/-- Is the power of the present rewrite granted? -/
def State.rewriteGranted (s : State) (p : Pass) : Bool :=
  match p.grant with
  | some g => s.pwr.grants.any (fun x => decide (x.gid = g) && x.granted)
  | none => false

/-- The tiles that the rewrite of a segment reads from the rods. -/
def State.rewriteNeed (s : State) (k : Coll) (p : Pass) (g : Nat) : Nat := (s.rewriteReads k p g).carry.reads - s.carry.reads

/-- The node tiles that hold live nodes of a collection on some rods: what map repair and a return scan read (18 R462, R463). -/
def State.recordReads (s : State) (k : Coll) (rods : Nat → Bool) : Nat :=
  ((((s.liveNodes k s.now).filter (fun p => rods (rodOf p.1))).map (fun p => (nodePlace k p.2.bNode p.1).1)).eraseDups).length
def State.repairReads (s : State) (k : Coll) : Nat := s.recordReads k s.rodIn
def State.scanReads (s : State) (rod : Nat) : Nat := sumBy (fun k => s.recordReads k (fun r => decide (r = rod))) s.colls

/-- The tile reads that the next step of the pass takes from the rods: none while none is due. -/
def State.passNeed (s : State) : Nat :=
  match s.carry.pass with
  | none => 0
  | some p =>
    match s.coll? p.coll with
    | none => 0
    | some k =>
      if !p.planClosed then s.planReads k p
      else
        match p.todo with
        | [] => 0
        | g :: _ => (if p.rewrite.isNone then s.rewriteNeed k p g else 0)

/-- The most tile reads that a step of carry waits for: of its pass, of map repair, or of a return scan. -/
def State.carryNeed (s : State) : Nat :=
  let repairs := (s.colls.filter (fun k => decide (k.repair ≠ 0))).map s.repairReads
  let scans := ((List.range 64).filter (fun r => decide (s.unitState (unitRod r) = 3))).map s.scanReads
  (repairs ++ scans).foldl max s.passNeed

/-- SEGMENT_REWRITE, steps 1 to 7, once its power grant is given and its tile reads have been given to carry. The device
writes into the free place named, or else the first free one; without one the pass waits (R164). -/
def execSegmentRewrite (place : Nat) (s : State) : Ans :=
  match s.carry.pass with
  | none => .next s
  | some p =>
    match p.todo, s.coll? p.coll with
    | g :: _, some k =>
      if !p.planClosed || p.rewrite.isSome || !s.rewriteGranted p || !s.carryWrites || !s.carryServed then .next s
      else if s.reckoners.isEmpty then .next (s.suspendPass p Status.unitOut)
      else if s.carry.credit < s.rewriteNeed k p g then .next s
      else if !s.segmentChecks k g then .next (((s.rewriteReads k p g).spend.count 0x4000 5 1).faultPass p true)
      else
        match s.placeFor k g place with
        | none => .next s
        | some b => .next (s.rewriteSegment k p g b).spend
    | _, _ => .next s

/-! ### The directory switch (R162, R163) -/

/-- Set the generation of a node, with its change-log entry. -/
def State.putGen (s : State) (coll n g : Nat) : State :=
  match s.coll? coll with
  | none => s
  | some k =>
    (s.logChange coll n false (k.gen n)).modColl coll (fun k => { k with gens := Sparse.put (fun _ => 0) k.gens n g })

/-- Clear the tombstone bit of a node, with its change-log entry. -/
def State.untomb (s : State) (coll n : Nat) : State :=
  match s.coll? coll with
  | none => s
  | some k =>
    if k.tomb n then
      (s.logChange coll n true 1).modColl coll (fun k => { k with tombs := k.tombs.filter (fun m => decide (m ≠ n)) })
    else s

/-- Retire nodes: tombstoned, out of the live count, never issued again (R170; 18 R460). -/
def State.retireNodes (s : State) (coll : Nat) (ns : List Nat) : State :=
  let s := ns.foldl (fun s n => s.tombstone coll n) s
  s.modColl coll (fun k => { k with retired := k.retired ++ ns.filter (fun n => !k.retired.contains n) })

/-- Put a graph copy into the map. An older entry of the id in use is of a dead node and is marked deleted. -/
def State.enterMap (s : State) (coll : Nat) (e : MapEntry) : State :=
  match s.coll? coll with
  | none => s
  | some k =>
    let v := mapInsert (s.mapView (mapDelete k e.ext)) e
    s.modColl coll (fun k => { k with buckets := v.buckets })

/-- What a switch leaves on flash, each block in two copies: the directory entry and, where the segment has a part in the entry
set, the descriptor tile that holds it, in the blocks made durable ahead of it; the tiles of the map that changed since `old`;
the slices of the segment's tables (R162; 03 R67, R70; 18 R465). -/
def State.switchBlocks (s : State) (old : Coll) (g : Nat) : State :=
  match s.coll? old.num with
  | none => s
  | some k =>
    let s := match dirNow k g with
      | some d => s.fillBlocks (.entry k.num g) (entryTile k.num d)
      | none => s
    let stale (b : SysBlock) : Bool := decide (b.use = .descHead k.num) && decide (b.bytes ≠ [])
    let s := if k.entersIn g then
        let gone := (s.sys.blocks.filter (fun b => stale b.2)).map (fun b => b.1)
        gone.foldl (fun s n => s.askGrant (.eraseBlock n) true 1 none) (s.fillBlocks (.descHead k.num) (k.descTile k.descHead))
      else s
    (s.askBuckets old).askSlices k g

/-- Deletions whose graph copies are all rewritten, and whose remainder copy, if any, is retired, leave the ring (R163). -/
def State.leaveDeletes (s : State) (n g : Nat) : State :=
  let held (r : JRec) : Bool := match s.coll? n with
    | some k => k.rem.any (fun i => decide (i.ext = r.ext) && decide (i.deleteTick = some r.tick) && decide (i.retiredTick = none))
    | none => false
  let mine (r : JRec) : Bool := decide (r.coll = n) && decide (r.kind = 3) && r.plan.any (fun e => decide (nodeSegment e.1 = g))
  let gone (r : JRec) : Bool := mine r && r.plan.all (fun e => decide (nodeSegment e.1 = g)) && !held r
  let w := s.wb.leave gone
  let strip (r : JRec) : JRec := { r with plan := r.plan.filter (fun e => decide (nodeSegment e.1 ≠ g)) }
  { s with wb := { w with journal := mapWhere mine strip w.journal } }

/-- Tables, map, directory journal and entry set at the switch, in the order of R162. A segment first written by carry has
generation 1 and takes the lowest free slice (DESIGN CHOICE, log entry 84). -/
def State.switchSegment (s : State) (p : Pass) (w : Rewrite) : State :=
  match s.coll? p.coll with
  | none => s
  | some k0 =>
    let n := p.coll
    let here := p.folded.filter (fun f => decide (nodeSegment f.node = w.segment))
    let item (f : Folded) : Option RemItem := k0.rem.find? (fun i => decide (i.seq = f.seq))
    let deleted (f : Folded) : Bool := match item f with | some i => i.deleteTick.isSome | none => true
    let s := here.foldl (fun s f => (s.putGen n f.node f.gen).untomb n f.node) s
    let s := w.emptied.foldl (fun s e => s.putGen n e ((k0.gen e + 1) % 16)) s
    let s := (here.filter deleted).foldl (fun s f => s.tombstone n f.node) s
    let s := s.retireNodes n w.retiring
    let top := here.foldl (fun m f => max m (nodeIndex f.node + 1)) (match dirNow k0 w.segment with | some d => d.issued | none => 0)
    let issued := here.foldl (fun m f => max m (f.node + 1)) k0.nodesIssued
    let skipped := (List.range (issued - k0.nodesIssued)).map (fun i => k0.nodesIssued + i)
    let skipped := skipped.filter (fun m => !here.any (fun f => decide (f.node = m)))
    let s := here.foldl (fun s f => match item f with
      | some i => s.enterMap n ⟨i.ext, f.node, f.gen, 1⟩
      | none => s) s
    let reborn (e : MapEntry) : Bool := here.any (fun f => decide (f.node = e.node) && decide (f.gen ≠ e.gen))
      || w.emptied.contains e.node
    let s := s.modColl n (fun k => { k with
      nodesIssued := issued, skipped := k.skipped ++ skipped
      buckets := k.buckets.map (fun b => (b.1, mapWhere (fun e => decide (e.state = 1) && reborn e)
        (fun e => { e with state := 2 }) b.2)) })
    let t := s.now
    let s := s.modColl n (fun k =>
      let tombs := (k.tombs.filter (fun m => decide (nodeSegment m = w.segment))).length
      let (gen, slice) := match dirNow k w.segment with | some d => (d.generation + 1, d.slice) | none => (1, (s.freeSlices 1).headD 0)
      let e : DirEntry :=
        { segment := w.segment, generation := gen, issued := top, bNode := w.bNode, bVec := w.bVec, bPay := w.bPay
          slice := slice, switchTick := t, carryPass := p.number, tombstoned := tombs, dropped := false }
      { k with dir := e :: k.dir })
    let entries := k0.entrySet.any (fun l => decide (nodeSegment l.node = w.segment))
    let s := if entries then
        s.modColl n (fun k => { k with
          entrySet := mapWhere (fun l => decide (nodeSegment l.node = w.segment)) (fun l => ⟨l.node, k.gen l.node⟩) k.entrySet
          descVersion := k.descVersion + 1 })
      else s
    let s := match s.coll? n with
      | some k => if entries then s.pinEntrySet k else s
      | none => s
    ((s.leaveDeletes n w.segment).switchBlocks k0 w.segment).ccount n 0x19 1

/-- The switch of the segment rewritten; after the last the pass ends, else the next rewrite asks for its power. -/
def State.takeSwitch (s : State) (p : Pass) (w : Rewrite) : State :=
  let s := (s.commitDue.switchSegment p w).endPassGrant p
  let p := { p with
    rewrite := none, grant := none, todo := p.todo.drop 1, rewritten := p.rewritten + 1, lastSwitched := some w.segment }
  if p.todo.isEmpty then s.endPass p else if p.byRepair then s.suspendForRepair p else s.askRewrite p

/-- Has the change log room for the changes of a switch, or does no search need what it holds (04 R94)? -/
def State.switchRoom (s : State) (p : Pass) (w : Rewrite) : Bool :=
  s.chg.isEmpty || decide ((s.commitDue.switchSegment p w).chg.length ≤ changeLogSize)

/-- DIRECTORY_SWITCH: in phase 2 of a tick after that in which the entry was made durable, so before any admission of that
tick. Mutations of the tick rank first. A switch whose changes the log has no room for waits, and is counted once
(04 R94, R115). -/
def execDirectorySwitch (s : State) : Ans :=
  match s.carry.pass with
  | none => .next s
  | some p =>
    match p.rewrite with
    | some w =>
      let late := s.searches.any (fun x => decide (x.coll = p.coll) && x.began && decide (x.admTick = s.now))
      let durable : Bool := match w.written with | some t => decide (t < s.now) | none => false
      if !(durable && s.up && !s.stopped && !late) then .next s
      else if s.switchRoom p w then .next (s.takeSwitch p w)
      else if w.held then .next s
      else .next ((s.count 0x3100 5 1).setPass (some { p with rewrite := some { w with held := true } }))
    | none => .next s

/-! ### Releases (R151, R164; 03 R53, R73) -/

/-- ITEM_RELEASE: retired items that no search can still see leave the remainder, in a tick after that of their retirement. -/
def execItemRelease (coll : Fin 64) (s : State) : Ans :=
  .next (s.modColl coll (fun k => { k with
    rem := k.rem.filter (fun i => match i.retiredTick with
      | some t => decide (s.now ≤ t) || s.snapshotBefore t
      | none => true) }))

/-- The switch tick that made an entry old, if one did: that of the next newer entry of its segment. -/
def newerSwitch (dir : List DirEntry) (d : DirEntry) : Option Tick :=
  ((dir.filter (fun e => decide (e.segment = d.segment) && decide (d.generation < e.generation))).getLast?).map (fun e => e.switchTick)

/-- Old entries whose tiles no search needs. -/
def State.releasable (s : State) (k : Coll) : List DirEntry :=
  k.dir.filter (fun d => match newerSwitch k.dir d with
    | some t => !s.snapshotBefore t
    | none => false)

/-- Release the tiles of an old segment: they return to the workspace, their cache lines go, and they are lost no more. -/
def State.releaseEntry (s : State) (n : Nat) (d : DirEntry) : State :=
  match s.coll? n with
  | none => s
  | some k =>
    let mine (t : Nat) : Bool := decide (d.bNode ≤ t) && decide (t < d.bNode + k.segTiles)
    let s := (s.dropLines n mine).askErase d.bNode k.segTiles
    let s := { s with units := { s.units with lost := s.units.lost.filter (fun l => l.2 || !mine l.1) } }
    (s.modColl n (fun k => { k with dir := k.dir.filter (fun e => decide (e ≠ d)) })).dropOldEntries n d.segment

/-- A dropped collection returns to absent: its tiles, lines, settings and HBM are free (03 R53). -/
def State.removeColl (s : State) (k : Coll) : State :=
  let mine (t : Nat) : Bool := k.owns t
  let s := k.parts.foldl (fun s p => s.askErase p.1 p.2) (s.dropLines k.num (fun _ => true))
  let s := (s.dropBlocks (fun u => decide (u.coll? = some k.num))).cfgForget (fun e => decide (e / 2 ^ 40 = 0x4100 + k.num))
  { s with
    colls := s.colls.filter (fun c => decide (c.num ≠ k.num))
    units := { s.units with lost := s.units.lost.filter (fun l => l.2 || !mine l.1) }
    tensor := { s.tensor with placements := s.tensor.placements.filter (fun l =>
      !(decide (l.kind = 3 ∨ l.kind = 4) && decide (l.owner = k.num))) }
    wb := s.wb.leave (fun r => decide (r.coll = k.num))
    dict := Sparse.keep (fun e => decide (e / 2 ^ 40 ≠ 0x4100 + k.num)) s.dict }

/-- TILE_RELEASE: old segments no search needs are released; a dropped collection none needs becomes absent, once no die is at
work on its tiles. -/
def execTileRelease (coll : Fin 64) (s : State) : Ans :=
  match s.coll? coll with
  | none => .next s
  | some k =>
    if k.state = 3 then
      if s.snapshotBefore k.dropTick || k.parts.any (fun p => s.diesBusy p.1 p.2) then .next s else .next (s.removeColl k)
    else .next ((s.releasable k).foldl (fun s d => s.releaseEntry coll d) s)

end Sys2Proof.Machine
end

