-- ==== Sys2Proof/Machine/Build.lean ====
section
/-! DEFINITION. COLLECTION_CREATE and COLLECTION_DROP (03 R51-R53; 13 R335, R336), BULK_BUILD (06 R166, R167; 13 R333) and
REHOME (06 R170; 13 R334). -/
namespace Sys2Proof.Machine

/-! ### COLLECTION_CREATE -/

/-- The schema entries of a create's input, and are they well formed (03 R58)? -/
def schemaEntries (b : Bytes) : List SchemaField :=
  (List.range 16).map (fun i => ⟨fieldAt b (8 * i) 1, fieldAt b (8 * i + 1) 1, fieldAt b (8 * i + 2) 1⟩)
def schemaOk (b : Bytes) : Bool :=
  let es := schemaEntries b
  let used := es.filter (fun f => decide (f.kind ≠ 0))
  es.all (fun f => decide (f.kind ≤ 3)
      && (if f.kind = 0 then decide (f.low = 0) && decide (f.width = 0)
        else decide (1 ≤ f.width) && decide (f.width ≤ 64) && decide (f.low + f.width ≤ 128)))
    && (List.range 16).all (fun i => zeroAt b (8 * i + 3) 5)
    && (List.range 128).all (fun i =>
      decide ((used.filter (fun f => decide (f.low ≤ i) && decide (i < f.low + f.width))).length ≤ 1))

/-- The projection and thresholds of a create's input. -/
def Coll.readProjection (k : Coll) (b : Bytes) : Coll :=
  let n := k.sketchBits * k.dims
  { k with
    schema := schemaEntries b
    proj := (words 2 n (b.drop 128)).map (fun v => BitVec.ofNat 16 v)
    thresh := (words 4 k.sketchBits (b.drop (128 + 2 * n))).map (fun v => BitVec.ofNat 32 v) }

/-- Is every projection and threshold value finite? -/
def Coll.projectionOk (k : Coll) : Bool :=
  k.proj.all (fun p => decide (bits p.toNat 14 7 ≠ 255)) && k.thresh.all (fun t => isFinite t)

/-- HBM that a collection charges at its creation: the remainder table and the pinned area (06 R150; 03 R72). -/
def Coll.remTableBytes (k : Coll) : Nat := 4194304 * (64 + k.sketchBits / 8 + k.payload)
def pinnedBytes : Nat := 1048576

/-- The lowest free placement id. -/
def State.freePlacement? (s : State) : Option Nat :=
  (List.range 4096).find? (fun i => (s.placement? i).isNone)

/-- The region of flash tiles that a new collection takes, if any. -/
def State.collRegion (s : State) (k : Coll) (place : Nat) : Option (List Nat) :=
  allocParts s.flashRegions place k.partTiles

/-- Judge a COLLECTION_CREATE: ranges and contents, quotas, then capacity (10 R241; 03 R52). -/
def State.judgeCreate (s : State) (c : Cmd) (place : Nat) : Nat :=
  let k := c.newColl.readProjection c.inbuf
  if s.collState k.num ≠ 0 then Status.invalidCollection
  else if !schemaOk c.inbuf || !k.projectionOk then Status.invalidField
  else if !s.hbmFits k.part (k.remTableBytes + pinnedBytes) || !s.flashFits k.part k.footprint then Status.quotaExceeded
  else if 16384 < sumBy (fun j => j.segments) s.colls + k.segCount || (s.collRegion k place).isNone
      || 4094 < s.tensor.placements.length then Status.capacityFull
  else Status.success

/-- Record a placement of a new collection, at the device's choice of address. -/
def State.placeColl (s : State) (k : Coll) (kind length : Nat) : State :=
  match s.freePlacement? with
  | none => s
  | some id =>
    let base := (allocRange s.hbmRegions hbmLo hbmHi 4096 hbmLo length).getD hbmLo
    let l : Placement :=
      { id := id, kind := kind, part := k.part, home := 1, writeBack := false, moving := false, base := base
        length := length, owner := k.num, dirty := [], filled := [], shadow := 0, newHome := 0, newBase := 0, moveCid := 0
        copied := false }
    { s with tensor := { s.tensor with placements := s.tensor.placements ++ [l] } }

/-- The effect of a COLLECTION_CREATE: its settings take their defaults (R76), and it enters state building. -/
def State.applyCreate (s : State) (c : Cmd) (place : Nat) : State :=
  let st := s.judgeCreate c place
  let k := c.newColl.readProjection c.inbuf
  match (if st = Status.success then s.collRegion k place else none) with
  | none => s.fail c.cid st
  | some bases =>
    let k := k.place bases
    let k := { k with
      segments := k.segCount, tilesReserved := k.footprint, hbmCharged := k.remTableBytes + pinnedBytes
      descVersion := 1 }
    let s := { s with
      colls := s.colls ++ [k], dict := Sparse.keep (fun e => decide (e / 2 ^ 40 ≠ 0x4100 + k.num)) s.dict }
    let s := (s.cfgForget (fun e => decide (e / 2 ^ 40 = 0x4100 + k.num))).askDescriptor k
    let s := (s.placeColl k 3 pinnedBytes).placeColl k 4 k.remTableBytes
    let b := 4096 * k.tilesReserved
    s.finish c.cid ⟨Status.success, 0, c.stamp, 0, b % 2 ^ 32, b / 2 ^ 32⟩

/-- COLLECTION_CREATE is registered to take effect in phase 2 of the next tick. -/
def execCollectionCreate (cid : Nat) (inbuf : Bytes) (place : Nat) (s : State) : Ans :=
  match s.ready? cid Op.collectionCreate with
  | none => .next s
  | some c => .next ((s.orderCmd c place).modCmd cid (fun c => { c with inbuf := inbuf }))

/-! ### COLLECTION_DROP -/

/-- A drop ends the pass of its collection; its CARRY commands complete with INVALID_COLLECTION (06 R156; 13 R332). -/
def State.dropPass (s : State) (n : Nat) : State :=
  let ws := ((s.carry.queue.filter (fun r => decide (r.coll = n))).map (fun r => r.waiters)).flatten
    ++ ((s.carry.suspended.filter (fun p => decide (p.coll = n))).map (fun p => p.waiters)).flatten
  let s := { s with carry := { s.carry with
    queue := s.carry.queue.filter (fun r => decide (r.coll ≠ n))
    suspended := s.carry.suspended.filter (fun p => decide (p.coll ≠ n)) } }
  let s := match s.carry.pass with
    | some p =>
      if p.coll = n then
        (((s.setPass none).endPassGrant p).raiseEvent Attn.carryDone).failWaiters p.waiters Status.invalidCollection
      else s
    | none => s
  s.failWaiters ws Status.invalidCollection

def State.judgeDrop (s : State) (c : Cmd) : Nat :=
  let st := s.collState c.collByte
  if st = 1 ∨ st = 2 then Status.success else Status.invalidCollection

/-- The effect of a COLLECTION_DROP. -/
def State.applyDrop (s : State) (c : Cmd) : State :=
  let st := s.judgeDrop c
  if st ≠ Status.success then s.fail c.cid st
  else
    let t := s.now
    let s := s.modColl c.collByte (fun k => { k with state := 3, dropTick := t, repair := 0 })
    (s.dropPass c.collByte).finish c.cid ⟨Status.success, 0, c.stamp, 0, 0, 0⟩

/-- COLLECTION_DROP is registered to take effect in phase 2 of the next tick. -/
def execCollectionDrop (cid : Nat) (s : State) : Ans :=
  match s.ready? cid Op.collectionDrop with
  | none => .next s
  | some c => .next (s.orderCmd c 0)

/-! ### Item records (13 R331) -/

/-- An item record as given. -/
structure GivenItem where
  ext : BitVec 64
  attrs : BitVec 128
  ok : Bool
  data : Bytes
  deriving DecidableEq, Repr

def Coll.givenItems (k : Coll) (fmt n : Nat) (inp : Bytes) : List GivenItem :=
  let len := k.recordLen fmt
  (List.range n).map (fun i =>
    let b := slice inp (i * len) len
    ⟨BitVec.ofNat 64 (fieldAt b 0 8), BitVec.ofNat 128 (fieldAt b 8 16),
      decide (fieldAt b 0 8 ≠ 2 ^ 64 - 1) && attrsOk k.schema (fieldAt b 8 16) && zeroAt b 24 8,
      slice b 32 (k.givenLen fmt + k.payload)⟩)

/-- The index of the first element that satisfies `p`. -/
def firstIndex {α : Type} (p : Nat → α → Bool) (l : List α) : Option Nat :=
  (l.zipIdx.find? (fun x => p x.2 x.1)).map (fun x => x.2)

/-- The first of a list of ids met earlier in it. -/
def firstRepeat (ids : List (BitVec 64)) : Option Nat :=
  firstIndex (fun i e => (ids.take i).contains e) ids

/-! ### BULK_BUILD -/

/-- The entry of a segment that has not been rewritten. -/
def Coll.initialEntry (k : Coll) (g issued slice : Nat) (t : Tick) : DirEntry :=
  let b := k.segBase + g * k.segTiles
  { segment := g, generation := 1, issued := issued, bNode := b, bVec := b + 64 * k.nodeTiles
    bPay := if k.payload = 0 then 0 else b + 64 * (k.nodeTiles + k.vecTiles)
    slice := slice, switchTick := t, carryPass := 0, tombstoned := 0, dropped := false }

/-- Record the ids issued so far in a building collection's directory. A segment that has no entry yet takes a slice of those
free. -/
def Coll.issueTo (k : Coll) (top : Nat) (t : Tick) (slices : List Nat) : Coll :=
  let fresh := (List.range k.segments).filter (fun g => (dirNow k g).isNone)
  { k with
    nodesIssued := max k.nodesIssued top
    dir := (List.range k.segments).filterMap (fun g =>
      let n := min 1048576 (max k.nodesIssued top - g * 1048576)
      if n = 0 then none
      else
        match dirNow k g with
        | some d => some { d with issued := n }
        | none => some (k.initialEntry g n (slices.getD (fresh.idxOf g) 0) t)) }

/-- Put bytes at an offset of the payload of a tile, making its trailer anew: what a batch will have programmed. -/
def State.patchTile (s : State) (k : Coll) (t off fmt g : Nat) (bs : Bytes) : State :=
  let old := s.tileBytes t
  let body := patch (fit 4064 old) off bs
  let n := if old.isEmpty then 0 else fieldAt old 4078 1
  { s with flash := flashPut s.flash t ⟨mkTile body t k.num fmt (n + 1) g 1, k.part, s.obj 0x7010 0 k.part⟩ }

/-- Write the record, vector and row of a new node of a building collection. -/
def State.putNode (s : State) (k : Coll) (d : DirEntry) (n : Nat) (r : NodeRec) (i : Item) : State :=
  let g := nodeSegment n
  let (nt, ix) := nodePlace k d.bNode n
  let s := s.patchTile k nt (ix * k.recBytes) TileFmt.node g (encodeRecord k r)
  let s := if k.vecsPerTile = 0 then
      (List.range k.tilesPerVec).foldl (fun s q =>
        s.patchTile k (vecPart k d.bVec n q) 0 TileFmt.vector g (slice i.slot (4064 * q) 4064)) s
    else
      let (vt, vx) := vecPlace k d.bVec n
      s.patchTile k vt (vx * k.slotLen) TileFmt.vector g i.slot
  if k.payload = 0 then s
  else
    let (pt, px) := payPlace k d.bPay n
    s.patchTile k pt (px * k.payload) TileFmt.payload g (fit k.payload i.payload)

/-- The tiles of a node. -/
def nodeTilesOf (k : Coll) (d : DirEntry) (n : Nat) : List Nat :=
  (nodePlace k d.bNode n).1 :: vecTilesOf k d n ++ (if k.payload = 0 then [] else [(payPlace k d.bPay n).1])

/-- The tiles that hold nodes of a collection. -/
def Coll.tilesOf (k : Coll) (ids : List Nat) : List Nat :=
  ((ids.map (fun n => match dirNow k (nodeSegment n) with
    | some d => nodeTilesOf k d n
    | none => [])).flatten).eraseDups

/-- The programs of a batch, asked for: `new` is the state with the batch written, and flash keeps what it held until the dies
report. -/
def State.askBatch (s new : State) (old k : Coll) (cid : Nat) (ts : List Nat) : State :=
  let t := ({ new with flash := s.flash }).askTiles (.build cid) (some cid) k.part
    (ts.map (fun t => (t, (flashGet new.flash t).bytes)))
  (k.dir.filter (fun d => dirNow old d.segment ≠ some d)).foldl (fun s d =>
    s.askBlock (.entry k.num d.segment) (some cid) (entryTile k.num d)) t

/-- The edges a build gives item `i` of a batch: the graph is the device's choice, kept to issued nodes (R166). -/
def buildEdges (k : Coll) (graph : List (List Nat)) (known : List (Nat × Nat)) (i n : Nat) (sketch : Nat → Nat) :
    List (Loc × Nat) :=
  let ts := ((graph.getD i []).eraseDups.filter (fun m => decide (m ≠ n)
    && (known.any (fun p => decide (p.1 = m)) || (decide (m < k.nodesIssued) && !k.skipped.contains m)))).take k.degree
  ts.map (fun m => (⟨m, 0⟩, match known.find? (fun p => decide (p.1 = m)) with
    | some p => p.2
    | none => sketch m))

/-- Apply a form 0 batch whose items have been formed. -/
def State.applyItems (s : State) (k : Coll) (items : List Item) (ids : List Nat) (graph : List (List Nat)) : State :=
  let t := s.now
  let top := (ids.foldl max 0) + 1
  let gap := (List.range (top - k.nodesIssued)).map (fun i => k.nodesIssued + i)
  let slices := s.freeSlices k.segments
  let s := s.modColl k.num (fun k => { k.issueTo top t slices with
    buildForm := some 0, skipped := k.skipped ++ gap.filter (fun n => !ids.contains n) })
  let known := (ids.zip items).map (fun p => (p.1, p.2.sketch))
  let sketch (m : Nat) : Nat := match s.recordNow k m with | some r => r.sketch | none => 0
  match s.coll? k.num with
  | none => s
  | some k' =>
    let put (s : State) (p : (Nat × Item) × Nat) : State :=
      let n := p.1.1
      let i := p.1.2
      match dirNow k' (nodeSegment n) with
      | none => s
      | some d =>
        let r : NodeRec :=
          { ext := i.ext, loc := ⟨n, 0⟩, valid := true, entry := false, carryPass := 0, attrs := i.attrs
            sketch := i.sketch, edges := buildEdges k graph known p.2 n sketch }
        (s.putNode k' d n r i).enterMap k.num ⟨i.ext, n, 0, 1⟩
    let s := (ids.zip items).zipIdx.foldl put s
    let b := items.length * (k.slotLen + k.payload)
    (s.count 0x4000 9 b).ccount k.num 0x5B b

/-- Form the items of a batch, with the flags raised. -/
def Coll.formItems (k : Coll) (fmt : Nat) (gs : List GivenItem) : Flagged (List Item) :=
  mapFlagged (fun g => k.formItem g.ext g.attrs fmt g.data) gs

/-- Does an id stand in the map of a collection? -/
def State.inMap (s : State) (k : Coll) (e : BitVec 64) : Bool := (mapLookup (s.mapView k) e).isSome

/-- What a batch does: the state with its tiles written, its flags, and those tiles. -/
abbrev Built := Except (Nat × Nat) (State × Flags × List Nat)

/-- Judge and apply a form 0 batch: its status with DW6, or what it does. -/
def State.buildItems (s : State) (k : Coll) (c : Cmd) (graph : List (List Nat)) : Built :=
  let n := c.field 36 4
  let fmt := c.field 40 1
  let gs := k.givenItems fmt n c.inbuf
  let bad := firstIndex (fun i (g : GivenItem) => !g.ok || s.inMap k g.ext
    || (gs.take i).any (fun h => decide (h.ext = g.ext))) gs
  match bad with
  | some i => .error (Status.invalidField, i)
  | none =>
    let ids := s.freshIds (k.segments * 1048576) (64 * n + 64) n k.nodesIssued
    if s.usableCapacity k < s.liveCount k + n || decide (ids.length < n) then .error (Status.capacityFull, 0xFFFFFFFF)
    else
      let (items, f) := k.formItems fmt gs
      let new := if n = 0 then s else s.applyItems k items ids graph
      .ok (new, f, match new.coll? k.num with | some k' => k'.tilesOf ids | none => [])

/-- Region of an image tile: its format, offset within the region and within the segment (R167). -/
def Coll.imagePlace (k : Coll) (i : Nat) : Nat × Nat :=
  let o := i % k.segTiles
  if o < 64 * k.nodeTiles then (TileFmt.node, o)
  else if o < 64 * (k.nodeTiles + k.vecTiles) then (TileFmt.vector, o - 64 * k.nodeTiles)
  else (TileFmt.payload, o - 64 * (k.nodeTiles + k.vecTiles))

/-- The records in use of an image's node tile, with their nodes. -/
def Coll.imageNodes (k : Coll) (i : Nat) (b : Bytes) : List (Nat × NodeRec) :=
  let (fmt, o) := k.imagePlace i
  if fmt = TileFmt.node then
    ((List.range k.recsPerTile).filter (fun r => decide (k.recsPerTile * (o / 64) + r < 16384))).filterMap (fun r =>
      let rec_ := decodeRecord k b r
      if rec_.valid then some (nodeOnRod (i / k.segTiles) (k.recsPerTile * (o / 64) + r) (o % 64), rec_) else none)
  else []

/-- Are the reserved fields of an image tile's records in use zero (00 R6; 03 R56)? -/
def Coll.imageReservedOk (k : Coll) (i : Nat) (b : Bytes) : Bool :=
  decide ((k.imagePlace i).1 ≠ TileFmt.node)
    || (List.range k.recsPerTile).all (fun r =>
      let o := r * k.recBytes
      !bit (fieldAt b (o + 14) 1) 0 || (decide (fieldAt b (o + 14) 1 < 4) && zeroAt b (o + 15) 1 && zeroAt b (o + 20) 12))

/-- Judge one image tile: crc, collection and format, then reserved fields and locator generations. -/
def Coll.imageTileStatus (k : Coll) (i : Nat) (b : Bytes) : Nat :=
  if decide (fieldAt b 4064 4 ≠ (crc32c (b.take 4064)).toNat) || decide (fieldAt b 4076 1 ≠ k.num)
      || decide (fieldAt b 4077 1 ≠ (k.imagePlace i).1) then Status.checksumFail
  else if !zeroAt b 4088 8 || !k.imageReservedOk i b then Status.invalidField
  else if (k.imageNodes i b).any (fun r => decide (r.2.loc.gen ≠ 0) || r.2.edges.any (fun e => decide (e.1.gen ≠ 0))) then
    Status.invalidField
  else Status.success

/-- Write an image tile with its own number and generation 1. -/
def State.putImageTile (s : State) (k : Coll) (i : Nat) (b : Bytes) : State :=
  let t := k.segBase + i
  if s.rodIn (tileRod t) then
    { s with flash := flashPut s.flash t ⟨patch (patch b 4068 (leBytes 8 t)) 4084 (leBytes 4 1), k.part, s.obj 0x7010 0 k.part⟩ }
  else s

/-- Judge and apply a form 1 batch. -/
def State.buildImage (s : State) (k : Coll) (c : Cmd) : Built :=
  let n := c.field 36 4
  let tiles := (List.range n).map (fun i => (k.imageTiles + i, slice c.inbuf (4096 * i) 4096))
  match firstIndex (fun _ (t : Nat × Bytes) => decide (k.imageTileStatus t.1 t.2 ≠ Status.success)) tiles with
  | some i => .error (match tiles[i]? with | some t => k.imageTileStatus t.1 t.2 | none => Status.checksumFail, i)
  | none =>
    let recs := (tiles.zipIdx.map (fun t => (k.imageNodes t.1.1 t.1.2).map (fun r => (t.2, r.1, r.2)))).flatten
    let dup := firstIndex (fun i (r : Nat × Nat × NodeRec) => s.inMap k r.2.2.ext
      || (recs.take i).any (fun q => decide (q.2.2.ext = r.2.2.ext))) recs
    match dup with
    | some i => .error (Status.invalidField, match recs[i]? with | some r => r.1 | none => 0)
    | none =>
      if s.usableCapacity k < s.liveCount k + recs.length || decide (k.segments * k.segTiles < k.imageTiles + n) then
        .error (Status.capacityFull, 0xFFFFFFFF)
      else
        let t := s.now
        let top := recs.foldl (fun m r => max m (r.2.1 + 1)) k.nodesIssued
        let new := (List.range (top - k.nodesIssued)).map (fun i => k.nodesIssued + i)
        let nodes := recs.map (fun r => r.2.1)
        let out := nodes.filter (fun n => !s.rodIn (rodOf n))
        let slices := s.freeSlices k.segments
        let s := s.modColl k.num (fun k => { k.issueTo top t slices with
          buildForm := some 1, imageTiles := k.imageTiles + n, leftOut := k.leftOut ++ out
          skipped := k.skipped.filter (fun n => !nodes.contains n) ++ new.filter (fun n => !nodes.contains n) })
        let s := tiles.foldl (fun s t => s.putImageTile k t.1 t.2) s
        let s := (recs.filter (fun r => s.rodIn (rodOf r.2.1))).foldl (fun s r =>
          s.enterMap k.num ⟨r.2.2.ext, r.2.1, 0, 1⟩) s
        let b := (recs.length - out.length) * (k.slotLen + k.payload)
        .ok ((s.count 0x4000 9 b).ccount k.num 0x5B b, Flags.none, tiles.map (fun t => k.segBase + t.1))

/-! ### The finish of a build (R166) -/

/-- The valid nodes on rods in service, ascending, with their vector slots: none where one cannot be read. -/
def State.buildNodes (s : State) (k : Coll) : Option (List (Nat × Bytes)) :=
  let ns := (List.range k.nodesIssued).filter (fun n => !k.skipped.contains n && !k.leftOut.contains n && s.rodIn (rodOf n))
  let vs := ns.map (fun n => (n, match dirNow k (nodeSegment n) with
    | some d => if s.nodeChecks k d n then slotOf k d n s.tileBytes else none
    | none => none))
  if vs.all (fun v => v.2.isSome) then some (vs.map (fun v => (v.1, v.2.getD []))) else none

/-- The mean vector of stored vectors. -/
def meanVector (k : Coll) (vs : List (Nat × Bytes)) : Flagged (List F32) :=
  mapFlagged (fun i =>
    let (sum, f) := sumF32 false (vs.map (fun v => (toF32 false (decodeVal k.format (element k.format v.2 i))).1))
    let (m, g) := divVal false (val32 sum) (.fin false vs.length 0)
    (m, f.or g)) (List.range k.dims)

/-- The entry set: the first 256 nodes by score against the mean, NaN scores last (R166). -/
def entrySetOf (k : Coll) (vs : List (Nat × Bytes)) : Flagged (List Loc) :=
  let (mu, f) := meanVector k vs
  let q := mu.map val32
  let (qn, g) := if k.metric = 1 then normOf q else (zero32, Flags.none)
  let (ss, h) := mapFlagged (fun v =>
    let (x, fl) := metricScore k.metric q qn (slotVals k v.2) (slotNorm k v.2)
    ((v.1, x), fl)) vs
  let before (a b : Nat × F32) : Bool :=
    if isNan a.2 then isNan b.2 && decide (a.1 ≤ b.1)
    else isNan b.2 || lt32 b.2 a.2 || (eq32 a.2 b.2 && decide (a.1 ≤ b.1))
  (((sortBy before ss).take 256).map (fun p => ⟨p.1, 0⟩), (f.or g).or h)

/-- Set the entry-set flag of a record on flash (03 R56); an image's records are not altered (R167). -/
def State.flagEntry (s : State) (k : Coll) (l : Loc) : State :=
  match dirNow k (nodeSegment l.node) with
  | none => s
  | some d =>
    let (t, ix) := nodePlace k d.bNode l.node
    let b := s.tileBytes t
    let body := orByte (b.take 4064) (ix * k.recBytes + 14) 2
    let new := mkTile body t k.num TileFmt.node (fieldAt b 4078 1) (nodeSegment l.node) 1
    { s with flash := flashPut s.flash t ⟨new, k.part, s.obj 0x7010 0 k.part⟩ }

/-- The finish flag writes the whole map (R166). -/
def State.askMap (s : State) (k : Coll) (cid : Nat) : State :=
  s.askTiles (.build cid) (some cid) k.part ((List.range k.mapTiles).map (fun b => (k.mapBase + b, k.bucketTile b)))

/-- The finish flag on a batch of items: the entry set as it stands after the batch is marked in its records (03 R56), which
are programmed with the batch. -/
def State.markEntries (k : Coll) (s : State) (vs : List (Nat × Bytes)) (ts : List Nat) : State × List Nat :=
  if k.buildForm = some 1 then (s, ts)
  else
    let es := (entrySetOf k vs).1
    (es.foldl (fun s l => s.flagEntry k l) s, (ts ++ es.filterMap (fun l => (dirNow k (nodeSegment l.node)).map
      (fun d => (nodePlace k d.bNode l.node).1))).eraseDups)

/-- The collection becomes ready in phase 2 of one tick. -/
def State.applyBuild (s : State) (c : Cmd) : State :=
  match s.coll? c.collByte with
  | none => s.fail c.cid Status.invalidCollection
  | some k =>
    if k.state ≠ 1 then s.fail c.cid Status.invalidCollection
    else
      match s.buildNodes k with
      | none => s.fail c.cid Status.checksumFail
      | some vs =>
        let (es, f) := entrySetOf k vs
        let s := s.modColl k.num (fun k => { k with state := 2, entrySet := es, gens := [], descVersion := k.descVersion + 1 })
        let s := k.segmentsIn.foldl (fun s g => s.dropOldEntries k.num g) (s.retireNodes k.num k.leftOut)
        let s := match s.coll? k.num with
          | some k => (s.pinEntrySet k).askEntrySet k
          | none => s
        let s := s.modCmd c.cid (fun c => { c with flags := c.flags.or f })
        s.finish c.cid ⟨Status.success, 0, c.stamp, c.field 36 4, 0xFFFFFFFF, 0⟩

/-- A BULK_BUILD whose tiles are programmed completes or, with the finish flag, is registered for phase 2 of the next tick. A
drop of the collection in between ends it. -/
def State.endBuild (s : State) (cid : Nat) : State :=
  match s.cmd? cid with
  | none => s
  | some c =>
    match c.stage with
    | .building finish =>
      if s.pwr.grants.any (fun g => decide (g.cid = some cid) && !g.releasing) then s
      else if s.collState c.collByte ≠ 1 then s.fail cid Status.invalidCollection
      else if finish then s.orderCmd c 0
      else s.finish cid ⟨Status.success, 0, c.stamp, c.field 36 4, 0xFFFFFFFF, 0⟩
    | _ => s

/-- A batch: refused with its words, or applied, its tiles programmed under grants (16 R410). -/
def State.buildBatch (s : State) (c : Cmd) (k : Coll) (graph : List (List Nat)) : State :=
  let finish := bit (c.field 33 1) 0
  let refuse (st i : Nat) : State := s.finish c.cid { c.failWords st with dw6 := i }
  match (if c.field 32 1 = 1 then s.buildImage k c else s.buildItems k c graph) with
  | .error (st, i) => refuse st i
  | .ok (new, f, ts) =>
    let new := new.modCmd c.cid (fun c => { c with flags := c.flags.or f, stage := .building finish })
    match new.coll? k.num with
    | none => new
    | some k' =>
      if !finish then (s.askBatch new k k' c.cid ts).endBuild c.cid
      else if k'.nodesIssued = 0 then refuse Status.invalidField 0xFFFFFFFF
      else
        match new.buildNodes k' with
        | none => s.checkFault c.cid
        | some vs =>
          let (new, ts) := State.markEntries k' new vs ts
          ((s.askBatch new k k' c.cid ts).askMap k' c.cid).endBuild c.cid

/-- Is a batch of a collection still being written, or registered to finish it? The next waits for it. -/
def State.buildBusy (s : State) (n : Nat) : Bool :=
  s.cmds.any (fun c => decide (c.opcode = Op.bulkBuild) && decide (c.collByte = n) && (match c.stage with
    | .building _ => true
    | .effect _ => true
    | _ => false))

/-- BULK_BUILD writes its batch; `graph` gives the edges of its items. -/
def execBulkBuild (cid : Nat) (inbuf : Bytes) (graph : List (List Nat)) (s : State) : Ans :=
  match s.ready? cid Op.bulkBuild with
  | none => .next s
  | some c0 =>
    let c := { c0 with inbuf := fit c0.inLen inbuf }
    match s.coll? c.collByte with
    | none => .next (s.fail cid Status.invalidCollection)
    | some k =>
      if k.state ≠ 1 then .next (s.fail cid Status.invalidCollection)
      else if s.reckoners.isEmpty then .next (s.fail cid Status.unitOut)
      else if !c.buildFieldsOk k then .next (s.fail cid Status.invalidField)
      else if s.buildBusy k.num then .next s
      else .next (s.buildBatch c k graph)

/-! ### REHOME -/

/-- The nodes of a collection on rods out of service, not retired yet. -/
def State.strandedNodes (s : State) (k : Coll) : List Nat :=
  (k.segmentsIn.map (fun g => match dirNow k g with
    | some d => ((List.range d.issued).map (fun i => g * 1048576 + i)).filter (fun n =>
        !s.rodIn (rodOf n) && !k.skipped.contains n && !k.retired.contains n)
    | none => [])).flatten

/-- Apply items in order as UPSERTs, up to the first that fails, or that finds no room for its staging (R148).
`beaten` says that an order of this tick has the id. -/
def State.rehomeItems (n fmt : Nat) (beaten : BitVec 64 → Bool) : State → List GivenItem → Nat → Flags → State × Nat × Nat × Flags
  | s, [], done, f => (s, done, Status.success, f)
  | s, g :: gs, done, f =>
    match s.coll? n with
    | none => (s, done, Status.invalidCollection, f)
    | some k =>
      if !g.ok then (s, done, Status.invalidField, f)
      else if k.repair ≠ 0 then (s, done, Status.notReady, f)
      else if s.reckoners.isEmpty then (s, done, Status.unitOut, f)
      else
        let (st, _) := s.outcome k Op.upsert g.ext
        if st ≠ Status.success then (s, done, st, f)
        else if beaten g.ext then (s.ccount n 0x5C 1, done, Status.superseded, f)
        else if !s.upsertRoom k then (s, done, Status.success, f)
        else
          let (i, fl) := k.formItem g.ext g.attrs fmt g.data
          let (_, s) := s.applyItem k Op.upsert g.ext (some i)
          State.rehomeItems n fmt beaten s gs (done + 1) (f.or fl)

/-- A REHOME ends with `done` items applied, the last in tick `t` (13 R334). -/
def State.endRehome (s : State) (c : Cmd) (done t st : Nat) : State :=
  s.finish c.cid ⟨st, 0, if done = 0 then c.stamp else t, done, if st = 0 then 0xFFFFFFFF else done, 0⟩

/-- The effect of a REHOME, with the ids of the items applied. Its items are parties to the contradictions of the tick
(02 R41, R42). Items without room are applied in a later tick; meanwhile DW7 holds the items applied, and DW6 the tick of the
last. -/
def State.applyRehome (s : State) (c : Cmd) (beaten : BitVec 64 → Bool) : State × List (BitVec 64) :=
  match s.coll? c.collByte with
  | none => (s.endRehome c c.dw7 c.dw6 Status.invalidCollection, [])
  | some k =>
    if k.state ≠ 2 then (s.endRehome c c.dw7 c.dw6 Status.invalidCollection, [])
    else if bit (c.field 33 1) 0 then
      let ns := s.strandedNodes k
      ((s.retireNodes k.num ns).finish c.cid ⟨Status.success, 0, c.stamp, 0, 0xFFFFFFFF, ns.length % 2 ^ 32⟩, [])
    else
      let fmt := c.field 40 1
      let gs := k.givenItems fmt (c.field 36 4) c.inbuf
      match firstRepeat (gs.map (fun g => g.ext)) with
      | some i => (s.finish c.cid { c.failWords Status.invalidField with dw6 := i }, [])
      | none =>
        let (s, done, st, f) := State.rehomeItems k.num fmt beaten s (gs.drop c.dw7) c.dw7 Flags.none
        let t := if done = c.dw7 then c.dw6 else s.now
        let s := s.modCmd c.cid (fun c => { c with flags := c.flags.or f })
        let ids := ((gs.take done).drop c.dw7).map (fun g => g.ext)
        if st = Status.success ∧ done < gs.length then
          ((s.orderCmd c 0).modCmd c.cid (fun c => { c with dw6 := t, dw7 := done }), ids)
        else (s.endRehome c done t st, ids)

/-- REHOME is registered to take effect in phase 2 of the next tick. -/
def execRehome (cid : Nat) (inbuf : Bytes) (s : State) : Ans :=
  match s.ready? cid Op.rehome with
  | none => .next s
  | some c => .next ((s.orderCmd c 0).modCmd cid (fun d => { d with inbuf := fit c.inLen inbuf }))

end Sys2Proof.Machine
end

