-- ==== Sys2Proof/Machine/Models.lean ====
section
/-! DEFINITION. Model packages (09 R217-R230; 10 R248-R251): decoding and checks; MODEL_LOAD, the end of a load,
MODEL_EVICT, the reload of a block (18 R466), RUN and ENCODE_SEARCH up to their place in the sequence table. -/
namespace Sys2Proof.Machine

/-! ### Compressed blocks (10 R248, R249) -/

/-- Shuffled run-length input to its planes; none when a run passes the end of the input. -/
def runLength : Nat → Bytes → Option Bytes
  | _, [] => some []
  | 0, _ :: _ => none
  | fuel + 1, c :: bs =>
    let v := c.toNat
    if v ≤ 0x7F then
      if bs.length < v + 1 then none else (runLength fuel (bs.drop (v + 1))).map (bs.take (v + 1) ++ ·)
    else
      match bs with
      | [] => none
      | b :: rest => (runLength fuel rest).map (List.replicate (v - 0x7D) b ++ ·)

/-- One byte of each plane in turn. -/
def interleave : Nat → List Bytes → Bytes
  | 0, _ => []
  | n + 1, ps => ps.filterMap List.head? ++ interleave n (ps.map List.tail)

/-- Cut bytes into pieces of n. -/
def pieces (n : Nat) : Nat → Bytes → List Bytes
  | 0, _ => []
  | k + 1, bs => bs.take n :: pieces n k (bs.drop n)

/-- The tile number a package's tile bears is not the reader's to expect (log entry 23); the rest of R55 holds. -/
def packedOk (t : Bytes) (count version : Nat) : Bool :=
  tileOk t ⟨fieldAt t 4068 8, 0xFF, TileFmt.packed, 1, 0xFFFFFFFF, version⟩ && decide (fieldAt t 4078 1 = count)

/-- The first block of a list of format 0x11 tiles: its tensor tiles, and the tiles it takes; none when it fails. -/
def decodeBlock (ts : List Bytes) : Option (List Bytes × Nat) :=
  match ts with
  | [] => none
  | t :: _ =>
    let v := fieldAt t 4084 4
    let n := fieldAt t 4 1
    let w := fieldAt t 3 1
    let clen := fieldAt t 8 4
    let used := ceilDiv (96 + clen) 4064
    let data := slice ((ts.take used).map (fun b => b.take 4064)).flatten 96 clen
    let head := decide (fieldAt t 0 2 = 1) && decide (fieldAt t 2 1 ≤ 1) && (decide (w = 1) || decide (w = 2) || decide (w = 4))
      && decide (1 ≤ n) && decide (n ≤ 16) && zeroAt t 5 3 && zeroAt t 12 4 && zeroAt t 88 8
      && decide (used ≤ ts.length) && packedOk t 1 v && ((ts.take used).drop 1).all (fun b => packedOk b 0 v)
      && zeroAt t (24 + 4 * n) (64 - 4 * n)
    let raw := if fieldAt t 2 1 = 0 then some data else runLength (clen + 1) data
    let good := match raw with
      | some o => decide (o.length = n * 4064)
      | none => false
    let out := if fieldAt t 2 1 = 0 then raw else raw.map (fun o => interleave (n * 4064 / w) (pieces (n * 4064 / w) w o))
    let ps := pieces 4064 n (out.getD [])
    if head && good && ps.zipIdx.all (fun p => decide ((crc32c p.1).toNat = fieldAt t (24 + 4 * p.2) 4)) then
      some (ps.zipIdx.map (fun p => mkTile p.1 (fieldAt t 16 8 + p.2) 0xFF TileFmt.tensor 1 0xFFFFFFFF v), used)
    else none

/-- The blocks of a package, each as its tensor tiles. -/
def decodeBlocks : Nat → List Bytes → Option (List (List Bytes))
  | _, [] => some []
  | 0, _ :: _ => none
  | fuel + 1, t :: ts =>
    match decodeBlock (t :: ts) with
    | none => none
    | some (b, used) => (decodeBlocks fuel (ts.drop (used - 1))).map (b :: ·)

/-! ### Tile programs (09 R217-R227) -/

/-- Opcodes of tile instructions (09 R220). -/
abbrev TOp.matmul : Nat := 0x01
abbrev TOp.xorpop : Nat := 0x02
abbrev TOp.ewise : Nat := 0x10
abbrev TOp.curve : Nat := 0x11
abbrev TOp.norm : Nat := 0x12
abbrev TOp.softnorm : Nat := 0x13
abbrev TOp.gather : Nat := 0x20
abbrev TOp.argmax : Nat := 0x21
abbrev TOp.topk : Nat := 0x22
abbrev TOp.rotate : Nat := 0x30
abbrev TOp.stream : Nat := 0x31
abbrev TOp.sync : Nat := 0x38
abbrev TOp.end_ : Nat := 0x3F

/-- A tile instruction from its 64 bytes (09 R218). -/
def decodeTile (b : Bytes) : TileInstr :=
  let f (o l : Nat) : Nat := fieldAt b o l
  { op := f 0 1, sub := f 1 1, fa := bits (f 2 1) 3 0, fb := bits (f 2 1) 7 4, fc := bits (f 3 1) 3 0
    pre := bits (f 3 1) 5 4, iov := bit (f 3 1) 6, red := bit (f 3 1) 7, fuse := bits (f 4 1) 3 0
    rowFirst := bit (f 4 1) 4, rowLast := bit (f 4 1) 5, save := bit (f 4 1) 6, m := f 5 1, n := f 6 1
    curve := bits (f 7 1) 3 0, k := f 8 4, owner := bits (f 12 1) 3 0, split := bit (f 12 1) 4
    contIn := bit (f 13 1) 0, contOut := bit (f 13 1) 1, blockFirst := f 14 2, a := f 16 8, b := f 24 8, c := f 32 8
    p := f 40 8, f := f 48 8, imm := f 56 4, blocks := f 60 2
    reserved := bit (f 4 1) 7 || decide (16 ≤ f 7 1) || decide (32 ≤ f 12 1) || decide (4 ≤ f 13 1) || decide (f 62 2 ≠ 0) }

/-- Instructions with two operands, each of a format of its own: the pairs of R215 hold for each of them (09 R224). -/
def TileInstr.twoOperands (t : TileInstr) : Bool :=
  decide (t.op = TOp.matmul) || (decide (t.op = TOp.ewise) && decide (t.sub ≤ 5)) || decide (t.op = TOp.norm)

/-- Formats that an instruction may pair (09 R215). -/
def pairOk (a b : Nat) : Bool :=
  if a = 4 ∨ b = 4 then [0, 1, 2, 4].contains a && [0, 1, 2, 4].contains b
  else if a = 6 ∨ b = 6 then decide (a = b)
  else decide (a ≤ 5) && decide (b ≤ 5)

/-- Largest K of a grid instruction, and its compute clocks (09 R215). -/
def pairMaxK (a b : Nat) : Nat :=
  if a = 4 ∨ b = 4 then 1024
  else if a = 1 ∨ a = 2 ∨ b = 1 ∨ b = 2 then 4096
  else if a = 6 then 131072
  else if a = 5 ∧ b = 5 then 16384
  else 8192
def pairClocks (a b k : Nat) : Nat :=
  if a = 4 ∨ b = 4 then 4 * k
  else if a = 1 ∨ a = 2 ∨ b = 1 ∨ b = 2 then k
  else if a = 6 then ceilDiv k 32
  else if a = 5 ∧ b = 5 then ceilDiv k 4
  else ceilDiv k 2

/-- Largest SUB of an opcode, or none for a reserved opcode (09 R220). -/
def subLimit (op : Nat) : Option Nat :=
  match op with
  | 0x01 => some 0
  | 0x02 => some 1
  | 0x10 => some 7
  | 0x11 => some 0
  | 0x12 => some 1
  | 0x13 => some 0
  | 0x20 => some 0
  | 0x21 => some 0
  | 0x22 => some 1
  | 0x30 => some 0
  | 0x31 => some 1
  | 0x38 => some 0
  | 0x3F => some 0
  | _ => none

/-- Do M, N and K keep their limits (09 R215, R218, R220)? -/
def TileInstr.limitsOk (t : TileInstr) : Bool :=
  let mOk := decide (1 ≤ t.m) && decide (t.m ≤ 64)
  let nOk := decide (1 ≤ t.n) && decide (t.n ≤ 64)
  match t.op with
  | 0x01 => mOk && nOk && decide (t.k ≤ pairMaxK t.fa t.fb)
  | 0x02 => mOk && nOk && decide (t.k ≤ 131072)
  | 0x10 => mOk && nOk
  | 0x11 => mOk && nOk
  | 0x12 => mOk && nOk
  | 0x13 => mOk && nOk
  | 0x20 => mOk
  | 0x21 => mOk && nOk
  | 0x22 => decide (1 ≤ t.imm) && decide (t.imm ≤ 1024)
  | 0x30 => decide (t.k ≤ 1048576)
  | _ => true

/-- One instruction on its own keeps R219, R224 and R276, `next` being the one after it. -/
def TileInstr.ok (t : TileInstr) (curves : Nat) (next : Option TileInstr) : Bool :=
  (match subLimit t.op with | some n => decide (t.sub ≤ n) | none => false)
    && !t.reserved && decide (t.fa ≤ 6) && decide (t.fb ≤ 6) && decide (t.fc ≤ 6)
    && (!t.twoOperands || pairOk t.fa t.fb)
    && (decide (t.op ≠ TOp.xorpop) || (decide (t.fa = 6) && decide (t.fb = 6)))
    && t.limitsOk && (decide (t.op ≠ TOp.curve) || decide (t.curve < curves))
    && decide (t.a % 64 = 0) && decide (t.b % 64 = 0) && decide (t.c % 64 = 0) && decide (t.p % 64 = 0)
    && decide (t.f % 64 = 0)
    && (t.save || (match next with
      | some u => !([TOp.rotate, TOp.stream, TOp.sync].contains u.op)
      | none => true))

/-- Index of the first instruction that offends, `run` being the instructions since the last SAVE or END. -/
def firstOffence (curves gap : Nat) (saves : Nat → Nat) : Nat → Nat → List TileInstr → Option Nat
  | _, _, [] => none
  | i, run, t :: ts =>
    let run' := if t.save || decide (t.op = TOp.end_) then 0 else run + 1
    if !t.ok curves ts.head? || decide (min gap 256 < run') || decide (4194304 < saves i) then some i
    else firstOffence curves gap saves (i + 1) run' ts

/-! ### Stream programs and curves (10 R250; 09 R227) -/

/-- A stream program from the bytes at its header (10 R250). -/
def decodeStream (b : Bytes) : StreamProg :=
  let f (o l : Nat) : Nat := fieldAt b o l
  { write := decide (f 2 1 = 1), check := bit (f 3 1) 0, persistent := bit (f 3 1) 1, fetchAhead := f 5 1
    halfTiles := f 6 1, halfMin := f 7 1, segBytes := f 8 4, tileSegs := f 12 2, buffer := f 16 4, fpBase := f 24 8
    fpLength := f 32 8, base := f 40 8
    code := (List.range (f 4 1)).map (fun i =>
      let o := 64 + 16 * i
      { op := f o 1, d := f (o + 1) 1, count := f (o + 4) 4, value := signed 64 (f (o + 8) 8)
        reserved := decide (f (o + 2) 2 ≠ 0) }) }

/-- Reserved fields and ranges of a stream program's header. -/
def streamHeadOk (b : Bytes) : Bool :=
  decide (fieldAt b 0 2 = 1) && decide (fieldAt b 2 1 ≤ 1) && decide (fieldAt b 3 1 < 4) && zeroAt b 14 2 && zeroAt b 20 4
    && zeroAt b 48 16 && decide (1 ≤ fieldAt b 4 1) && decide (fieldAt b 4 1 ≤ 16)
def StreamProg.tileBytes (p : StreamProg) : Nat := p.segBytes * p.tileSegs
def StreamProg.fieldsOk (p : StreamProg) (sram : Nat) : Bool :=
  decide (2 ≤ p.fetchAhead) && decide (p.fetchAhead ≤ 8) && decide (1 ≤ p.halfTiles) && decide (p.halfTiles ≤ 64)
    && decide (1 ≤ p.halfMin) && decide (p.halfMin ≤ p.halfTiles) && decide (4 ≤ p.segBytes) && decide (p.segBytes ≤ 65536)
    && decide (p.segBytes % 4 = 0) && decide (1 ≤ p.tileSegs) && decide (p.tileBytes ≤ 262144) && decide (p.buffer % 64 = 0)
    && decide (p.buffer + 2 * p.halfMin * p.tileBytes ≤ sram)
    && (!p.check || (decide (p.segBytes = 4096) && decide (p.base % 4096 = 0) && decide (p.fpBase % 4096 = 0)
      && decide (p.fpLength % 4096 = 0)))

/-- Loops close innermost first, at most six stand open, and the program ends with END. -/
def streamCodeOk : List StreamInstr → List Nat → Bool
  | [], _ => false
  | t :: ts, open_ =>
    if t.reserved then false
    else
      match t.op with
      | 0x00 => if ts.isEmpty then true else streamCodeOk ts open_
      | 0x01 => streamCodeOk ts open_
      | 0x02 => decide (t.d ≤ 5) && decide (1 ≤ t.count) && decide (t.count ≤ 16777216) && decide (open_.length < 6)
          && streamCodeOk ts (t.d :: open_)
      | 0x03 => (match open_ with
          | d :: rest => decide (d = t.d) && streamCodeOk ts rest
          | [] => false)
      | 0x04 => decide (1 ≤ t.count) && decide (t.count ≤ 4096) && streamCodeOk ts open_
      | 0x05 => streamCodeOk ts open_
      | _ => false

/-- The bytes of a stream program: header and instructions. -/
def streamLen (b : Bytes) : Nat := 64 + 16 * fieldAt b 4 1

/-- The stream programs of a program, one after another, with whether each is well formed. -/
def decodeStreams : Nat → Bytes → Nat → List (StreamProg × Bool)
  | 0, _, _ => []
  | n + 1, b, sram =>
    let p := decodeStream b
    (p, streamHeadOk b && p.fieldsOk sram && streamCodeOk p.code []) :: decodeStreams n (b.drop (streamLen b)) sram

/-- A curve table from its bytes, with its length (09 R227). -/
def decodeCurve (b : Bytes) : CurveTable × Nat :=
  let n := fieldAt b 0 2
  let w (o : Nat) : F32 := BitVec.ofNat 32 (fieldAt b o 4)
  ({ modeLo := fieldAt b 2 1, modeHi := fieldAt b 3 1, yLo := w 4, yHi := w 8
     breaks := (List.range (n + 1)).map (fun i => w (16 + 4 * i))
     coefs := (List.range n).map (fun i => (List.range 4).map (fun j => w (20 + 4 * n + 16 * i + 4 * j))) },
    20 + 20 * n)

/-- Are values strictly ascending? -/
def ascending : List F32 → Bool
  | a :: b :: rest => lt32 a b && ascending (b :: rest)
  | _ => true

def CurveTable.ok (c : CurveTable) (b : Bytes) : Bool :=
  decide (1 ≤ c.coefs.length) && decide (c.coefs.length ≤ 256) && decide (c.modeLo ≤ 1) && decide (c.modeHi ≤ 1) && zeroAt b 12 4
    && c.breaks.all isFinite && ascending c.breaks && c.coefs.all (fun l => l.all isFinite)

/-- Curve tables one after another, with whether each is well formed. -/
def decodeCurves : Nat → Bytes → List (CurveTable × Bool)
  | 0, _ => []
  | n + 1, b =>
    let (c, len) := decodeCurve b
    (c, decide (len ≤ b.length) && c.ok b) :: decodeCurves n (b.drop len)

/-! ### Packages (09 R224, R229) -/

/-- What reading a package gives. -/
inductive PkgRead where
  /-- A block fails R249. -/
  | checksum
  /-- INVALID_FIELD, with the word for DW6. -/
  | bad (ix : Nat)
  | good (pkg : ModelPkg) (tiles : List Bytes)

/-- Read the program of a package from its program tiles' payloads: the instructions follow the header, the stream
programs follow the instructions (log entry 23). -/
def readProgram (b : Bytes) : TileProg × Bool :=
  let f (o l : Nat) : Nat := fieldAt b o l
  let n := f 4 4
  let so := f 8 4
  let ss := decodeStreams (f 30 2) (b.drop (64 + 64 * n)) (f 16 4)
  let saves := (List.range (f 12 4)).map (fun i => SaveEntry.mk (f (so + 16 * i) 4) (f (so + 16 * i + 4) 4) (f (so + 16 * i + 8) 4))
  ({ subn := bit (f 2 1) 0, batchInvariant := bit (f 2 1) 1, framesMin := f 3 1
     code := (List.range n).map (fun i => decodeTile (slice b (64 + 64 * i) 64)), saves := saves, sram := f 16 4
     stepTicks := f 20 4, stepTiles := f 24 4, stepPower := f 28 2, streams := ss.map (fun p => p.1) },
    decide (f 0 2 = 1) && decide (f 2 1 < 4) && decide (1 ≤ f 3 1) && decide (f 3 1 ≤ 16) && decide (1 ≤ n)
      && decide (n ≤ 1048576) && decide (64 + 64 * n ≤ b.length) && decide (f 16 4 % 64 = 0) && decide (f 28 2 ≤ 176)
      && decide (f 30 2 ≤ 16) && zeroAt b 32 32
      && (decide (f 12 4 = 0) || decide (so + 16 * f 12 4 ≤ b.length))
      && (List.range (f 12 4)).all (fun i => zeroAt b (so + 16 * i + 12) 4) && ss.all (fun p => p.2))

/-- Sum of the save-table ranges of an instruction. -/
def TileProg.saveBytes (p : TileProg) (i : Nat) : Nat :=
  sumBy (fun e => if e.index = i then e.length else 0) p.saves

/-- Reserved fields of the headers of compressed blocks in a command's buffer: zero, or the command fails with INVALID_FIELD
(00 R6). -/
def packedReservedOk (packed : List Bytes) : Bool :=
  packed.all (fun t => decide (fieldAt t 4078 1 ≠ 1) || (zeroAt t 5 3 && zeroAt t 12 4 && zeroAt t 88 8))

/-- Read and check a package of format 0x11 tiles against a partition's save_gap. -/
def readPackage (packed : List Bytes) (gap : Nat) : PkgRead :=
  if !packedReservedOk packed then .bad 0xFFFFFFFF
  else match decodeBlocks packed.length packed with
  | none => .checksum
  | some blocks =>
    let tiles := blocks.flatten
    let pays := tiles.map (fun t => t.take 4064)
    let d := pays.headD []
    let f (o l : Nat) : Nat := fieldAt d o l
    let pt := f 40 4
    let wt := f 36 4
    let (prog, progOk) := readProgram ((pays.drop 1).take pt).flatten
    let cs := decodeCurves (f 44 1) ((pays.drop (1 + pt)).take (tiles.length - 1 - pt - wt)).flatten
    let pkg : ModelPkg :=
      { version := f 0 4, kind := f 4 1, inFormat := f 5 1, outFormat := f 6 1, inDims := f 8 2, outDims := f 10 2
        maxTokens := f 12 2, stepTokens := f 14 2, actFixed := f 16 8, actPerToken := f 24 8, rescoreTicks := f 32 4
        weightTiles := wt, programTiles := pt, prog := prog, curves := cs.map (fun c => c.1) }
    let descOk := decide (pkg.kind ≤ 2) && decide (pkg.inFormat ≤ 6) && decide (pkg.outFormat ≤ 6) && zeroAt d 7 1
      && decide (1 ≤ pkg.inDims) && decide (pkg.inDims ≤ 4096) && decide (1 ≤ pkg.outDims) && decide (pkg.outDims ≤ 4096)
      && decide (1 ≤ pkg.maxTokens) && decide (pkg.maxTokens ≤ 4096) && (decide (pkg.kind ≠ 1) || decide (pkg.maxTokens ≤ 512))
      && decide (64 ≤ pkg.stepTokens) && decide (f 44 1 ≤ 16) && zeroAt d 45 19 && decide (1 + pt + wt ≤ tiles.length)
      && tiles.all (fun t => decide (fieldAt t 4084 4 = pkg.version)) && cs.all (fun c => c.2)
    if !descOk || !progOk then .bad 0xFFFFFFFF
    else
      match firstOffence cs.length gap prog.saveBytes 0 0 prog.code with
      | some i => .bad i
      | none => .good pkg tiles

/-! ### MODEL_LOAD (13 R337) -/

/-- Jobs that end by a fault or an abort release what is theirs (11 R286). -/
def State.failJob (s : State) (cid status : Nat) : State := ((s.noteAll cid).release cid).fail cid status

/-- The format 0x11 tiles of a MODEL_LOAD's buffer. -/
def Cmd.packedTiles (c : Cmd) (buf : Bytes) : List Bytes := pieces 4096 (c.field 36 4) (fit c.inLen buf)

/-- MODEL_LOAD decodes and checks its package, then takes effect in phase 2 of the next tick. -/
def execModelLoad (cid : Nat) (inbuf : Bytes) (place : Nat) (s : State) : Ans :=
  match s.ready? cid Op.modelLoad with
  | none => .next s
  | some c =>
    match readPackage (c.packedTiles inbuf) (recSaveGap (s.partRec c.part)) with
    | .checksum => .next (s.checkFault cid)
    | .bad ix => .next (s.finish cid { c.failWords Status.invalidField with dw6 := ix })
    | .good _ _ => .next ((s.orderCmd c place).modCmd cid (fun c => { c with inbuf := inbuf }))

/-- The compressed copy as it stands on flash: each tile bears its logical number. -/
def packedAt (base : Nat) (packed : List Bytes) : List Bytes :=
  packed.zipIdx.map (fun p => mkTile (p.1.take 4064) (base + p.2) 0xFF TileFmt.packed (fieldAt p.1 4078 1) 0xFFFFFFFF
    (fieldAt p.1 4084 4))

/-- Tiles with their numbers from a base up. -/
def numbered (base : Nat) (ts : List Bytes) : List (Nat × Bytes) := ts.zipIdx.map (fun p => (base + p.2, p.1))

/-- Device address of a flash tile (10 R238). -/
def flashAddr (t : Nat) : Nat := 0x0002000000000000 + 4096 * t

/-- The package is held: the handle is present, and its load begins if asked for (09 R231). -/
def State.enterModel (s : State) (c : Cmd) (pkg : ModelPkg) (tiles : List Bytes) (id : Nat) : State :=
  let h := c.field 32 2
  let fl := c.field 34 1
  let packed := c.packedTiles c.inbuf
  let m : Model :=
    { handle := h, state := .present, part := c.part, pkg := pkg, tiles := tiles, packed := packed, hostHome := bit fl 1
      hostAddr := c.inAddr, mirror := if bit fl 2 then some (hostBase c.port + c.field 40 8) else none, placement := id
      holds := 0, loadWaits := false, lastRelease := 0, loadGrant := none, loadStart := 0, hbmBase := hbmLo, reloading := [] }
  let s := { s with tensor := { s.tensor with models := s.tensor.models ++ [m] } }
  if bit fl 0 then (s.modCmd c.cid (fun c => { c with stage := .modelWait h })).tryLoad h
  else s.finish c.cid ⟨Status.success, 0, c.stamp, 4096 * packed.length, 0, 0⟩

/-- A MODEL_LOAD whose package is on flash goes on (13 R337). -/
def State.endCopy (s : State) (cid : Nat) : State :=
  match s.cmd? cid with
  | none => s
  | some c =>
    match c.stage with
    | .copying id =>
      if s.programming (.load cid) then s
      else
        match readPackage (c.packedTiles c.inbuf) (recSaveGap (s.partRec c.part)) with
        | .good pkg tiles => s.enterModel c pkg tiles id
        | _ => s.fail cid Status.invalidField
    | _ => s

/-- Is a package being copied for a handle? It is not free for another MODEL_LOAD. -/
def State.copying (s : State) (h : Nat) : Bool :=
  s.cmds.any (fun c => decide (c.opcode = Op.modelLoad) && decide (c.field 32 2 = h) && (match c.stage with
    | .copying _ => true
    | _ => false))

/-- Register a package: its placement, and its compressed copy, for flash under a power grant for each program; the handle is
absent until it is whole (09 R231; 10 R240, R241, R243). -/
def State.applyLoad (s : State) (c : Cmd) (place : Nat) : State :=
  let h := c.field 32 2
  let fl := c.field 34 1
  let packed := c.packedTiles c.inbuf
  match readPackage packed (recSaveGap (s.partRec c.part)) with
  | .checksum => s.checkFault c.cid
  | .bad ix => s.finish c.cid { c.failWords Status.invalidField with dw6 := ix }
  | .good pkg tiles =>
    let n := packed.length
    let host := bit fl 1
    let region := if host then some 0 else allocRange s.flashRegions 0 flashTiles 1 place n
    if (s.model? h).isSome || s.copying h then s.fail c.cid Status.invalidField
    else if s.quotaSram c.part < pkg.prog.sram || (!host && !s.flashFits c.part n) then s.fail c.cid Status.quotaExceeded
    else
      match region, s.freePlacement? with
      | some b, some id =>
        let home := if host then 3 + c.port.num else 2
        let base := if host then hostBase c.port + c.inAddr else flashAddr b
        let l : Placement :=
          { id := id, kind := 2, part := c.part, home := home, writeBack := false, moving := false, base := base
            length := 4096 * n, owner := h, dirty := [], filled := [], shadow := 0, newHome := 0, newBase := 0, moveCid := 0
            copied := false }
        let s := { s with tensor := { s.tensor with placements := s.tensor.placements ++ [l] } }
        if host then s.enterModel c pkg tiles id
        else ((s.modCmd c.cid (fun c => { c with stage := .copying id })).askTiles (.load c.cid) (some c.cid) c.part
          (numbered b (packedAt b packed))).endCopy c.cid
      | _, _ => s.fail c.cid Status.capacityFull

/-! ### The end of a load (09 R231, R232) -/

/-- Commands that wait for a handle, in the precedence of R36. -/
def State.waitingFor (s : State) (h : Nat) : List Cmd :=
  sortBy (fun (a b : Cmd) => decide ([portRank a.port, a.sq, a.cid] ≤ [portRank b.port, b.sq, b.cid]))
    (s.cmds.filter (fun c => decide (c.stage = .modelWait h)))

/-- A waiting job takes its hold, its sequence with it. -/
def State.takeHold (s : State) (c : Cmd) (h : Nat) : State :=
  let s := (s.hold h).modCmd c.cid (fun c => { c with stage := .sequence })
  { s with tensor := { s.tensor with
    seqs := mapWhere (fun q => decide (q.cid = c.cid) && decide (q.mark ≠ .dead)) (fun q => { q with holding := true })
      s.tensor.seqs } }

/-- What one waiting command does when the model has become resident. -/
def State.loaded (s : State) (m : Model) (c : Cmd) : State :=
  if c.opcode = Op.modelLoad then s.finish c.cid ⟨Status.success, 0, c.stamp, 4096 * m.packed.length, 0, 0⟩
  else if c.opcode = Op.modelEvict || s.moveBlocks m then s
  else s.takeHold c m.handle

/-- After a move: the jobs that waited for it take their holds, and loads begin (10 R244). -/
def State.moveEnded (s : State) : State :=
  ((s.tensor.models.filter (fun m => decide (m.state = .resident))).foldl (fun s m =>
    (s.waitingFor m.handle).foldl (fun s c => s.loaded m c) s) s).retryLoads

/-- Write tiles into HBM from an address up. -/
def State.pokeTiles (s : State) : Nat → List Bytes → State
  | _, [] => s
  | a, t :: ts => State.pokeTiles (s.poke a t) (a + 4096) ts

/-- Model loads complete: the model is resident in phase 2 of this tick and the jobs that wait take their holds; a
MODEL_EVICT that waited then begins. -/
def execLoadComplete (handle : Fin 1024) (s : State) : Ans :=
  match s.model? handle with
  | none => .next s
  | some m =>
    let granted := match s.grantOf (.modelLoad handle) with
      | some g => g.granted && !g.releasing
      | none => false
    if m.state = .loading && granted then
      let s := s.pokeTiles m.hbmBase m.tiles
      let s := match m.loadGrant with
        | some g => s.endGrant g
        | none => s
      let us := s.now - m.loadStart
      let s := ((s.count 0x5810 4 1).setObj 0x5810 7 0 (us % 2 ^ 32)).modModel handle (fun m => { m with
        state := .resident, loadGrant := none, lastRelease := s.now })
      let ws := s.waitingFor handle
      let s := ws.foldl (fun s c => s.loaded m c) s
      let ev := ws.filter (fun c => decide (c.opcode = Op.modelEvict))
      if ev.isEmpty then .next s
      else .next ((s.modModel handle (fun m => { m with
        state := .evicting (ev.any (fun c => bit (c.field 34 1) 0)) })).endEvict handle)
    else .next s

/-! ### MODEL_EVICT (13 R338) -/

/-- MODEL_EVICT takes effect in phase 2 of the next tick. -/
def execModelEvict (cid : Nat) (s : State) : Ans :=
  match s.ready? cid Op.modelEvict with
  | none => .next s
  | some c => .next (s.orderCmd c 0)

/-- The effect of a MODEL_EVICT (09 R231). A faulted model that jobs still hold leaves when they end (log entry 24). -/
def State.applyEvict (s : State) (c : Cmd) : State :=
  let h := c.field 32 2
  let unreg := bit (c.field 34 1) 0
  let done (s : State) : State := s.finish c.cid ⟨Status.success, 0, c.stamp, 0, 0, 0⟩
  let wait (s : State) : State := s.modCmd c.cid (fun c => { c with stage := .modelWait h })
  match s.model? h with
  | none => s.fail c.cid Status.invalidField
  | some m =>
    match m.state with
    | .resident => ((wait s).modModel h (fun m => { m with state := .evicting unreg })).endEvict h
    | .evicting u => (wait s).modModel h (fun m => { m with state := .evicting (u || unreg) })
    | .loading => wait s
    | .present => if unreg then done (s.unregister m) else done s
    | .faulted =>
      if !unreg then done s
      else if m.holds = 0 then done (s.unregister m)
      else (wait s).modModel h (fun m => { m with state := .evicting true })

/-! ### RUN and ENCODE_SEARCH (13 R326, R339; 09 R231, R234) -/

/-- A job's sequence gets its input and its model, or waits for it; frames_min is held to (09 R230). -/
def State.askSequence (s : State) (c : Cmd) (m : Model) (tokens : Nat) (input : Bytes) : State :=
  if m.state = .faulted then s.failJob c.cid Status.modelUnavailable
  else if (s.partFrames c.part).length < max 1 m.pkg.prog.framesMin then s.failJob c.cid Status.unitOut
  else
    let s := if s.tensor.seqs.any (fun q => decide (q.cid = c.cid) && decide (q.mark ≠ .dead)) then
        { s with tensor := { s.tensor with
          seqs := mapWhere (fun q => decide (q.cid = c.cid) && decide (q.mark ≠ .dead)) (fun q => { q with input := input })
            s.tensor.seqs } }
      else
        match s.freeEntry? with
        | some e => s.addSeq e c m tokens none false input
        | none => s
    if m.state = .resident ∧ s.moveBlocks m = false then s.takeHold c m.handle
    else (s.modCmd c.cid (fun c => { c with stage := .modelWait m.handle })).tryLoad m.handle

/-- Is there a sequence entry for the command? -/
def State.hasEntry (s : State) (cid : Nat) : Bool :=
  s.tensor.seqs.any (fun q => decide (q.cid = cid) && decide (q.mark ≠ .dead)) || s.freeEntry?.isSome

/-- RUN: its input is read and its sequence waits for the model and a step. -/
def execRun (cid : Nat) (inbuf : Bytes) (s : State) : Ans :=
  match s.ready? cid Op.run with
  | none => .next s
  | some c =>
    match s.model? (c.field 32 2) with
    | none => .next (s.failJob cid Status.invalidField)
    | some m =>
      if s.hasEntry cid then .next (s.askSequence c m (c.field 36 4) (fit c.inLen inbuf)) else .next s

/-- ENCODE_SEARCH: its encoder runs as a sequence, and its search waits for the embedding. -/
def execEncodeSearch (cid : Nat) (inbuf : Bytes) (s : State) : Ans :=
  match s.ready? cid Op.encodeSearch with
  | none => .next s
  | some c =>
    match s.coll? c.collByte, s.model? (c.field 48 2) with
    | some k, some m =>
      match s.searchParams c k with
      | none => .next (s.failJob cid Status.invalidField)
      | some p =>
        if !s.hasEntry cid then .next s
        else
          let c' := { c with inbuf := inbuf }
          let x := s.fillQuery (newSearch c' k 0 p .encoding) c' k
          if !m.encodes k || !x.queryOk k then .next (s.failJob cid Status.invalidField)
          else
            let s := if (s.search? cid 0).isSome then s else { s with searches := s.searches ++ [x] }
            let s := s.modCmd cid (fun c => { c with inbuf := inbuf })
            .next (s.askSequence c' m (c.field 54 2) ((fit c.inLen inbuf).take (m.inputLen (c.field 54 2))))
    | none, _ => .next (s.failJob cid Status.invalidCollection)
    | _, none => .next (s.failJob cid Status.invalidField)

/-! ### Reloading a block (18 R466) -/

/-- A fault is charged to every live sequence of a step (11 R287). -/
def State.chargeStep (s : State) (h p status : Nat) : State :=
  { s with tensor := { s.tensor with
    seqs := mapWhere (fun q => decide (q.handle = h) && decide (q.part = p) && decide (q.state ≠ .waiting))
      (fun q => { q with fault := some (q.fault.getD status) }) s.tensor.seqs } }

/-- First tile and number of tiles of a block. -/
def blockSpan : List (List Bytes) → Nat → Nat × Nat
  | [], _ => (0, 0)
  | b :: _, 0 => (0, b.length)
  | b :: bs, n + 1 => let (o, l) := blockSpan bs n; (o + b.length, l)

/-- The block that yields a tile of the resident copy. -/
def blockOf : List (List Bytes) → Nat → Nat
  | [], _ => 0
  | b :: bs, t => if t < b.length then 0 else blockOf bs (t - b.length) + 1

/-- First tile and number of tiles of each block in the compressed copy. -/
def packedSpans : Nat → Nat → List Bytes → List (Nat × Nat)
  | _, _, [] => []
  | 0, _, _ :: _ => []
  | fuel + 1, o, t :: ts =>
    match decodeBlock (t :: ts) with
    | none => []
    | some (_, used) => (o, used) :: packedSpans fuel (o + used) (ts.drop (used - 1))

/-- Has a context a segment in flight from a range of addresses? -/
def FrameCtx.reads (c : FrameCtx) (a n : Nat) : Bool :=
  c.streams.any (fun x => x.flight.any (fun g => decide (a ≤ g.addr) && decide (g.addr < a + n)))

/-- A block of a resident model is reloaded from its compressed copy, or from the mirror, whose block is then rewritten on
flash; without either the model is faulted. The compressed copies themselves pass R249 (log entry 25). -/
def execReload (handle : Fin 1024) (block : Nat) (flashOk : Bool) (s : State) : Ans :=
  match s.model? handle with
  | none => .next s
  | some m =>
    let blocks := (decodeBlocks m.packed.length m.packed).getD []
    if m.isResident && decide (block < blocks.length) then
      let (first, n) := blockSpan blocks block
      let done (s : State) : State :=
        (s.pokeTiles (m.hbmBase + 4096 * first) ((m.tiles.drop first).take n)).modModel handle (fun m => { m with
          reloading := m.reloading.filter (fun b => decide (b ≠ block)) })
      if flashOk then .next (done s)
      else if m.mirror.isSome then
        let l := s.placement? m.placement
        let s := match l with
          | some l => if l.home = 2 then
              let b := (l.base - 0x0002000000000000) / 4096
              let (o, k) := (packedSpans m.packed.length 0 m.packed).getD block (0, 0)
              s.askTiles .alone none m.part (numbered (b + o) (((packedAt b m.packed).drop o).take k))
            else s
          | none => s
        .next ((done s).count 0x6200 0x11 1)
      else
        let a := m.hbmBase + 4096 * first
        let hit := s.tensor.ctxs.filter (fun c => decide (c.handle = m.handle) && c.reads a (4096 * n))
        let s := (s.count 0x6200 0x12 1).modModel handle (fun m => { m with state := .faulted, reloading := [] })
        .next (hit.foldl (fun s c => s.chargeStep c.handle c.part Status.modelUnavailable) s)
    else .next s

end Sys2Proof.Machine
end

