-- ==== Sys2Proof/Machine/Arbiter.lean ====
section
/-! DEFINITION. Frame contexts and their arbitration (11 R275-R277): what is ready on a frame, what the frame chooses, and when the
context that runs gives way. -/
namespace Sys2Proof.Machine

/-! ### Frame contexts -/

/-- The context running on a frame. -/
def State.frameCtx (s : State) (f : Nat) : Option FrameCtx :=
  match s.tensor.running.getD f none with
  | some (h, p) => s.tensor.ctxs.find? (fun c => decide (c.handle = h) && decide (c.part = p) && decide (c.frame = f))
  | none => none

/-- Replace a context, by its handle, partition and frame. -/
def State.setCtx (s : State) (c : FrameCtx) : State :=
  { s with tensor := { s.tensor with
    ctxs := mapWhere (fun x => decide (x.handle = c.handle) && decide (x.part = c.part) && decide (x.frame = c.frame))
      (fun _ => c) s.tensor.ctxs } }

/-- The contexts of a step. -/
def State.stepCtxs (s : State) (h p : Nat) : List FrameCtx :=
  s.tensor.ctxs.filter (fun c => decide (c.handle = h) && decide (c.part = p))

/-- The sequences of a step, in join order. -/
def State.stepSeqs (s : State) (h p : Nat) : List Seqn :=
  s.tensor.seqs.filter (fun q => decide (q.handle = h) && decide (q.part = p) && decide (q.state ≠ .waiting))

/-- The guard keeps frames from starting a tile in odd ticks (16 R415). -/
def State.tileHeld (s : State) : Bool := s.pwr.guard && decide (s.now % 2 = 1)

/-! ### Arbitration (11 R275, R277) -/

/-- Is the step's power grant in force, where it needs one (09 R226)? -/
def State.stepGranted (s : State) (h p : Nat) : Bool :=
  match s.model? h with
  | none => false
  | some m => decide (m.pkg.prog.stepTiles ≤ 64) || (match s.grantOf (.frameStep h p) with
      | some g => g.granted && !g.releasing
      | none => false)

/-- Save slots of a frame in use (11 R278). -/
def State.slotsUsed (s : State) (f : Nat) : List Nat :=
  (s.tensor.ctxs.filter (fun c => decide (c.frame = f) && decide (c.slot ≠ 0))).map (fun c => c.slot)

/-- May the halves exchange? -/
def Stream.canSwap (x : Stream) : Bool :=
  (x.ended && x.flight.isEmpty)
    || (if x.prog.write then decide (x.tilesDone = x.tilesSwapped) else decide (x.prog.halfTiles ≤ x.tilesDone))

/-- May the stream be armed again? Every tile has been swapped to the program, or every segment generated has been drained (R254). -/
def Stream.canReArm (x : Stream) : Bool :=
  x.ended && x.flight.isEmpty && (x.prog.write || decide (x.tilesDone = 0))

/-- The next in-service frame of the partition's ring. -/
def State.nextFrame (s : State) (p f : Nat) : Nat :=
  let fs := s.partFrames p
  match fs.find? (fun g => decide (f < g)) with
  | some g => g
  | none => fs.headD f

/-- Has the receiving frame freed the destination? A receiver that is saved is waited for (log entry 29). -/
def State.rotateReady (s : State) (c : FrameCtx) (g : Nat) : Bool :=
  match (s.stepCtxs c.handle c.part).find? (fun x => decide (x.frame = g)) with
  | none => true
  | some r => decide (g = c.frame) || decide (r.wait = .ended)
      || (r.rotateFree && decide (s.tensor.running.getD g none = some (c.handle, c.part)))

/-- Has the condition come that a running context waits for at a STREAM or a ROTATE (R276)? -/
def State.waitOver (s : State) (c : FrameCtx) (w : FrameWait) : Bool :=
  match w with
  | .swap i => (match c.streams[i]? with | some x => x.canSwap | none => true)
  | .reArm i => (match c.streams[i]? with | some x => x.canReArm | none => true)
  | .rotate => s.rotateReady c (s.nextFrame c.part c.frame)
  | _ => false

/-- Can the context execute its next instruction (11 R275)? -/
def State.ctxReady (s : State) (c : FrameCtx) : Bool :=
  if c.started then
    match c.wait with
    | .ended => false
    | .sync _ => false
    | .none => !c.saved || s.stepGranted c.handle c.part
    | w => if c.saved then s.stepGranted c.handle c.part else s.waitOver c w
  else
    s.stepGranted c.handle c.part
      && (decide (c.slot ≠ 0) || (s.stepCtxs c.handle c.part).all (fun x => decide ((s.slotsUsed x.frame).length < 32)))

/-- The classes a step carries. -/
def State.ctxClasses (s : State) (c : FrameCtx) : List Nat := (s.stepSeqs c.handle c.part).map (fun q => q.cls)

/-- The least use divided by weight, the first of equals; entries are number, use and weight. -/
def leastUse : List (Nat × Nat × Nat) → Option Nat
  | [] => none
  | x :: xs => some ((xs.foldl (fun (a b : Nat × Nat × Nat) => if b.2.1 * a.2.2 < a.2.1 * b.2.2 then b else a) x).1)

/-- The tick-table slot in force (02 R44). -/
def State.slotNow (s : State) : Nat := s.table.slot s.activeBank (s.now % 4096)

/-- The first join tick of a context's step. -/
def State.firstJoin (s : State) (c : FrameCtx) : Nat :=
  ((s.stepSeqs c.handle c.part).map (fun q => q.joinTick)).foldl min (s.now + 1)

/-- The choice of R277 on a frame. -/
def State.choose (s : State) (f : Nat) : Option FrameCtx :=
  let ready := s.tensor.ctxs.filter (fun c => decide (c.frame = f) && s.ctxReady c)
  let parts := (List.range 16).filter (fun p => ready.any (fun c => decide (c.part = p)))
  let fixed := parts.find? (fun p => slotFixes s.slotNow f p)
  let p := match fixed with
    | some p => some p
    | none => leastUse ((parts.filter (fun p => (s.partFrames p).contains f)).map (fun p => (p, Sparse.count s.shares.usedF (16 * f + p), recFrameWeight (s.partRec p))))
  match p with
  | none => none
  | some p =>
    let mine := ready.filter (fun c => decide (c.part = p))
    let cls := (List.range 8).filter (fun k => mine.any (fun c => (s.ctxClasses c).contains k))
    let k := leastUse (cls.map (fun k => (k, Sparse.count s.shares.usedC (8 * p + k), recClassWeight (s.partRec p) k)))
    let cand := mine.filter (fun c => match k with | some k => (s.ctxClasses c).contains k | none => true)
    (sortBy (fun a b => decide (s.firstJoin a < s.firstJoin b)
      || (decide (s.firstJoin a = s.firstJoin b) && decide (a.handle ≤ b.handle))) cand).head?

/-- A partition or a class that becomes ready after being idle is raised to the least normalised use of those ready
(11 R277). `xs` holds use and weight of the others. -/
def raiseUse (own weight : Nat) (xs : List (Nat × Nat)) : Nat :=
  match xs with
  | [] => own
  | x :: _ => max own ((xs.map (fun y => y.1 * weight / max 1 y.2)).foldl min (x.1 * weight / max 1 x.2))

/-- The partitions with a ready context, by 16·f + p, and the classes, by 8·p + c. -/
def State.readyParts (s : State) : List Nat :=
  ((s.tensor.ctxs.filter (fun c => s.ctxReady c)).map (fun c => 16 * c.frame + c.part)).eraseDups
def State.readyClasses (s : State) : List Nat :=
  (((s.tensor.ctxs.filter (fun c => s.ctxReady c)).map (fun c => (s.ctxClasses c).map (fun k => 8 * c.part + k))).flatten).eraseDups

/-- Raise the use of each of some keys to the least normalised use of those of its group that were ready already. -/
def raiseAll (group : Nat → Nat) (weight : Nat → Nat) (old new : List Nat) (use : List (Nat × Nat)) : List (Nat × Nat) :=
  new.foldl (fun m k => Sparse.put (fun _ => 0) m k (raiseUse (Sparse.count m k) (weight k)
    ((old.filter (fun j => decide (group j = group k))).map (fun j => (Sparse.count m j, weight j))))) use

/-- Take note of what is ready: a partition or a class that was not has its use raised, so that idle time is not banked. -/
def State.noteReady (s : State) : State :=
  let f := s.readyParts
  let c := s.readyClasses
  let were (l m : List Nat) : List Nat := l.filter (fun k => m.contains k)
  let fresh (l m : List Nat) : List Nat := l.filter (fun k => !m.contains k)
  { s with shares := { s.shares with
      readyF := f, readyC := c
      usedF := raiseAll (fun k => k / 16) (fun k => recFrameWeight (s.partRec (k % 16))) (were f s.shares.readyF)
        (fresh f s.shares.readyF) s.shares.usedF
      usedC := raiseAll (fun k => k / 8) (fun k => recClassWeight (s.partRec (k / 8)) (k % 8)) (were c s.shares.readyC)
        (fresh c s.shares.readyC) s.shares.usedC } }

/-! ### Pre-emption -/

/-- Is a context at a pre-emption point (R276)? -/
def FrameCtx.atPoint (c : FrameCtx) : Bool := c.atSave || (decide (c.wait ≠ .none) && decide (c.wait ≠ .ended))

/-- Keep the running context: it is the choice, or of the chosen partition with quantum left (R277). -/
def State.keeps (s : State) (c d : FrameCtx) : Bool :=
  (decide (d.handle = c.handle) && decide (d.part = c.part))
    || (decide (d.part = c.part) && decide (s.now - c.runSince < recQuantum (s.partRec c.part)))

/-- Is the running context to be pre-empted: it stands at a pre-emption point, where the frame chooses another that it is not kept
against (R277)? -/
def State.mustYield (s : State) (c : FrameCtx) : Bool :=
  c.atPoint && (match s.choose c.frame with
    | some d => !s.keeps c d
    | none => false)

end Sys2Proof.Machine
end

