-- ==== Sys2Proof/Machine/Frames.lean ====
section
/-! DEFINITION. The tile instructions of a frame (09 R215-R223): operands, arithmetic, fused outputs, splits (08 R209-R211).
Each row takes the instruction at the pc of the context that runs on its frame. -/
namespace Sys2Proof.Machine

/-! ### An instruction at a frame -/

/-- Clocks divided among classes by tokens, the remainder to the class of the first sequence (11 R283). -/
def classShares (seqs : List Seqn) (n : Nat) : List (Nat × Nat) :=
  let total := sumBy (fun q => q.tokens) seqs
  let parts := (List.range 8).map (fun c =>
    (c, n * sumBy (fun q => if q.cls = c then q.tokens else 0) seqs / max 1 total))
  let rest := n - sumBy (fun p => p.2) parts
  match seqs with
  | [] => []
  | q :: _ => parts.map (fun p => (p.1, p.2 + (if p.1 = q.cls then rest else 0)))

/-- Charge frame clocks to a partition on a frame and to its classes (11 R277, R283). -/
def State.chargeClocks (s : State) (c : FrameCtx) (n : Nat) : State :=
  let shares := classShares (s.stepSeqs c.handle c.part) n
  { s with
    shares := { s.shares with
      usedF := Sparse.bump s.shares.usedF (16 * c.frame + c.part) n
      usedC := shares.foldl (fun m p => Sparse.bump m (8 * c.part + p.1) p.2) s.shares.usedC }
    tensor := { s.tensor with busy := Sparse.bump s.tensor.busy c.frame n } }

/-- The program counter moves on, the clocks are charged, and the instruction is counted (09 R225, R233, R237). -/
def State.stepOn (s : State) (c : FrameCtx) (t : TileInstr) (n : Nat) : State :=
  let c := { c with
    pc := c.pc + 1, wait := .none, atSave := t.save, clocks := c.clocks + n
    rotateFree := c.rotateFree || t.save || decide (t.op = TOp.sync) }
  (((s.setCtx c).chargeClocks c n).count 0x5800 3 1)

/-- The model and the instruction a frame is at, when it runs or waits at it. -/
def State.atInstr (s : State) (f op : Nat) : Option (FrameCtx × ModelPkg × TileInstr) :=
  match s.frameCtx f with
  | none => none
  | some c =>
    match s.model? c.handle with
    | none => none
    | some m =>
      match m.pkg.prog.code[c.pc]? with
      | some t => if s.up && s.unitIn (unitFrame f) && !s.tileHeld && !s.mustYield c && decide (t.op = op) then some (c, m.pkg, t) else none
      | none => none

/-- What an instruction makes of the state and its context; none is a PROGRAM_FAULT. -/
abbrev TileEffect := Option (State × FrameCtx)

/-- Execute one instruction: its effect, or a PROGRAM_FAULT charged to every sequence of the step (11 R287), whose rows run
on to END. Accumulators stay open only from one MATMUL to the next. -/
def State.runTile (s : State) (f op : Nat) (clocks : TileInstr → Nat)
    (go : State → FrameCtx → ModelPkg → TileInstr → TileEffect) : State :=
  match s.atInstr f op with
  | none => s
  | some (c, pkg, t) =>
    if c.wait ≠ .none then s
    else
      let keep (c : FrameCtx) : FrameCtx := if t.op = TOp.matmul then c else { c with accums := [], accShape := none }
      match go s c pkg t with
      | some (s, c) => s.stepOn (keep c) t (clocks t)
      | none => (s.chargeStep c.handle c.part Status.programFault).stepOn (keep c) t (clocks t)

/-! ### Addresses and operands (09 R219, R224; 10 R238) -/

/-- First address of a frame's SRAM. -/
def frameBase (f : Nat) : Nat := f * 0x01800000
def inSram (sram f a len : Nat) : Bool := decide (frameBase f ≤ a) && decide (a + len ≤ frameBase f + sram)
/-- An operand lies in the frame's own footprint or in HBM that the partition may use. -/
def State.addrOk (s : State) (part sram f a len : Nat) : Bool := inSram sram f a len || s.hbmOk part a len

/-- Bytes from one row of an operand to the next, and of an operand. -/
def rowStride (fmt n : Nat) : Nat := roundUp (rowLen fmt n) 64
def operandLen (fmt m n : Nat) : Nat := m * rowStride fmt n

/-- Row i of an operand as exact values, read under the subnormal mode. -/
def State.opRow (s : State) (fl : Bool) (a fmt n i : Nat) : Flagged (List Val) :=
  let row := s.peek (a + i * rowStride fmt n) (rowLen fmt n)
  mapFlagged (fun j => flushIn fl fmt (decodeVal fmt (element fmt row j))) (List.range n)

/-- Every row of an operand. -/
def State.opRows (s : State) (fl : Bool) (a fmt m n : Nat) : Flagged (List (List Val)) :=
  mapFlagged (fun i => s.opRow fl a fmt n i) (List.range m)

/-- The bytes of a row of codes. -/
def packRow (fmt : Nat) (codes : List Nat) : Bytes :=
  leBytes (rowLen fmt codes.length) (codes.foldr (fun c n => c % 2 ^ fmtBits fmt + 2 ^ fmtBits fmt * n) 0)

/-- FP32 results converted into the format of C (09 R221). -/
def outRow (fl : Bool) (t : TileInstr) (xs : List F32) : Flagged Bytes :=
  let (cs, f) := mapFlagged (fun x => convert fl t.iov t.fc (val32 x)) xs
  (fit (rowStride t.fc xs.length) (packRow t.fc cs), f)

/-- Write rows from an address, each at its stride. -/
def State.storeRows (s : State) (a stride : Nat) : List Bytes → State
  | [] => s
  | r :: rs => State.storeRows (s.poke a r) (a + stride) stride rs

/-- Raise sticky flags in a context. -/
def FrameCtx.raise (c : FrameCtx) (f : Flags) : FrameCtx := { c with flags := c.flags.or f }

/-- Store the M × N results of an instruction at C. -/
def State.storeTile (s : State) (fl : Bool) (sram : Nat) (c : FrameCtx) (t : TileInstr) (xs : List (List F32)) : TileEffect :=
  if s.addrOk c.part sram c.frame t.c (operandLen t.fc t.m t.n) then
    let (rows, f) := mapFlagged (outRow fl t) xs
    some (s.storeRows t.c (rowStride t.fc t.n) rows, c.raise f)
  else none

/-! ### MATMUL (08 R198-R211; 09 R220, R222, R223) -/

/-- The preload of output (i, j), in the format of C (log entry 26). -/
def State.preloadAt (s : State) (fl : Bool) (t : TileInstr) (i j : Nat) : Flagged F32 :=
  let at_ (a n k : Nat) : Flagged F32 :=
    let (v, f) := flushIn fl t.fc (decodeVal t.fc (element t.fc (s.peek a (rowLen t.fc n)) k))
    let (x, g) := toF32 fl v
    (x, f.or g)
  match t.pre with
  | 1 => at_ t.p t.m i
  | 2 => at_ t.p t.n j
  | _ => at_ (t.p + i * rowStride t.fc t.n) t.n j

/-- Bytes of the preload. -/
def TileInstr.preLen (t : TileInstr) : Nat :=
  match t.pre with
  | 0 => 0
  | 1 => rowStride t.fc t.m
  | 2 => rowStride t.fc t.n
  | _ => operandLen t.fc t.m t.n

/-- The accumulator an output starts from. -/
def State.startAccum (s : State) (fl : Bool) (t : TileInstr) (i j : Nat) : Flagged Accum :=
  if t.pre = 0 then (Accum.empty, Flags.none)
  else
    let (p, f) := s.preloadAt fl t i j
    (Accum.preload p, f)

/-- Fused outputs of the results (09 R222): the row state moves on, and ROW_LAST writes the records. -/
def State.fuse (s : State) (fl : Bool) (sram : Nat) (c : FrameCtx) (t : TileInstr) (xs : List (List F32)) : TileEffect :=
  if t.fuse = 0 && !t.rowFirst && !t.rowLast then some (s, c)
  else
    let old (i : Nat) : RowRec := if t.rowFirst then RowRec.start else c.rows.getD i RowRec.start
    if t.rowLast && !t.rowFirst && (List.range t.m).any (fun i => !(old i).started) then none
    else
      let (rows, f) := mapFlagged (fun p =>
        if t.rowFirst || (old p.2).started then fuseTile fl t.fuse (old p.2) p.1 else (old p.2, Flags.none)) xs.zipIdx
      if !t.rowLast then some (s, { c with rows := rows }.raise f)
      else if s.addrOk c.part sram c.frame t.f (32 * t.m) then
        let (recs, g) := mapFlagged (rowRecord fl t.fuse) rows
        some (s.poke t.f recs.flatten, { c with rows := [] }.raise (f.or g))
      else none

/-- Results of a MATMUL: fused, converted and stored. -/
def State.finishMatmul (s : State) (fl : Bool) (sram : Nat) (c : FrameCtx) (t : TileInstr) (xs : List (List F32)) : TileEffect :=
  match s.fuse fl sram c t xs with
  | none => none
  | some (s, c) => s.storeTile fl sram c t xs

/-- Split a flat list into rows of n. -/
def toRows {α : Type} (n : Nat) : Nat → List α → List (List α)
  | 0, _ => []
  | m + 1, xs => xs.take n :: toRows n m (xs.drop n)

/-- The output positions of an instruction, row by row. -/
def TileInstr.cells (t : TileInstr) : List (Nat × Nat) :=
  ((List.range t.m).map (fun i => (List.range t.n).map (fun j => (i, j)))).flatten

/-- The terms of each output. -/
def cellTerms (fl : Bool) (as bs : List (List Val)) (i j : Nat) : List (Flagged F32) :=
  products fl (as.getD i []) (bs.getD j [])

/-- The accumulators an instruction works on, output by output: those left open, or fresh ones with its preload (09 R223).
In arrival mode the preload goes into the words and not into the frames' parts (08 R210). -/
def State.openAccums (s : State) (fl : Bool) (c : FrameCtx) (t : TileInstr) : Flagged (List Accum) :=
  if t.contIn then (t.cells.map (fun p => c.accums.getD (p.1 * t.n + p.2) Accum.empty), Flags.none)
  else if t.red then (t.cells.map (fun _ => Accum.empty), Flags.none)
  else mapFlagged (fun (p : Nat × Nat) => s.startAccum fl t p.1 p.2) t.cells

/-- Leave accumulators open after an instruction, or none. -/
def FrameCtx.keepAccums (c : FrameCtx) (t : TileInstr) (accs : List Accum) : FrameCtx :=
  if t.contOut then { c with accums := accs, accShape := some (t.m, t.n, t.fc, t.fuse) } else { c with accums := [], accShape := none }

/-- MATMUL on one frame. -/
def State.matmulPlain (s : State) (fl : Bool) (sram : Nat) (c : FrameCtx) (t : TileInstr) (as bs : List (List Val)) : TileEffect :=
  let (start, f) := s.openAccums fl c t
  let (accs, g) := mapFlagged (fun (p : Accum × (Nat × Nat)) => Accum.terms fl p.1 (cellTerms fl as bs p.2.1 p.2.2))
    (start.zip t.cells)
  let c := (c.keepAccums t accs).raise (f.or g)
  if t.contOut then some (s, c)
  else
    let (xs, h) := mapFlagged (Accum.finish fl) accs
    s.finishMatmul fl sram (c.raise h) t (toRows t.n t.m xs)

/-- The key of an output element of a split, and its block sums delivered so far. -/
def TileInstr.cellKey (t : TileInstr) (i j : Nat) : Nat := t.c * 4096 + i * 64 + j
def BlockSum.is (b : BlockSum) (c : FrameCtx) (key : Nat) : Bool :=
  decide (b.part = c.part) && decide (b.handle = c.handle) && decide (b.addr = key)

/-- Deliver block sums, a later one of the same block standing in place of an earlier. -/
def State.deliver (s : State) (new : List BlockSum) : State :=
  let same (a b : BlockSum) : Bool := decide ((a.part, a.handle, a.addr, a.block) = (b.part, b.handle, b.addr, b.block))
  { s with tensor := { s.tensor with sums := s.tensor.sums.filter (fun b => !new.any (same b)) ++ new } }

/-- The delivered sums of an output in block order, when all have come. -/
def State.allSums (s : State) (c : FrameCtx) (t : TileInstr) (key : Nat) : Option (List F32) :=
  let mine := s.tensor.sums.filter (fun b => b.is c key)
  (List.range t.blocks).mapM (fun n => (mine.find? (fun b => decide (b.block = n))).map (fun b => b.value))

/-- Forget the sums of an instruction's outputs. -/
def State.dropSums (s : State) (c : FrameCtx) (keys : List Nat) : State :=
  { s with tensor := { s.tensor with sums := s.tensor.sums.filter (fun b => !keys.any (fun k => b.is c k)) } }

/-- A split in ordered mode (08 R209; 09 R223): the sums of this frame's blocks go to the owner, which gathers once it has
them all. What the gather and its preload raise is raised in the owner's context; the forming of a block sum, in the
sender's. -/
def State.matmulOrdered (s : State) (fl : Bool) (sram : Nat) (c : FrameCtx) (t : TileInstr) (as bs : List (List Val)) : TileEffect :=
  let (start, pre) := s.openAccums fl c t
  let (work, f) := mapFlagged (fun (p : Accum × (Nat × Nat)) =>
    let (bs, a, f) := blockSums fl p.1 t.contOut (cellTerms fl as bs p.2.1 p.2.2)
    ((bs.zipIdx.map (fun b => BlockSum.mk c.part c.handle (t.cellKey p.2.1 p.2.2) (t.blockFirst + b.2) b.1), a), f))
    (start.zip t.cells)
  let s := s.deliver (work.map (fun w => w.1)).flatten
  let c := (c.keepAccums t (work.map (fun w => w.2))).raise f
  match t.cells.mapM (fun p => s.allSums c t (t.cellKey p.1 p.2)) with
  | none => some (s, if t.owner = c.frame then c.raise pre else c)
  | some sums =>
    let (xs, g) := mapFlagged (fun (q : Accum × List F32) => gatherBlocks fl { q.1 with tree := List.replicate 8 none } q.2)
      (start.zip sums)
    let s := s.dropSums c (t.cells.map (fun p => t.cellKey p.1 p.2))
    if t.owner = c.frame then s.finishMatmul fl sram (c.raise (pre.or g)) t (toRows t.n t.m xs)
    else
      let own := (s.stepCtxs c.handle c.part).find? (fun x => decide (x.frame = t.owner))
      match s.finishMatmul fl sram ((own.getD { c with frame := t.owner }).raise (pre.or g)) t (toRows t.n t.m xs) with
      | none => none
      | some (s, o) => some (if own.isSome then s.setCtx o else s, if own.isSome then c else c.raise (pre.or g))

/-- The words of an arrival-mode output are set to the preload, or to −0, before any contribution (08 R210). -/
def State.setWords (s : State) (fl : Bool) (t : TileInstr) : State × Flags :=
  let (ws, f) := mapFlagged (fun (p : Nat × Nat) => if t.pre = 0 then (negZero32, Flags.none) else s.preloadAt fl t p.1 p.2) t.cells
  ((ws.zip t.cells).foldl (fun s w => s.poke (t.c + w.2.1 * rowStride 4 t.n + 4 * w.2.2) (leBytes 4 w.1.toNat)) s, f)

/-- A reduction in arrival mode (08 R210, R211): the words of the output are set before the first contribution; this frame's
dot products, over all its blocks when the instruction continues others, are added to them at the HBM controller, whose adds
flush nothing. The block sums delivered here only mark which blocks have come. -/
def State.matmulArrival (s : State) (fl : Bool) (c : FrameCtx) (t : TileInstr) (as bs : List (List Val)) : TileEffect :=
  if !s.hbmOk c.part t.c (operandLen 4 t.m t.n) then none
  else
    let key := t.cellKey 64 0
    let word (p : Nat × Nat) : Nat := t.c + p.1 * rowStride 4 t.n + 4 * p.2
    let (s, f0) := if t.contIn || s.tensor.sums.any (fun b => b.is c key) then (s, Flags.none) else s.setWords fl t
    let s := if t.split then
        s.deliver ((List.range (ceilDiv t.k 256)).map (fun b => BlockSum.mk c.part c.handle key (t.blockFirst + b) zero32))
      else s
    let (accs, f1) := mapFlagged (fun (p : Accum × (Nat × Nat)) => Accum.terms fl p.1 (cellTerms fl as bs p.2.1 p.2.2))
      ((s.openAccums fl c t).1.zip t.cells)
    let c := (c.keepAccums t accs).raise { f0.or f1 with nondet := true }
    if t.contOut then some (s, c)
    else
      let (xs, f) := mapFlagged (fun (p : Accum × (Nat × Nat)) =>
        let (v, h) := Accum.finish fl p.1
        let (r, e) := add32 false (BitVec.ofNat 32 (leNat (s.peek (word p.2) 4))) v
        (((word p.2, r) : Nat × F32), h.or e)) (accs.zip t.cells)
      let s := xs.foldl (fun s p => s.poke p.1 (leBytes 4 p.2.toNat)) s
      let s := if (s.allSums c t key).isSome then s.dropSums c [key] else s
      some (s, c.raise f)

/-- MATMUL in whichever mode it asks for. -/
def State.matmul (s : State) (c : FrameCtx) (pkg : ModelPkg) (t : TileInstr) : TileEffect :=
  let fl := pkg.prog.subn
  let sram := pkg.prog.sram
  let preFrame := if t.split && !t.red then t.owner else c.frame
  if t.contIn && decide (c.accShape ≠ some (t.m, t.n, t.fc, t.fuse)) then none
  else if s.addrOk c.part sram c.frame t.a (operandLen t.fa t.m t.k) && s.addrOk c.part sram c.frame t.b (operandLen t.fb t.n t.k)
      && (decide (t.pre = 0) || t.contIn || s.addrOk c.part sram preFrame t.p t.preLen) then
    let (as, f) := s.opRows fl t.a t.fa t.m t.k
    let (bs, g) := s.opRows fl t.b t.fb t.n t.k
    let c := c.raise (f.or g)
    if t.red then s.matmulArrival fl c t as bs
    else if t.split then s.matmulOrdered fl sram c t as bs
    else s.matmulPlain fl sram c t as bs
  else none

/-- Clocks of a grid instruction, and of the vector and curve units (09 R215, R216). -/
def gridClocks (t : TileInstr) : Nat := pairClocks t.fa t.fb t.k + 64
def vectorClocks (t : TileInstr) : Nat := ceilDiv (t.m * t.n) 64

/-- MATMUL: M × N dot products of K terms, with preload and fused outputs. -/
def execMatmul (f : Fin 16) (s : State) : Ans := .next (s.runTile f TOp.matmul gridClocks State.matmul)

/-! ### XORPOP (08 R195) -/

/-- XOR-popcount of two rows of K bits, as FP32, exactly: n − 2p, or p. -/
def xorValue (sub k a b : Nat) : F32 × Flags :=
  let p := popcount k (a ^^^ b)
  if sub = 1 then roundF32 false false p 0
  else roundF32 false (decide (k < 2 * p)) (if k < 2 * p then 2 * p - k else k - 2 * p) 0

def State.xorpop (s : State) (c : FrameCtx) (pkg : ModelPkg) (t : TileInstr) : TileEffect :=
  let sram := pkg.prog.sram
  if s.addrOk c.part sram c.frame t.a (operandLen 6 t.m t.k) && s.addrOk c.part sram c.frame t.b (operandLen 6 t.n t.k) then
    let row (a i : Nat) : Nat := leNat (s.peek (a + i * rowStride 6 t.k) (rowLen 6 t.k)) % 2 ^ t.k
    let xs := (List.range t.m).map (fun i => (List.range t.n).map (fun j => (xorValue t.sub t.k (row t.a i) (row t.b j)).1))
    s.storeTile pkg.prog.subn sram c t xs
  else none

/-- XORPOP: XOR-popcounts of 1-bit rows. -/
def execXorpop (f : Fin 16) (s : State) : Ans := .next (s.runTile f TOp.xorpop gridClocks State.xorpop)

/-! ### The vector and curve units (09 R220, R221, R228) -/

/-- IMM as an FP32 operand, read under the subnormal mode (07 R188). -/
def TileInstr.immValue (fl : Bool) (t : TileInstr) : Flagged F32 := flushWord fl (BitVec.ofNat 32 t.imm)

/-- One element of EWISE. -/
def ewiseValue (fl : Bool) (t : TileInstr) (x y : Val) : Flagged F32 :=
  match t.sub with
  | 0 => addVal fl x y
  | 1 => addVal fl x (negVal y)
  | 2 => mulVal fl x y
  | 3 => divVal fl x y
  | 4 =>
    let (m, f) := maxStep (toF32 fl x).1 (toF32 fl y).1
    (m, ((toF32 fl x).2.or (toF32 fl y).2).or f)
  | 5 =>
    let (m, f) := minStep (toF32 fl x).1 (toF32 fl y).1
    (m, ((toF32 fl x).2.or (toF32 fl y).2).or f)
  | 6 =>
    let (i, f) := t.immValue fl
    let (v, g) := mulVal fl x (val32 i)
    (v, f.or g)
  | _ =>
    match x with
    | .nan _ => if t.fc = 3 ∨ t.fc = 5 then (nan32, Flags.none) else toF32 fl x
    | x => toF32 fl x

def State.ewise (s : State) (c : FrameCtx) (pkg : ModelPkg) (t : TileInstr) : TileEffect :=
  let fl := pkg.prog.subn
  let sram := pkg.prog.sram
  let two := decide (t.sub < 6)
  if s.addrOk c.part sram c.frame t.a (operandLen t.fa t.m t.n) && (!two || s.addrOk c.part sram c.frame t.b (operandLen t.fb t.m t.n)) then
    let (as, f) := s.opRows fl t.a t.fa t.m t.n
    let (bs, g) := if two then s.opRows fl t.b t.fb t.m t.n else (as, Flags.none)
    let (xs, h) := mapFlagged (fun p => mapFlagged (fun q => ewiseValue fl t q.1 q.2) (p.1.zip p.2)) (as.zip bs)
    s.storeTile fl sram (c.raise ((f.or g).or h)) t xs
  else none

/-- EWISE: elementwise on A and B, by SUB. -/
def execEwise (f : Fin 16) (s : State) : Ans := .next (s.runTile f TOp.ewise vectorClocks State.ewise)

/-- Apply a function of row number and value to the elements of A. -/
def State.mapTile (s : State) (c : FrameCtx) (pkg : ModelPkg) (t : TileInstr) (g : Nat → Nat → F32 → Flagged F32) : TileEffect :=
  let fl := pkg.prog.subn
  let sram := pkg.prog.sram
  if s.addrOk c.part sram c.frame t.a (operandLen t.fa t.m t.n) then
    let (as, f) := s.opRows fl t.a t.fa t.m t.n
    let (xs, h) := mapFlagged (fun (p : List Val × Nat) =>
      mapFlagged (fun (q : Val × Nat) =>
        let (v, k) := toF32 fl q.1
        let (y, h) := g p.2 q.2 v
        (y, k.or h)) p.1.zipIdx) as.zipIdx
    s.storeTile fl sram (c.raise (f.or h)) t xs
  else none

def State.curveTile (s : State) (c : FrameCtx) (pkg : ModelPkg) (t : TileInstr) : TileEffect :=
  match pkg.curves[t.curve]? with
  | some k => s.mapTile c pkg t (fun _ _ x => evalCurve pkg.prog.subn k x)
  | none => none

/-- CURVE: a curve table on each element. -/
def execCurve (f : Fin 16) (s : State) : Ans := .next (s.runTile f TOp.curve vectorClocks State.curveTile)

/-- A field of the row record of row i at P, read under the subnormal mode (07 R188; 09 R222). -/
def State.rowField (s : State) (fl : Bool) (t : TileInstr) (i off : Nat) : Flagged F32 :=
  flushWord fl (BitVec.ofNat 32 (leNat (s.peek (t.p + 32 * i + off) 4)))


/-- NORM of one element: x − mean is taken for layer norm only (09 R221). -/
def normValue (fl : Bool) (layer : Bool) (r mean gamma beta x : F32) : Flagged F32 :=
  let (d, f1) := if layer then sub32 fl x mean else (x, Flags.none)
  let (u, f2) := mul32 fl d r
  let (v, f3) := mul32 fl u gamma
  let (w, f4) := if layer then add32 fl v beta else (v, Flags.none)
  (w, ((f1.or f2).or f3).or f4)

/-- r = fl(1 ÷ fl(√ fl(v + ε))) for row i. -/
def State.normScale (s : State) (fl : Bool) (t : TileInstr) (i : Nat) : Flagged F32 :=
  let (v, f0) := if t.sub = 0 then s.rowField fl t i 16
    else
      let (q, f) := s.rowField fl t i 8
      let (v, g) := divVal fl (val32 q) (.fin false t.k 0)
      (v, f.or g)
  let (e, fe) := t.immValue fl
  let (a, f1) := add32 fl v e
  let (b, f2) := sqrt32 fl a
  let (r, f3) := div32 fl one32 b
  (r, (((f0.or fe).or f1).or f2).or f3)

def State.norm (s : State) (c : FrameCtx) (pkg : ModelPkg) (t : TileInstr) : TileEffect :=
  let fl := pkg.prog.subn
  let sram := pkg.prog.sram
  let layer := decide (t.sub = 0)
  if s.addrOk c.part sram c.frame t.p (32 * t.m) && s.addrOk c.part sram c.frame t.b (operandLen t.fb (if layer then 2 else 1) t.n) then
    let (gs, f) := s.opRow fl t.b t.fb t.n 0
    let (bs, g) := if layer then s.opRow fl t.b t.fb t.n 1 else ([], Flags.none)
    let one (l : List Val) (j : Nat) : Flagged F32 := toF32 fl (l.getD j (.fin false 0 0))
    s.mapTile (c.raise (f.or g)) pkg t (fun i j x =>
      let (r, h) := s.normScale fl t i
      let (mean, f1) := if layer then s.rowField fl t i 12 else (zero32, Flags.none)
      let (gamma, f2) := one gs j
      let (beta, f3) := one bs j
      let (y, k) := normValue fl layer r mean gamma beta x
      (y, (((h.or f1).or f2).or f3).or k))
  else none

/-- NORM: layer norm or RMS norm with row records. -/
def execNorm (f : Fin 16) (s : State) : Ans := .next (s.runTile f TOp.norm vectorClocks State.norm)

def State.softnorm (s : State) (c : FrameCtx) (pkg : ModelPkg) (t : TileInstr) : TileEffect :=
  let fl := pkg.prog.subn
  if s.addrOk c.part pkg.prog.sram c.frame t.p (32 * t.m) then
    s.mapTile c pkg t (fun i _ x =>
      let (m, f0) := s.rowField fl t i 0
      let (d, f1) := s.rowField fl t i 4
      let (e, f) := expTerm fl x m
      let (q, g) := div32 fl e d
      (q, ((f0.or f1).or f).or g))
  else none

/-- SOFTNORM: term(x, m) ÷ s by row. -/
def execSoftnorm (f : Fin 16) (s : State) : Ans := .next (s.runTile f TOp.softnorm vectorClocks State.softnorm)

/-! ### GATHER, ARGMAX, TOPK -/

/-- The sequence whose row is row i of a frame: rows follow the sequences dealt to it, by their tokens (log entry 27). -/
def rowOwner : List Seqn → Nat → Option Nat
  | [], _ => none
  | [q], _ => some q.entry
  | q :: qs, i => if i < q.tokens then some q.entry else rowOwner qs (i - q.tokens)

/-- Charge a fault to one sequence. -/
def State.chargeSeq (s : State) (entry status : Nat) : State :=
  { s with tensor := { s.tensor with
    seqs := mapWhere (fun q => decide (q.entry = entry)) (fun q => { q with fault := some (q.fault.getD status) }) s.tensor.seqs } }

def State.gatherTile (s : State) (c : FrameCtx) (pkg : ModelPkg) (t : TileInstr) : TileEffect :=
  let sram := pkg.prog.sram
  let stride := rowStride t.fb t.k
  if s.addrOk c.part sram c.frame t.a (4 * t.m) && s.addrOk c.part sram c.frame t.b (t.imm * stride) && s.addrOk c.part sram c.frame t.c (t.m * stride) then
    let ix (i : Nat) : Nat := leNat (s.peek (t.a + 4 * i) 4)
    let row (i : Nat) : Bytes := if ix i < t.imm then fit stride (s.peek (t.b + ix i * stride) (rowLen t.fb t.k)) else zeros stride
    let mine := (s.stepSeqs c.handle c.part).filter (fun q => c.seqs.contains q.entry)
    let bad := ((List.range t.m).filter (fun i => decide (t.imm ≤ ix i))).filterMap (rowOwner mine)
    let s := s.storeRows t.c stride ((List.range t.m).map row)
    some (bad.foldl (fun s e => s.chargeSeq e Status.programFault) s, c)
  else none

/-- GATHER: M rows of B chosen by indices; a bad index writes zeros and is charged to its sequence (11 R287). -/
def execGather (f : Fin 16) (s : State) : Ans :=
  .next (s.runTile f TOp.gather (fun t => ceilDiv (t.m * t.k) 64) State.gatherTile)

def State.argmaxTile (s : State) (c : FrameCtx) (pkg : ModelPkg) (t : TileInstr) : TileEffect :=
  let fl := pkg.prog.subn
  let sram := pkg.prog.sram
  if s.addrOk c.part sram c.frame t.a (operandLen t.fa t.m t.n) && s.addrOk c.part sram c.frame t.c (4 * t.m) then
    let (as, f) := s.opRows fl t.a t.fa t.m t.n
    let (rows, h) := mapFlagged (mapFlagged (toF32 fl)) as
    let pos := rows.map (fun l => (l.foldl rowArgValue RowRec.start).argPos)
    let g := rows.foldl (fun g l => g.or (maxList l).2) (f.or h)
    some (s.poke t.c ((pos.map (leBytes 4)).flatten), c.raise g)
  else none

/-- ARGMAX: the position of R208 for each row. -/
def execArgmax (f : Fin 16) (s : State) : Ans := .next (s.runTile f TOp.argmax vectorClocks State.argmaxTile)

/-- The best pairs in score order: score descending, ties by position, NaN dropped (09 R221). -/
def bestPairs (n : Nat) (ps : List (F32 × BitVec 64)) : List (F32 × BitVec 64) :=
  (sortBy (fun a b => !lt32 a.1 b.1) (ps.filter (fun p => !isNan p.1))).take n

def State.topkTile (s : State) (c : FrameCtx) (pkg : ModelPkg) (t : TileInstr) : TileEffect :=
  let sram := pkg.prog.sram
  if s.addrOk c.part sram c.frame t.a (4 * t.k) && s.addrOk c.part sram c.frame t.b (8 * t.k) && s.addrOk c.part sram c.frame t.c (16 * t.imm) then
    let (xs, f) := mapFlagged (fun i => flushWord pkg.prog.subn (BitVec.ofNat 32 (leNat (s.peek (t.a + 4 * i) 4)))) (List.range t.k)
    let ps := xs.zipIdx.map (fun x => (x.1, BitVec.ofNat 64 (leNat (s.peek (t.b + 8 * x.2) 8))))
    let c := c.raise f
    let best := bestPairs t.imm ps
    let out := (best.map (fun p => leBytes 8 p.2.toNat ++ leBytes 4 p.1.toNat ++ zeros 4)).flatten
      ++ (List.replicate (t.imm - best.length) (emptyEntry 16)).flatten
    some (s.poke t.c out, if t.sub = 1 then { c with tally := c.tally ++ best } else c)
  else none

/-- TOPK: the best IMM pairs; SUB 1 also hands them to the tally unit. -/
def execTopk (f : Fin 16) (s : State) : Ans := .next (s.runTile f TOp.topk (fun t => ceilDiv t.k 64) State.topkTile)

end Sys2Proof.Machine
end

