-- ==== Sys2Proof/Machine/Streams.lean ====
section
/-! DEFINITION. Streams (10 R250-R264): the traversal of a stream program, buffers and halves, tile arrivals, swaps and
re-arms, the host tier with its translations and page requests. -/
namespace Sys2Proof.Machine

/-! ### Address tiers (10 R238) -/

/-- The tier of an address that streams may reach: 0 SRAM, 1 partitionable HBM, 2 flash, 3 and 4 host. -/
def tierOf (a : Nat) : Option Nat :=
  if a < 0x18000000 then some 0
  else if hbmLo ≤ a ∧ a < hbmHi then some 1
  else if 0x0002000000000000 ≤ a ∧ a < flashAddr flashTiles then some 2
  else if 0x8000000000000000 ≤ a ∧ a < 0xC000000000000000 then some 3
  else if 0xC000000000000000 ≤ a ∧ a < 0x10000000000000000 then some 4
  else none

/-- The command of a sequence. -/
def State.seqCmd (s : State) (q : Seqn) : Option Cmd := s.cmd? q.cid

/-- The sequences dealt to a context, in join order. -/
def State.dealt (s : State) (c : FrameCtx) : List Seqn :=
  (s.stepSeqs c.handle c.part).filter (fun q => c.seqs.contains q.entry)

/-- Who asks for host memory: port, function and PASID of a job's queue (R260). -/
structure Requester where
  port : Port
  fn : Nat
  pasid : Option Nat
  deriving DecidableEq, Repr

def State.requester (s : State) (q : Seqn) : Option Requester := (s.seqCmd q).map (fun k => ⟨k.port, k.fn, k.pasid⟩)

/-- Where the output of a sequence goes, as entry, address and length: a RUN's output buffer (13 R339), else the place the
device gives the entry (log entry 21). -/
def State.outSpan (s : State) (pkg : ModelPkg) (q : Seqn) : Nat × Nat × Nat :=
  let inner := (q.entry, seqOutAddr q.entry, if q.batch.isSome then 4 * q.tokens else rowLen pkg.outFormat pkg.outDims)
  match s.seqCmd q with
  | some k => if k.opcode = Op.run then (q.entry, hostBase k.port + k.outAddr, k.outLen) else inner
  | none => inner

/-- The footprint of a context's write streams: its output buffers one after another (log entry 28). -/
def State.outSpans (s : State) (c : FrameCtx) (pkg : ModelPkg) : List (Nat × Nat × Nat) :=
  (s.dealt c).map (s.outSpan pkg)

/-- The span that holds an offset, with the offset in it. -/
def spanAt : List (Nat × Nat × Nat) → Nat → Option ((Nat × Nat × Nat) × Nat)
  | [], _ => none
  | p :: ps, o => if o < p.2.2 then some (p, o) else spanAt ps (o - p.2.2)

/-- Is the footprint of a read stream where the job may read: in one tier, inside the partition's quota and placements, and of
host memory on the port of every job of the step (R238, R251, R260; log entry 28)? -/
def State.footprintOk (s : State) (c : FrameCtx) (pkg : ModelPkg) (p : StreamProg) : Bool :=
  match tierOf p.fpBase with
  | some 0 => inSram pkg.prog.sram c.frame p.fpBase p.fpLength && !p.check
  | some 1 => s.hbmOk c.part p.fpBase p.fpLength
  | some 2 => s.tensor.placements.any (fun l => decide (l.part = c.part) && decide (l.base ≤ p.fpBase)
      && decide (p.fpBase + p.fpLength ≤ l.base + l.length))
  | some t => decide (tierOf (p.fpBase + p.fpLength - 1) = some t) && !p.check && !(s.dealt c).isEmpty
      && (s.dealt c).all (fun q => match s.requester q with | some r => decide (t = 3 + r.port.num) | none => false)
  | none => false

/-- Is a segment of a read stream inside its footprint? -/
def State.readSegOk (s : State) (c : FrameCtx) (pkg : ModelPkg) (p : StreamProg) (a : Int) : Bool :=
  let b := a.toNat
  decide (0 ≤ a) && decide (p.fpBase ≤ b) && decide (b + p.segBytes ≤ p.fpBase + p.fpLength) && s.footprintOk c pkg p

/-- The output buffer that a segment of a write stream goes to, with its offset there. -/
def State.segSpan (s : State) (c : FrameCtx) (pkg : ModelPkg) (p : StreamProg) (a : Int) : Option ((Nat × Nat × Nat) × Nat) :=
  if (p.fpBase : Int) ≤ a then spanAt (s.outSpans c pkg) (a - p.fpBase).toNat else none

/-- Is a segment of a write stream inside its footprint and one output buffer, in a tier mode that lets it be written (R247,
R251)? -/
def State.writeSegOk (s : State) (c : FrameCtx) (pkg : ModelPkg) (p : StreamProg) (a : Int) : Bool :=
  decide (a + p.segBytes ≤ p.fpBase + p.fpLength) && (match s.segSpan c pkg p a with
    | some (sp, k) => decide (k + p.segBytes ≤ sp.2.2)
        && (decide (s.obj 0x5000 4 = 0) || decide (tierOf sp.2.1 = some 0) || decide (tierOf sp.2.1 = some 1))
    | none => false)

/-- The device address that a segment reads or writes. -/
def State.segDest (s : State) (c : FrameCtx) (pkg : ModelPkg) (p : StreamProg) (a : Int) : Nat :=
  if p.write then
    match s.segSpan c pkg p a with
    | some (sp, k) => sp.2.1 + k
    | none => a.toNat
  else a.toNat

/-- The job a segment belongs to: that of its output buffer, or the first of the step for a read (log entry 28). -/
def State.segWho (s : State) (c : FrameCtx) (pkg : ModelPkg) (p : StreamProg) (a : Int) : Option Requester :=
  if p.write then
    match s.segSpan c pkg p a with
    | some (sp, _) => ((s.dealt c).find? (fun q => decide (q.entry = sp.1))).bind (fun q => s.requester q)
    | none => none
  else ((s.dealt c).head?).bind (fun q => s.requester q)

/-! ### Shadows (R245) -/

/-- The write-back placement whose device addresses hold a range. -/
def State.shadowAt (s : State) (a n : Nat) : Option Placement :=
  s.tensor.placements.find? (fun l => l.writeBack && decide (l.base ≤ a) && decide (a + n ≤ l.base + l.length))

/-- Does a segment go through a port? -/
def State.segHost (s : State) (c : FrameCtx) (pkg : ModelPkg) (p : StreamProg) (a : Int) : Bool :=
  let d := s.segDest c pkg p a
  (s.shadowAt d p.segBytes).isNone && (decide (tierOf d = some 3) || decide (tierOf d = some 4))

/-- The tiles of a placement that a range of its addresses touches, by their number in it. -/
def Placement.tilesOf (l : Placement) (a n : Nat) : List Nat :=
  let first := (a - l.base) / 4096
  (List.range ((a - l.base + n - 1) / 4096 + 1 - first)).map (fun k => first + k)

/-- First logical tile of a flash home. -/
def Placement.tile0 (l : Placement) : Nat := (l.base - 0x0002000000000000) / 4096

/-- The flash tiles that a read takes from the rods: of a shadow those not filled yet, of a home on flash all (R245). -/
def State.flashNeed (s : State) (a n : Nat) : List Nat :=
  match s.shadowAt a n with
  | some l => if l.home = 2 then ((l.tilesOf a n).filter (fun k => !l.filled.contains k)).map (fun k => l.tile0 + k) else []
  | none =>
    if tierOf a = some 2 then
      let t0 := (a - 0x0002000000000000) / 4096
      ((List.range (n / 4096 + 2)).map (fun k => t0 + k)).filter (fun t => decide (flashAddr t < a + n))
    else []

/-- Fill a tile of a shadow from its home at its first use (R245). -/
def State.fillShadow (id : Nat) (s : State) (k : Nat) : State :=
  match s.tensor.placements.find? (fun l => decide (l.id = id)) with
  | none => s
  | some l =>
    if l.filled.contains k then s
    else
      let bs := if l.home = 2 then fit 4096 (s.tileBytes (l.tile0 + k)) else s.peek (l.base + 4096 * k) 4096
      let s := s.poke (l.shadow + 4096 * k) bs
      { s with tensor := { s.tensor with
        placements := mapWhere (fun p => decide (p.id = id)) (fun p => { p with filled := p.filled ++ [k] }) s.tensor.placements } }

/-- The trailer expected of a flash tile that bears one: a tile of a compressed model copy (R263; 03 R55). -/
def State.packedExpect (s : State) (t : Nat) : Option Expect :=
  match s.tensor.placements.find? (fun l => decide (l.kind = 2) && decide (l.home = 2)
      && decide (l.tile0 ≤ t) && decide (t < l.tile0 + l.length / 4096)) with
  | some l => (s.tensor.models.find? (fun m => decide (m.placement = l.id))).map
      (fun m => ⟨t, 0xFF, TileFmt.packed, 1, 0xFFFFFFFF, m.pkg.version⟩)
  | none => none

/-- What a read of a range comes to: its bytes, a tile out of reach, or a tile that fails its check. -/
inductive TierRead where
  | bytes (b : Bytes)
  | lost
  | bad
  deriving DecidableEq, Repr

/-- The bytes of a range of flash. The rods check the tiles that bear a trailer (R263). -/
def State.flashRange (s : State) (a n : Nat) : TierRead :=
  let t0 := (a - 0x0002000000000000) / 4096
  let need := ((List.range (n / 4096 + 2)).map (fun k => t0 + k)).filter (fun t => decide (flashAddr t < a + n))
  if !need.all (fun t => s.tileIn t) then .lost
  else if need.all (fun t => match s.packedExpect t with | some e => tileOk (s.tileBytes t) e | none => true) then
    .bytes (slice ((need.map (fun t => fit 4096 (s.tileBytes t))).flatten) (a - flashAddr t0) n)
  else .bad

/-- Bytes of a range that needs no port: a write-back placement is served from its shadow (R245). -/
def State.readTier (s : State) (a n : Nat) : TierRead × State :=
  match s.shadowAt a n with
  | some l =>
    if (s.flashNeed a n).all (fun t => s.tileIn t) then
      let s := (l.tilesOf a n).foldl (State.fillShadow l.id) s
      (.bytes (s.peek (l.shadow + (a - l.base)) n), s)
    else (.lost, s)
  | none => if tierOf a = some 2 then (s.flashRange a n, s) else (.bytes (s.peek a n), s)

/-- Write a range: into the shadow of a write-back placement, whose tiles become dirty, else where it stands (R245, R246). -/
def State.writeTier (s : State) (a : Nat) (bs : Bytes) : State :=
  match s.shadowAt a bs.length with
  | some l =>
    let ks := l.tilesOf a bs.length
    let s := (ks.foldl (State.fillShadow l.id) s).poke (l.shadow + (a - l.base)) bs
    { s with tensor := { s.tensor with
      placements := mapWhere (fun p => decide (p.id = l.id)) (fun p => { p with dirty := p.dirty ++ ks.filter (fun k => !p.dirty.contains k) })
        s.tensor.placements } }
  | none => s.poke a bs

/-! ### Halves and the stream pool (R252) -/

def Stream.pool (x : Stream) (b : Bool) : List Nat := if b then x.poolB else x.poolA
def Stream.setPool (x : Stream) (b : Bool) (l : List Nat) : Stream := if b then { x with poolB := l } else { x with poolA := l }

/-- SRAM offset of tile k of a half. -/
def Stream.place (x : Stream) (b : Bool) (k : Nat) : Option Nat :=
  if k < x.prog.halfMin then
    some (x.prog.buffer + (if b then x.prog.halfMin * x.prog.tileBytes else 0) + k * x.prog.tileBytes)
  else (x.pool b)[k - x.prog.halfMin]?

/-- A pool tile for a stream: a free range of the partition's SRAM quota outside the footprint and the tiles granted. -/
def State.poolTile (s : State) (c : FrameCtx) (pkg : ModelPkg) (n : Nat) : Option Nat :=
  let used := ((c.streams.map (fun y => (y.poolA ++ y.poolB).map (fun o => (o, y.prog.tileBytes)))).flatten)
  allocRange used pkg.prog.sram (s.quotaSram c.part) 64 pkg.prog.sram n

/-- Grant pool tiles to a half of stream i, which stands as `x`, until it can hold n tiles or the pool is short. -/
def State.growPool (s : State) (c : FrameCtx) (pkg : ModelPkg) (i : Nat) (b : Bool) : Nat → Stream → Stream
  | 0, x => x
  | n + 1, x =>
    let x := State.growPool s c pkg i b n x
    if n < x.prog.halfMin + (x.pool b).length then x
    else
      match s.poolTile { c with streams := c.streams.set i x } pkg x.prog.tileBytes with
      | some o => x.setPool b (x.pool b ++ [o])
      | none => x

def FrameCtx.setStream (c : FrameCtx) (i : Nat) (x : Stream) : FrameCtx := { c with streams := c.streams.set i x }

/-- A stream armed at a base: a read stream fills half A first, a write stream's program half is A. -/
def StreamProg.arm (p : StreamProg) (base : Nat) : Stream where
  prog := p
  armed := true
  baseReg := base
  pc := 0
  addr := base
  dims := []
  ended := false
  emitAt := 0
  segs := 0
  flight := []
  tilesDone := 0
  tilesSwapped := 0
  engineB := p.write
  poolA := []
  poolB := []
  page := .none
  savePc := 0
  saveAddr := base
  saveDims := []
  saveEmit := 0
  saveSegs := 0

/-- Remember the present position as that of the first segment not swapped (11 R279). -/
def Stream.mark (x : Stream) : Stream :=
  { x with savePc := x.pc, saveAddr := x.addr, saveDims := x.dims, saveEmit := x.emitAt, saveSegs := x.segs }

/-! ### The stream program (R250, R251) -/

/-- Does the stream go on generating? Not while a segment waits for a translation or a page request (R261). -/
def Stream.moves (x : Stream) : Bool :=
  decide (x.page = .none) || (decide (x.page = .retranslating) && !x.flight.any (fun g => g.waiting))

/-- The stream of a context running on a frame, ready for its next instruction. -/
def State.atStream (s : State) (f i op : Nat) : Option (FrameCtx × ModelPkg × Stream × StreamInstr) :=
  match s.frameCtx f with
  | none => none
  | some c =>
    match s.model? c.handle, c.streams[i]? with
    | some m, some x =>
      match x.prog.code[x.pc]? with
      | some t => if s.up && s.unitIn (unitFrame f) && x.armed && !x.ended && x.moves && decide (t.op = op) then
          some (c, m.pkg, x, t) else none
      | none => none
    | _, _ => none

/-- Replace a stream after an instruction that only changes it. -/
def State.runStream (s : State) (f i op : Nat) (go : Stream → StreamInstr → Stream) : State :=
  match s.atStream f i op with
  | none => s
  | some (c, _, x, t) => s.setCtx (c.setStream i (go x t))

/-- BASE: addr = base register + value. -/
def execStreamBase (f : Fin 16) (i : Fin 16) (s : State) : Ans :=
  .next (s.runStream f i 0x01 (fun x t => { x with pc := x.pc + 1, addr := x.baseReg + t.value }))

/-- LOOP: opens dimension d. -/
def execStreamLoop (f : Fin 16) (i : Fin 16) (s : State) : Ans :=
  .next (s.runStream f i 0x02 (fun x t =>
    { x with pc := x.pc + 1, dims := (t.d, x.addr, 0, t.count, t.value, x.pc + 1) :: x.dims }))

/-- NEXT d: the next turn of the innermost loop, or its end. -/
def Stream.next (x : Stream) : Stream :=
  match x.dims with
  | [] => { x with pc := x.pc + 1 }
  | (d, start, n, count, stride, pc) :: rest =>
    if n + 1 < count then
      { x with addr := start + (n + 1 : Nat) * stride, pc := pc, dims := (d, start, n + 1, count, stride, pc) :: rest }
    else { x with addr := start, pc := x.pc + 1, dims := rest }

/-- NEXT advances or closes a dimension. -/
def execStreamNext (f : Fin 16) (i : Fin 16) (s : State) : Ans :=
  .next (s.runStream f i 0x03 (fun x _ => x.next))

/-- ADD: addr = addr + value. -/
def execStreamAdd (f : Fin 16) (i : Fin 16) (s : State) : Ans :=
  .next (s.runStream f i 0x05 (fun x t => { x with pc := x.pc + 1, addr := x.addr + t.value }))

/-- END: the traversal ends. -/
def execStreamEnd (f : Fin 16) (i : Fin 16) (s : State) : Ans :=
  .next (s.runStream f i 0x00 (fun x _ => { x with ended := true }))

/-- Has the tile of the next segment a place (R252)? A read stream's tile needs room in the engine half and stays within
fetch_ahead; a write stream's tile must have been handed to the engine. -/
def State.tileRoom (s : State) (c : FrameCtx) (pkg : ModelPkg) (i : Nat) (x : Stream) : Option Stream :=
  let t := x.segs / x.prog.tileSegs
  if x.prog.write then (if t < x.tilesSwapped then some x else none)
  else
    let k := t - x.tilesSwapped
    if x.segs % x.prog.tileSegs ≠ 0 then some x
    else if x.prog.halfTiles ≤ k ∨ x.prog.fetchAhead ≤ k - x.tilesDone then none
    else
      let y := s.growPool c pkg i x.engineB (k + 1) x
      if (y.place x.engineB k).isSome then some y else none

/-- A stream that has faulted moves nothing more. -/
def Stream.stop (x : Stream) : Stream := { x with ended := true, flight := [], page := .none }

/-- The tags of the segments of a stream that are given up: those toward chips until their replies or flash_reply_limit, those
toward a port until their completions (11 R281). -/
def State.strand (s : State) (c : FrameCtx) (i : Nat) (x : Stream) : State :=
  let lim := s.obj 0x2100 6
  let tags := (x.flight.map (fun g => g.asked.map (fun t =>
    (⟨0, c.frame, 0, 2 ^ 41 + i, 16, tileRod t, g.issued + lim⟩ : Tag)))).flatten
  let hosts := if x.prog.write then [] else (x.flight.filter (fun g => g.waiting)).map (fun g =>
    (⟨c.frame, i, 24 + g.addr / 0x4000000000000000 % 2, ceilDiv x.prog.segBytes 512⟩ : HostTag))
  { s with tags := s.tags ++ tags, tensor := { s.tensor with staleHost := s.tensor.staleHost ++ hosts } }

/-- Stop a stream of a context. -/
def State.stopStream (s : State) (c : FrameCtx) (i : Nat) (x : Stream) : State :=
  (s.strand c i x).setCtx (c.setStream i x.stop)

/-- The pages of a segment that the cache holds no translation of (R260). -/
def State.segPages (s : State) (c : FrameCtx) (pkg : ModelPkg) (p : StreamProg) (a : Int) : List Nat :=
  let d := s.segDest c pkg p a
  let pages := (List.range ((d + p.segBytes - 1) / 4096 + 1 - d / 4096)).map (fun k => d / 4096 + k)
  match s.segWho c pkg p a with
  | some r => pages.filter (fun g => !s.tensor.atc.contains ⟨r.port.num, r.fn, r.pasid, g, p.write⟩)
  | none => pages

/-- The next segment of a stream. -/
def State.nextSeg (s : State) (c : FrameCtx) (pkg : ModelPkg) (x : Stream) : SegXfer :=
  let a : Int := x.addr + (x.emitAt * x.prog.segBytes : Nat)
  let host := s.segHost c pkg x.prog a
  ⟨x.segs, a.toNat, x.segs / x.prog.tileSegs, s.now, host, if host then s.segPages c pkg x.prog a else [], [],
    if x.prog.write then [] else s.flashNeed a.toNat x.prog.segBytes, []⟩

/-- Generate the next segment of the EMIT at pc: checked against the footprint before any of its bytes moves. -/
def State.emit (s : State) (i count : Nat) (c : FrameCtx) (pkg : ModelPkg) (x : Stream) : State :=
  let a : Int := x.addr + (x.emitAt * x.prog.segBytes : Nat)
  let ok := if x.prog.write then s.writeSegOk c pkg x.prog a else s.readSegOk c pkg x.prog a
  if ok then
    let g := s.nextSeg c pkg x
    let last := decide (count ≤ x.emitAt + 1)
    let x' := { x with
      flight := x.flight ++ [g], segs := x.segs + 1, emitAt := if last then 0 else x.emitAt + 1
      pc := if last then x.pc + 1 else x.pc
      page := if g.waiting && decide (x.page = .none) then .translating else x.page }
    (if x.prog.segBytes < 256 then s.count 0x5100 3 1 else s).setCtx (c.setStream i x')
  else (s.chargeStep c.handle c.part Status.streamFootprint).stopStream c i x

/-! ### Whose segment is next (R255, R256; 02 R492) -/

/-- A segment that could be issued: its partition, its class (0 read, 1 write, 2 remote) and its bytes. A light one is shorter
than 256. -/
structure SegReady where
  part : Nat
  cls : Nat
  bytes : Nat
  deriving DecidableEq, Repr

def SegReady.light (r : SegReady) : Bool := decide (r.bytes < 256)

/-- Light segments of a frame that have not completed: its light queue holds 64 (R255). -/
def State.lightQueue (s : State) (f : Nat) : Nat :=
  sumBy (fun c => if c.frame = f then sumBy (fun x => if x.prog.segBytes < 256 then x.flight.length else 0) c.streams else 0)
    s.tensor.ctxs

/-- The segment that stream i of the context running on a frame could issue now: its tile has a place, its path free tags, and
the light queue room. -/
def State.segReady (s : State) (f i : Nat) : Option (FrameCtx × ModelPkg × Stream × StreamInstr × SegReady) :=
  match s.atStream f i 0x04 with
  | none => none
  | some (c, pkg, x, t) =>
    match s.tileRoom c pkg i x with
    | none => none
    | some x =>
      let g := s.nextSeg c pkg x
      let r : SegReady := ⟨c.part, if g.waiting then 2 else if x.prog.write then 1 else 0, x.prog.segBytes⟩
      if (r.light && decide (64 ≤ s.lightQueue f))
          || (segTags c.frame x.prog g).any (fun n => decide (s.pathTags n.1 < s.tagsBusy n.1 + n.2)) then none
      else some (c, pkg, x, t, r)

/-- The segments that could be issued. -/
def State.segsReady (s : State) : List SegReady :=
  ((List.range 16).map (fun f => (List.range 16).filterMap (fun i => (s.segReady f i).map (fun r => r.2.2.2.2)))).flatten

/-- The share of a class of a partition (R256). -/
def State.streamShare (s : State) (p k : Nat) : Nat := bits (s.obj 0x5101 0 p) (16 * k + 15) (16 * k)

/-- Deficit round-robin in bytes over the classes with something ready, `has` giving the bytes of the next segment of each: the
class served and its deficit. A turn adds 256 bytes for each unit of the share (DESIGN CHOICE, log entry 72). -/
def State.streamTurn (s : State) (p : Nat) (has : Nat → Option Nat) : Nat → Nat → List (Nat × Nat) → Nat × List (Nat × Nat)
  | 0, k, ds => (k, ds)
  | fuel + 1, k, ds =>
    let d := Sparse.count ds (3 * p + k)
    match has k with
    | some n => if n ≤ d then (k, ds) else
        let j := (((List.range 3).map (fun i => (k + 1 + i) % 3)).find? (fun j => (has j).isSome)).getD k
        State.streamTurn s p has fuel j (Sparse.bump ds (3 * p + j) (256 * max 1 (s.streamShare p j)))
    | none =>
      let j := (((List.range 3).map (fun i => (k + 1 + i) % 3)).find? (fun j => (has j).isSome)).getD k
      State.streamTurn s p has fuel j
        (Sparse.bump (Sparse.put (fun _ => 0) ds (3 * p + k) 0) (3 * p + j) (256 * max 1 (s.streamShare p j)))

/-- The stream engine's turn passes from a partition and class served. -/
def State.streamServed (s : State) (p k n : Nat) (aged : Bool) (ds : List (Nat × Nat)) : State :=
  { s with shares := { s.shares with
      streamPtr := if aged then s.shares.streamPtr else (p + 1) % 16
      streamWait := s.shares.streamWait.filter (fun e => decide (e.1 ≠ p))
      streamClass := Sparse.put (fun _ => 0) s.shares.streamClass p k
      streamDeficit := Sparse.put (fun _ => 0) ds (3 * p + k) (Sparse.count ds (3 * p + k) - n)
      bulkSince := s.shares.bulkSince + 1 } }

/-- The partitions with a bulk segment that could be issued (R256). -/
def bulkParts (rs : List SegReady) : List Nat :=
  (List.range 16).filter (fun p => rs.any (fun r => !r.light && decide (r.part = p)))
def State.emitReady (s : State) : List Nat := bulkParts s.segsReady

/-- May this segment be issued now? A light one goes ahead of bulk ones, one for every eight of them; a bulk one goes in its
partition's and its class's turn. Answers the state with the turn taken. -/
def State.takeTurn (s : State) (r : SegReady) : Option State :=
  let rs := s.segsReady
  let due := decide (8 ≤ s.shares.bulkSince)
  if r.light then
    if due || rs.all SegReady.light then some { s with shares := { s.shares with bulkSince := 0 } } else none
  else if due && rs.any SegReady.light then none
  else
    match nextTurn s.shares.streamPtr s.shares.streamWait s.now (bulkParts rs) with
    | none => none
    | some (p, aged) =>
      let has (k : Nat) : Option Nat :=
        (rs.find? (fun x => !x.light && decide (x.part = p) && decide (x.cls = k))).map (fun x => x.bytes)
      let (k, ds) := s.streamTurn p has 256 (Sparse.count s.shares.streamClass p) s.shares.streamDeficit
      if p = r.part ∧ k = r.cls then some (s.streamServed p k r.bytes aged ds) else none

/-- EMIT generates its next segment, checked against the footprint, in its turn of the stream engine. -/
def execStreamEmit (f : Fin 16) (i : Fin 16) (s : State) : Ans :=
  match s.segReady f i with
  | some (c, pkg, x, t, r) =>
    match s.takeTurn r with
    | some s => .next (s.emit i t.count c pkg x)
    | none => .next s
  | none => .next s

/-! ### Moving bytes -/

/-- Where a segment lies in its buffer. -/
def Stream.segPlace (x : Stream) (c : FrameCtx) (g : SegXfer) : Option Nat :=
  let k := if x.prog.write then g.tile - (x.tilesSwapped - (x.prog.halfMin + (x.pool x.engineB).length)) else g.tile - x.tilesSwapped
  (x.place x.engineB k).map (fun o => frameBase c.frame + o + g.ordinal % x.prog.tileSegs * x.prog.segBytes)

/-- Write a segment of a write stream to its output buffer, counting the bytes for its sequence. -/
def State.putSegment (s : State) (c : FrameCtx) (pkg : ModelPkg) (x : Stream) (g : SegXfer) : State :=
  match x.segPlace c g, spanAt (s.outSpans c pkg) (g.addr - x.prog.fpBase) with
  | some o, some (sp, k) =>
    let s := s.writeTier (sp.2.1 + k) (s.peek o x.prog.segBytes)
    { s with tensor := { s.tensor with
      seqs := mapWhere (fun q => decide (q.entry = sp.1)) (fun q => { q with outBytes := q.outBytes + x.prog.segBytes }) s.tensor.seqs } }
  | _, _ => s

/-- Does a segment of a CHECK stream pass (R263, R264)? -/
def State.segChecks (s : State) (pkg : ModelPkg) (p : StreamProg) (g : SegXfer) (bs : Bytes) : Bool :=
  let first := match (s.readTier p.fpBase 4096).1 with
    | .bytes b => fieldAt b 4068 8
    | _ => 0
  !p.check || tileOk bs ⟨first + (g.addr - p.fpBase) / 4096, 0xFF, TileFmt.tensor, 1, 0xFFFFFFFF, pkg.version⟩

/-- What delivering a tile's segments comes to. -/
inductive Delivery where
  | done (s : State)
  | uncorrectable
  | badCheck (g : SegXfer)

/-- Deliver the segments of a tile of a read stream into the engine half; those from a host have been moved already. -/
def State.deliverTile (c : FrameCtx) (pkg : ModelPkg) (x : Stream) : State → List SegXfer → Delivery
  | s, [] => .done s
  | s, g :: gs =>
    if s.segHost c pkg x.prog g.addr then State.deliverTile c pkg x s gs
    else
      match s.readTier g.addr x.prog.segBytes, x.segPlace c g with
      | (.lost, _), _ => .uncorrectable
      | (.bad, _), _ => .badCheck g
      | (.bytes bs, s), some o =>
        if s.segChecks pkg x.prog g bs then State.deliverTile c pkg x (s.poke o bs) gs else .badCheck g
      | (.bytes _, s), none => State.deliverTile c pkg x s gs

/-! ### Swaps and re-arms (R253, R254, R259) -/

/-- Exchange the halves of stream i. The pool tiles of a half go back to the pool once their data is used: a read stream's at the
swap that returns it to the engine, a write stream's when the engine has drained it (DEDUCED, log entry 72). -/
def State.swap (s : State) (c : FrameCtx) (pkg : ModelPkg) (i : Nat) (x : Stream) : Stream :=
  if x.prog.write then
    let handed := x.prog.halfMin + (x.pool !x.engineB).length
    let y := { x with tilesSwapped := x.tilesSwapped + handed, engineB := !x.engineB }.setPool x.engineB []
    s.growPool c pkg i (!y.engineB) y.prog.halfTiles y
  else
    ({ x with tilesSwapped := x.tilesSwapped + x.tilesDone, tilesDone := 0, engineB := !x.engineB }.setPool (!x.engineB) []).mark

/-- The tile a stream completes next. -/
def Stream.dueTile (x : Stream) : Nat := if x.prog.write then x.tilesDone else x.tilesSwapped + x.tilesDone

/-- The cause under which a segment outstanding is late, from 0 (R259). -/
def State.segCause (s : State) (c : FrameCtx) (pkg : ModelPkg) (x : Stream) (g : SegXfer) : Nat :=
  if s.segHost c pkg x.prog g.addr then
    match x.page with
    | .asked .. => 2
    | .answered _ => 2
    | .retranslating => 2
    | _ => 1
  else if x.prog.write then 3
  else if !(s.flashNeed g.addr x.prog.segBytes).isEmpty then 0
  else
    match s.shadowAt g.addr x.prog.segBytes with
    | some l => if (l.tilesOf g.addr x.prog.segBytes).all (fun k => l.filled.contains k) then 3 else 1
    | none => 3

/-- The cause under which the tile outstanding is counted: the lowest of its segments', the next segment when none is in flight. -/
def State.lateCause (s : State) (c : FrameCtx) (pkg : ModelPkg) (x : Stream) : Nat :=
  let gs := x.flight.filter (fun g => decide (g.tile = x.dueTile))
  ((if gs.isEmpty then [s.nextSeg c pkg x] else gs).map (s.segCause c pkg x)).foldl min 3

/-- Count a stall of a partition, or its clocks. -/
def State.stall (s : State) (p ix n : Nat) : State :=
  let l := Sparse.get (fun _ => List.replicate 5 0) s.tensor.stalls p
  { s with tensor := { s.tensor with
    stalls := Sparse.put (fun _ => List.replicate 5 0) s.tensor.stalls p (l.set ix (l.getD ix 0 + n)) } }

/-- A context swaps the halves of stream i, or goes on waiting. -/
def State.trySwap (s : State) (c : FrameCtx) (pkg : ModelPkg) (t : TileInstr) (i : Nat) : State :=
  match c.streams[i]? with
  | none => (s.chargeStep c.handle c.part Status.programFault).stepOn c t 0
  | some x =>
    if x.canSwap then s.stepOn (c.setStream i (s.swap c pkg i x)) t 0
    else if c.wait = .swap i then s
    else (s.setCtx { c with wait := .swap i, atSave := false }).stall c.part (s.lateCause c pkg x) 1

/-- A context re-arms stream i at base A, or goes on waiting. -/
def State.tryReArm (s : State) (c : FrameCtx) (pkg : ModelPkg) (t : TileInstr) (i : Nat) : State :=
  match c.streams[i]? with
  | none => (s.chargeStep c.handle c.part Status.programFault).stepOn c t 0
  | some x =>
    if !x.prog.persistent then (s.chargeStep c.handle c.part Status.programFault).stepOn c t 0
    else if x.canReArm then
      let y := x.prog.arm t.a
      s.stepOn (c.setStream i (if y.prog.write then s.growPool c pkg i false y.prog.halfTiles y else y)) t 0
    else if c.wait = .reArm i then s
    else s.setCtx { c with wait := .reArm i, atSave := false }

/-- STREAM with SUB 0: the halves of stream IMM exchange once the engine half is filled or drained. -/
def execStreamSwap (f : Fin 16) (s : State) : Ans :=
  match s.atInstr f TOp.stream with
  | some (c, pkg, t) =>
    if t.sub = 0 && (decide (c.wait = .none) || decide (c.wait = .swap t.imm)) then .next (s.trySwap c pkg t t.imm) else .next s
  | none => .next s

/-- STREAM with SUB 1: a persistent stream begins again at base A once its traversal has ended and drained. -/
def execStreamReArm (f : Fin 16) (s : State) : Ans :=
  match s.atInstr f TOp.stream with
  | some (c, pkg, t) =>
    if t.sub = 1 && (decide (c.wait = .none) || decide (c.wait = .reArm t.imm)) then .next (s.tryReArm c pkg t t.imm) else .next s
  | none => .next s

/-- A wait at a STREAM instruction ends when its condition has come. -/
def State.wake (s : State) (f : Nat) : State :=
  match s.atInstr f TOp.stream with
  | some (c, pkg, t) =>
    match c.wait with
    | .swap i => s.trySwap c pkg t i
    | .reArm i => s.tryReArm c pkg t i
    | _ => s
  | none => s

/-! ### Tile arrivals (R252, R253, R263) -/

/-- A tile of a read stream: the segments in flight of the next tile to complete, once it is all requested. -/
def Stream.nextTile (x : Stream) : Option (List SegXfer) :=
  let t := x.dueTile
  let gs := x.flight.filter (fun g => decide (g.tile = t))
  if !gs.isEmpty && (x.ended || decide ((t + 1) * x.prog.tileSegs ≤ x.segs)) && gs.all (fun g => !g.waiting && g.todo.isEmpty) then
    some gs
  else none

/-- The tile has completed. -/
def Stream.tileDone (x : Stream) : Stream :=
  { x with tilesDone := x.tilesDone + 1, flight := x.flight.filter (fun g => decide (g.tile ≠ x.dueTile)) }

/-- A tile fails its check: its jobs restart; of a resident copy the block is reloaded, or the model is faulted (18 R453, R466). -/
def State.badTensor (s : State) (c : FrameCtx) (i : Nat) (x : Stream) (g : SegXfer) : State :=
  let s := s.stopStream c i x
  match s.model? c.handle with
  | none => s
  | some m =>
    if m.state = .faulted then s.chargeStep c.handle c.part Status.modelUnavailable
    else
      let blocks := (decodeBlocks m.packed.length m.packed).getD []
      let s := if m.hbmBase ≤ g.addr ∧ g.addr < m.hbmBase + m.bytes then s.modModel m.handle (fun m => { m with
          reloading := (m.reloading ++ [blockOf blocks ((g.addr - m.hbmBase) / 4096)]).eraseDups })
        else s
      (((s.dealt c).map (fun q => q.cid)).eraseDups).foldl (fun s cid => s.checkFault cid) s

/-- Is a segment behind a block that is being reloaded? -/
def Model.behindReload (m : Model) (g : SegXfer) : Bool :=
  !m.reloading.isEmpty && m.reloading.contains (blockOf ((decodeBlocks m.packed.length m.packed).getD []) ((g.addr - m.hbmBase) / 4096))

/-- A stream tile completes in the engine half, or the tier it is written to; a swap that waits for it then ends. -/
def execStreamTileArrival (f : Fin 16) (i : Fin 16) (s : State) : Ans :=
  match s.frameCtx f with
  | none => .next s
  | some c =>
    match s.model? c.handle, c.streams[i.val]? with
    | some m, some x =>
      match x.nextTile with
      | none => .next s
      | some gs =>
        if x.prog.write then
          let s := (gs.filter (fun g => !s.segHost c m.pkg x.prog g.addr)).foldl (fun s g => s.putSegment c m.pkg x g) s
          .next ((s.setCtx (c.setStream i x.tileDone)).wake f)
        else if x.prog.check && gs.any m.behindReload then .next s
        else if gs.any (fun g => !s.rodsRead g.asked (if g.asked.isEmpty then 0 else g.issued + s.obj 0x2100 6)) then .next s
        else
          match State.deliverTile c m.pkg x s gs with
          | .done s => .next ((s.setCtx (c.setStream i x.tileDone)).wake f)
          | .uncorrectable =>
            .next (((s.chargeStep c.handle c.part Status.mediaUncorrectable).stopStream c i x).wake f)
          | .badCheck g => .next ((s.badTensor c i x g).wake f)
    | _, _ => .next s

/-! ### The host tier (R260-R262) -/

/-- A page request fails: its jobs end with PAGE_REQUEST_FAILED and are not restarted; the other streams go on. -/
def State.pageFail (s : State) (c : FrameCtx) (i : Nat) (x : Stream) : State :=
  ((s.chargeStep c.handle c.part Status.pageRequestFailed).stopStream c i x).wake c.frame

/-- The stream of the context running on a frame that has a page request or a translation outstanding. -/
def State.pageStream (s : State) (f i : Nat) : Option (FrameCtx × Stream) :=
  match s.frameCtx f with
  | none => none
  | some c => (c.streams[i]?).map (fun x => (c, x))

/-- Has a stream a page request group outstanding? -/
def Stream.hasGroup (x : Stream) : Bool :=
  match x.page with
  | .asked .. => true
  | _ => false

/-- The context of a frame whose stream i has a page request group outstanding: the one running, else one that is saved. -/
def State.groupStream (s : State) (f i : Nat) : Option (FrameCtx × Stream) :=
  match (s.pageStream f i).filter (fun p => p.2.hasGroup) with
  | some p => some p
  | none =>
    ((s.tensor.ctxs.filter (fun c => decide (c.frame = f) && c.saved)).filterMap (fun c => (c.streams[i]?).map (fun x => (c, x)))).find?
      (fun p => p.2.hasGroup)

/-- After Success a segment that waits is translated again, for the pages that had no access; with none waiting the next one is
(R261). -/
def Stream.retry (x : Stream) : Stream :=
  { x with
    page := .retranslating
    flight := mapWhere (fun g => g.waiting) (fun g => { g with pages := g.refused, refused := [] }) x.flight }

/-- The effect of a response on a context that is not saved. -/
def State.applyPrg (s : State) (c : FrameCtx) (i : Nat) (x : Stream) (code : PrgCode) : State :=
  match code with
  | .success => s.setCtx (c.setStream i x.retry)
  | _ => s.pageFail c i x

/-- A function to which a Response Failure came sends no more page requests until it is reset. -/
def State.blockPri (s : State) (c : FrameCtx) : State :=
  match ((s.dealt c).head?).bind (fun q => s.requester q) with
  | some r => s.modPort r.port (fun q => { q with priBlocked := (q.priBlocked ++ [r.fn]).eraseDups })
  | none => s

/-- A response to the page request group of a stream. While the context is saved it is kept, and applied at the restore. -/
def State.streamPrg (s : State) (f i : Nat) (code : PrgCode) : State :=
  match s.groupStream f i with
  | none => s
  | some (c, x) =>
    let s := if code = .failure then s.blockPri c else s
    if c.saved then s.setCtx (c.setStream i { x with page := .answered code }) else s.applyPrg c i x code

/-- The page request group of a stream has had no response within page_request_timeout. -/
def State.streamPageTimeout (s : State) (f i : Nat) : State :=
  match s.pageStream f i with
  | some (c, x) =>
    match x.page with
    | .asked t _ _ => if t + s.obj 0x5100 6 ≤ s.now then s.pageFail c i x else s
    | _ => s
  | none => s

/-! ### Buffers of commands (12 R295)

A command's buffers are translated as they are reached; an access that is granted moves with its translation. A refused one
leaves the command waiting, under the same sequence as a stream's. -/

/-- A refusal of the buffers of a command that runs: the command waits, or ends with PAGE_REQUEST_FAILED and is not restarted. -/
def State.bufferFail (s : State) (cid : Nat) : State :=
  ((s.modCmd cid (fun c => { c with page := .none })).failJob cid Status.pageRequestFailed)

/-- The pages of the buffer a command reaches: its input until that has been read, then its output. -/
def Cmd.bufferPages (c : Cmd) : List Nat :=
  let span (a n : Nat) : List Nat := (List.range ((a % 4096 + n + 4095) / 4096)).map (fun i => (hostBase c.port + a) / 4096 + i)
  if c.stage = .fetched && opIn c.opcode then span c.inAddr c.inLen else span c.outAddr c.outLen

/-- Pages of page request groups outstanding for a function: at most 512 (12 R289). -/
def State.priOpen (s : State) (p : Port) (fn : Nat) : Nat :=
  let pages (q : PageReq) : Nat := match q with
    | .asked _ ps _ => ps.length
    | _ => 0
  sumBy (fun c => if c.port = p ∧ c.fn = fn then pages c.page else 0) s.cmds
    + sumBy (fun c => match ((s.dealt c).head?).bind (fun q => s.requester q) with
      | some r => if r.port = p ∧ r.fn = fn then sumBy (fun x => pages x.page) c.streams else 0
      | none => 0) s.tensor.ctxs
def priCapacity : Nat := 512

/-- May a function send a page request group of n pages? -/
def State.priRoom (s : State) (p : Port) (fn n : Nat) : Bool := decide (s.priOpen p fn + n ≤ priCapacity)

/-- A response to the page request group of a command's buffer. -/
def State.bufferPrg (s : State) (cid : Nat) (code : PrgCode) : State :=
  match s.cmd? cid with
  | none => s
  | some c =>
    match c.page with
    | .asked .. =>
      (match code with
        | .success => s.modCmd cid (fun c => { c with page := .retranslating })
        | .invalid => s.bufferFail cid
        | .failure => (s.modPort c.port (fun q => { q with priBlocked := (q.priBlocked ++ [c.fn]).eraseDups })).bufferFail cid)
    | _ => s

/-- The page request group of a command's buffer has had no response within page_request_timeout. -/
def State.bufferPageTimeout (s : State) (cid : Nat) : State :=
  match s.cmd? cid with
  | some c =>
    match c.page with
    | .asked t _ _ => if t + s.obj 0x5100 6 ≤ s.now then s.bufferFail cid else s
    | _ => s
  | none => s

/-- A translation for a command's buffer completes. -/
def State.bufferTranslated (s : State) (cid : Nat) (granted : Bool) : State :=
  match s.cmd? cid with
  | none => s
  | some c =>
    let out := !(c.stage = .fetched && opIn c.opcode)
    let cached (n : Nat) : Bool := s.tensor.atc.any (fun e => decide (e = (⟨c.port.num, c.fn, c.pasid, n, out⟩ : AtcEntry)))
    let lacking := c.bufferPages.filter (fun n => !cached n)
    match c.page with
    | .asked .. => s
    | page =>
      if granted then
        let s := { s with tensor := { s.tensor with
          atc := (s.tensor.atc ++ lacking.map (fun n => (⟨c.port.num, c.fn, c.pasid, n, out⟩ : AtcEntry))).eraseDups } }
        s.modCmd cid (fun c => { c with page := .none })
      else if lacking.isEmpty then s
      else if page = .retranslating ∨ (s.port c.port).priBlocked.contains c.fn = true then s.bufferFail cid
      else if !s.priRoom c.port c.fn lacking.length then s.modCmd cid (fun c => { c with page := .translating })
      else (s.modCmd cid (fun c => { c with page := .asked s.now lacking c.pasid })).count 0x5100 4 1

/-- A response to a page request group (R261). -/
def execPrgResponse (u : PageUser) (i : Fin 16) (code : PrgCode) (s : State) : Ans :=
  match u with
  | .frame f => .next (s.streamPrg f i code)
  | .buffer cid => .next (s.bufferPrg cid code)

/-- A page request unanswered within page_request_timeout. -/
def execPageRequestTimeout (u : PageUser) (i : Fin 16) (s : State) : Ans :=
  match u with
  | .frame f => .next (s.streamPageTimeout f i)
  | .buffer cid => .next (s.bufferPageTimeout cid)

/-- AER logs an uncorrectable error: its status bit, and the logs of the first (PRESUMED, log entry 77). -/
def PortState.logAer (x : PortState) (how : ReadError) : PortState :=
  let b : BitVec 32 := match how with
    | .unsupported => 1#32 <<< 20
    | .abort => 1#32 <<< 15
    | .poisoned => 1#32 <<< 12
    | .timeout => 1#32 <<< 14
  { x with
    aerUncorrectable := x.aerUncorrectable + 1
    aerStatus := x.aerStatus ||| b
    aerHeader := if x.aerStatus = 0 then Config.aerHeader x.aerUncorrectable else x.aerHeader
    aerPrefix := if x.aerStatus = 0 then Config.aerPrefix x.aerUncorrectable else x.aerPrefix }

/-- The stream of a command's step that waits for host memory, in frame order. -/
def State.hostReader (s : State) (cid : Nat) : Option (FrameCtx × Nat × Stream) :=
  ((s.tensor.ctxs.filter (fun c => !c.saved && (s.dealt c).any (fun q => decide (q.cid = cid)))).map (fun c =>
    (c.streams.zipIdx.filter (fun x => !x.1.prog.write && x.1.flight.any (fun g => g.waiting))).map (fun x => (c, x.2, x.1)))).flatten.head?

/-- BUFFER_READ_ERROR: a read of an input buffer, or of the host tier by a stream, fails: the command ends with ACCESS_DENIED
and is not restarted (R310). -/
def execBufferReadError (r : FailedRead) (s : State) : Ans :=
  match s.cmd? r.cid with
  | none => .next s
  | some c =>
    if c.stage = .fetched && opIn c.opcode && decide (c.inLen ≠ 0) then
      .next (((s.modPort c.port (fun p => p.logAer r.how)).dropSeqs r.cid (fun _ => true)).fail r.cid Status.accessDenied)
    else
      match s.hostReader r.cid with
      | some (d, i, x) =>
        .next ((((s.modPort c.port (fun p => p.logAer r.how)).chargeStep d.handle d.part Status.accessDenied).stopStream d i x).wake d.frame)
      | none => .next s

/-- The waiting segment moves: into the engine half, or out to the host. -/
def State.moveHost (s : State) (c : FrameCtx) (pkg : ModelPkg) (x : Stream) (g : SegXfer) (data : Bytes) : State :=
  if x.prog.write then s.putSegment c pkg x g
  else
    match x.segPlace c g with
    | some o => s.poke o (fit x.prog.segBytes data)
    | none => s

/-- A waiting segment after the answer for its first page: the pages left, and those refused. -/
def SegXfer.answer (g : SegXfer) (page : Nat) (granted : Bool) : SegXfer :=
  { g with pages := g.pages.drop 1, refused := if granted then g.refused else g.refused ++ [page] }

/-- Change the waiting segment of a stream. -/
def Stream.setWaiting (x : Stream) (f : SegXfer → SegXfer) : Stream := { x with flight := mapWhere (fun g => g.waiting) f x.flight }

/-- Keep a translation. -/
def State.addAtc (s : State) (e : AtcEntry) : State :=
  { s with tensor := { s.tensor with atc := (s.tensor.atc ++ [e]).eraseDups } }

/-- The translation of the first page of a waiting segment completes. When every page has been answered the segment moves with the
bytes the host gives; or a page request group is sent for the pages without access; or the jobs fail, after a second refusal or
where the function may send none (R260, R261). -/
def State.translated (s : State) (c : FrameCtx) (i : Nat) (pkg : ModelPkg) (x : Stream) (g : SegXfer) (r : Requester)
    (granted : Bool) (data : Bytes) : State :=
  let page := g.pages.headD (s.segDest c pkg x.prog g.addr / 4096)
  let h := g.answer page granted
  let s := if granted then s.addAtc ⟨r.port.num, r.fn, r.pasid, page, x.prog.write⟩ else s
  if !h.pages.isEmpty then s.setCtx (c.setStream i (x.setWaiting (fun _ => h)))
  else if h.refused.isEmpty then
    (s.moveHost c pkg x g data).setCtx (c.setStream i { x.setWaiting (fun _ => { h with waiting := false }) with page := .none })
  else if x.page = .retranslating ∨ (s.port r.port).priBlocked.contains r.fn = true then s.pageFail c i x
  else if !s.priRoom r.port r.fn h.refused.length then
    s.setCtx (c.setStream i (x.setWaiting (fun _ => { h with pages := h.refused, refused := [] })))
  else (s.setCtx (c.setStream i { x.setWaiting (fun _ => h) with page := .asked s.now h.refused r.pasid })).count 0x5100 4 1

/-- A completion of a segment given up is discarded and counted (11 R281). -/
def State.staleHostReply (s : State) (f i : Nat) : State :=
  match s.tensor.staleHost.find? (fun h => decide (h.frame = f) && decide (h.stream = i)) with
  | some h => { s with tensor := { s.tensor with staleHost := s.tensor.staleHost.erase h } }.count 0x2100 9 1
  | none => s

/-- A translation completes for the segment of a stream that waits; with none waiting it belongs to one given up. -/
def State.streamTranslated (s : State) (f i : Nat) (granted : Bool) (data : Bytes) : State :=
  match s.pageStream f i with
  | none => s.staleHostReply f i
  | some (c, x) =>
    match s.model? c.handle, x.flight.find? (fun g => g.waiting) with
    | some m, some g =>
      match s.segWho c m.pkg x.prog g.addr with
      | some r => if x.page = .translating ∨ x.page = .retranslating then s.translated c i m.pkg x g r granted data else s
      | none => s
    | _, _ => s.staleHostReply f i

/-- ATS_TRANSLATION_COMPLETION: access is granted and the data moves, or it is not (R260, R261). -/
def execAtsTranslationCompletion (u : PageUser) (i : Fin 16) (granted : Bool) (data : Bytes) (s : State) : Ans :=
  match u with
  | .frame f => .next (s.streamTranslated f i granted data)
  | .buffer cid => .next (s.bufferTranslated cid granted)

/-- An ATS invalidation completes once the segments that use the covered entries have completed: a translated segment moves
with its translation, so none is left. -/
def execAtsInvalidation (p : Port) (fn : Fin 64) (addr : Nat) (len : Nat) (s : State) : Ans :=
  if s.up && !(s.port p).inReset then
    let a := hostBase p + addr
    let covered (e : AtcEntry) : Bool := decide (e.port = p.num) && decide (e.fn = fn)
      && decide (a / 4096 ≤ e.page) && decide (4096 * e.page < a + len)
    .next ({ s with tensor := { s.tensor with atc := s.tensor.atc.filter (fun e => !covered e) } }.count 0x5100 7 1)
  else .next s

end Sys2Proof.Machine
end

