-- ==== Sys2Proof/Machine/Steps.lean ====
section
/-! DEFINITION. Steps (09 R226, R233-R236) and the sharing of frames (11 R275-R287): arbitration, ROTATE, SYNC, END, step
boundaries, saves and restores. -/
namespace Sys2Proof.Machine

/-! ### The start of a step -/

/-- Set what runs on a frame. -/
def State.setRunning (s : State) (f : Nat) (r : Option (Nat × Nat)) : State :=
  { s with tensor := { s.tensor with running := s.tensor.running.set f r } }

/-- Take a save slot on every frame of a step (11 R278). -/
def State.takeSlots (s : State) (h p : Nat) : State :=
  { s with tensor := { s.tensor with
    ctxs := mapWhere (fun c => decide (c.handle = h) && decide (c.part = p) && decide (c.slot = 0))
      (fun c => { c with slot := ((List.range 32).find? (fun k => !(s.slotsUsed c.frame).contains (k + 1))).getD 0 + 1 })
      s.tensor.ctxs } }

/-- Write streams get pool tiles for their program half. -/
def State.growWrites (s : State) (c : FrameCtx) (pkg : ModelPkg) : FrameCtx :=
  c.streams.zipIdx.foldl (fun c p =>
    if p.1.prog.write then c.setStream p.2 (s.growPool c pkg p.2 (!p.1.engineB) p.1.prog.halfTiles p.1) else c) c

/-- Start a step's part on its frame. -/
def State.startCtx (s : State) (c : FrameCtx) : State :=
  let s := if c.slot = 0 then s.takeSlots c.handle c.part else s
  match s.tensor.ctxs.find? (fun x => decide (x.handle = c.handle) && decide (x.part = c.part) && decide (x.frame = c.frame)),
    s.model? c.handle with
  | some x, some m =>
    ((s.setCtx (s.growWrites { x with started := true, runSince := s.now } m.pkg)).setRunning c.frame (some (c.handle, c.part)))
  | _, _ => s

/-- An idle frame starts the step it chooses; a saved context is left to its RESTORE. -/
def State.fillFrame (s : State) (f : Nat) : State :=
  let s := s.noteReady
  if decide (s.tensor.running.getD f none = none) && s.unitIn (unitFrame f) && s.up then
    match s.choose f with
    | some c => if c.started then s else s.startCtx c
    | none => s
  else s

/-! ### ROTATE, SYNC, END (09 R220, R233) -/

/-- Send the bytes, and the receiver's range is taken. -/
def State.rotate (s : State) (c : FrameCtx) (pkg : ModelPkg) (t : TileInstr) (g : Nat) : State :=
  if s.addrOk c.part pkg.prog.sram c.frame t.a t.k && inSram pkg.prog.sram g t.c t.k then
    let s := s.poke t.c (s.peek t.a t.k)
    let s := match (s.stepCtxs c.handle c.part).find? (fun x => decide (x.frame = g) && decide (g ≠ c.frame)) with
      | some r => s.setCtx { r with rotateFree := false }
      | none => s
    s.stepOn c t (ceilDiv t.k 256)
  else (s.chargeStep c.handle c.part Status.programFault).stepOn c t 0

/-- ROTATE: K bytes go to the next frame of the ring once it has freed the range. -/
def execRotate (f : Fin 16) (s : State) : Ans :=
  match s.atInstr f TOp.rotate with
  | some (c, pkg, t) =>
    if c.wait = .none ∨ c.wait = .rotate then
      let g := s.nextFrame c.part c.frame
      if s.rotateReady c g then .next (s.rotate c pkg t g)
      else .next (s.setCtx { c with wait := .rotate, atSave := false })
    else .next s
  | none => .next s

/-- Release the frames of a step that have all reached the same SYNC. -/
def State.passSync (s : State) (h p imm : Nat) (code : List TileInstr) : State :=
  let cs := (s.stepCtxs h p).filter (fun c => decide (c.wait ≠ .ended))
  if cs.all (fun c => decide (c.wait = .sync imm)) then
    cs.foldl (fun s c => match code[c.pc]? with
      | some t => s.stepOn c t 0
      | none => s) s
  else s

/-- SYNC: wait until every frame running the step has reached it. -/
def execSync (f : Fin 16) (s : State) : Ans :=
  match s.atInstr f TOp.sync with
  | some (c, pkg, t) =>
    if c.wait = .none then
      .next ((s.setCtx { c with wait := .sync t.imm, atSave := false, rotateFree := true }).passSync c.handle c.part t.imm pkg.prog.code)
    else .next s
  | none => .next s

/-- A step's grant is released when every frame of it has reached END or been saved (16 R410). -/
def State.releaseStep (s : State) (h p : Nat) : State :=
  if (s.stepCtxs h p).all (fun x => decide (x.wait = .ended) || x.saved) then
    match s.grantOf (.frameStep h p) with
    | some g => s.endGrant g.gid
    | none => s
  else s

/-- The step has ended on a frame: its slot is free, and the frame chooses again. -/
def State.endFrame (s : State) (c : FrameCtx) : State :=
  (((s.setCtx { c with wait := .ended, slot := 0, atSave := false, streams := [] }).setRunning c.frame none).releaseStep
    c.handle c.part).fillFrame c.frame

/-- END, or the end of the program, ends the step on this frame. -/
def execEndStep (f : Fin 16) (s : State) : Ans :=
  match s.frameCtx f with
  | none => .next s
  | some c =>
    match s.model? c.handle with
    | none => .next s
    | some m =>
      let here := match m.pkg.prog.code[c.pc]? with
        | some t => decide (t.op = TOp.end_)
        | none => true
      if s.up && here && decide (c.wait = .none) then
        .next ((s.count 0x5800 3 1).endFrame c)
      else .next s

/-! ### Step boundaries (09 R235, R236; 11 R287) -/

/-- The flags of the frame that ran a sequence. -/
def State.seqFlags (s : State) (q : Seqn) : Flags :=
  (s.stepCtxs q.handle q.part).foldl (fun f c => if c.seqs.contains q.entry then f.or c.flags else f) Flags.none

/-- The pairs its frame handed to the tally unit. -/
def State.seqTally (s : State) (q : Seqn) : List (F32 × BitVec 64) :=
  ((s.stepCtxs q.handle q.part).map (fun c => if c.seqs.contains q.entry then c.tally else [])).flatten

/-- Scores of a rescoring batch: the pairs that TOPK handed to the tally unit are the command's candidates where it handed any of
this batch, and the others of the batch are left unscored; else one FP32 per candidate from the program's output (05 R126; 09 R220,
R230; DESIGN CHOICE of the two places, log entry 70). -/
def Search.takeScores (x : Search) (first : Nat) (out : Bytes) (n : Nat) (tally : List (F32 × BitVec 64)) (f : Flags) : Search :=
  let handed := tally.filter (fun t => ((x.rank.drop first).take n).any (fun r => decide (r.ext = t.2)))
  { x with
    flags := x.flags.or f
    rank := x.rank.zipIdx.map (fun p =>
      if first ≤ p.2 ∧ p.2 < first + n then
        if handed.isEmpty then { p.1 with score := some (BitVec.ofNat 32 (fieldAt out (4 * (p.2 - first)) 4)) }
        else
          match handed.find? (fun t => decide (t.2 = p.1.ext)) with
          | some t => { p.1 with score := some t.1 }
          | none => { p.1 with read := .abandoned }
      else p.1) }

/-- The result of a rescoring batch, unless the cut has come: it takes effect at the start of the deadline tick (05 R124, R126). -/
def State.takeBatch (s : State) (q : Seqn) (ix first : Nat) (f : Flags) (tally : List (F32 × BitVec 64)) : State :=
  match s.search? q.cid ix with
  | none => s
  | some x =>
    if x.deadline ≤ s.now then s
    else
      let out := s.peek (seqOutAddr q.entry) (4 * q.tokens)
      ((s.modSearch q.cid ix (fun x => x.takeScores first out q.tokens tally f)).useCmd q.cid 3 q.tokens).maybeSelect q.cid ix

/-- A sequence whose work is done hands its result over. The search of an ENCODE_SEARCH may be admitted from the next tick on
(13 R326). -/
def State.handOver (s : State) (m : Model) (q : Seqn) (f : Flags) (tally : List (F32 × BitVec 64)) : State :=
  match s.cmd? q.cid with
  | none => s
  | some c =>
    match q.batch with
    | some (ix, first) => s.takeBatch q ix first f tally
    | none =>
      if c.opcode = Op.run then
        ((s.modCmd q.cid (fun c => { c with flags := c.flags.or f })).unhold q.handle).finish q.cid
          ⟨Status.success, 0, c.stamp, q.outBytes, 0, 0⟩
      else
        let out := s.peek (seqOutAddr q.entry) (rowLen m.pkg.outFormat m.pkg.outDims)
        ((s.modSearch q.cid 0 (fun x => { x with
            query := out, flags := x.flags.or f, phase := .waiting, nextRound := s.now + 1 })).modCmd q.cid
          (fun c => { c with stage := .searching })).unhold q.handle

/-- A charged sequence completes its job with the fault's status, and with the flags its rows raised (11 R287; 07 R190). -/
def State.faultLeave (s : State) (q : Seqn) (st : Nat) (f : Flags) : State :=
  let s := if q.holding then s.unhold q.handle else s
  if (s.cmd? q.cid).isSome then
    let s := if st = Status.programFault then s.count 0x5800 4 1
      else if st = Status.pageRequestFailed then s.count 0x5100 5 1 else s
    (s.modCmd q.cid (fun c => { c with flags := c.flags.or f })).failJob q.cid st
  else s

/-- A sequence at a boundary: one whose last step has ended, or that has been charged with a fault, leaves; any other runs on (R236).
How many steps a sequence takes is a free value (log entry 30). -/
def State.leave (s : State) (m : Model) (q : Seqn) : State :=
  let f := s.seqFlags q
  let t := s.seqTally q
  let others := s.tensor.seqs.filter (fun x => decide (x.entry ≠ q.entry))
  match q.mark with
  | .dead => { s with tensor := { s.tensor with seqs := others } }
  | .rejoin => { s with tensor := { s.tensor with seqs := { q with state := .waiting, fault := none, outBytes := 0 } :: others } }
  | .live =>
    let gone := { s with tensor := { s.tensor with seqs := others } }
    match q.fault with
    | some st => gone.faultLeave q st f
    | none =>
      if q.steps = 0 then gone.handOver m q f t
      else
        let s := { s with tensor := { s.tensor with
          seqs := mapWhere (fun x => decide (x.entry = q.entry)) (fun x => { x with steps := x.steps - 1 }) s.tensor.seqs } }
        s.modCmd q.cid (fun c => { c with flags := c.flags.or f })

/-- Charge the step's clocks to its classes (11 R283). -/
def State.chargeStepClocks (s : State) (h p : Nat) : State :=
  let n := sumBy (fun c => c.clocks) (s.stepCtxs h p)
  (classShares (s.stepSeqs h p) n).foldl (fun s k => if k.2 = 0 then s else s.useClass p k.1 0 k.2) s

/-- Sequences of a step that may join, in the order of R236; a RUN that restarts comes first (18 R454). -/
def State.joinable (s : State) (h p : Nat) : List Seqn :=
  let key (q : Seqn) : List Nat := match s.cmd? q.cid with
    | some c => [if q.mark = .rejoin then 0 else 1, q.fetchTick, portRank c.port, c.sq, c.cid]
    | none => [2]
  sortBy (fun a b => decide (key a ≤ key b))
    (s.tensor.seqs.filter (fun q => decide (q.handle = h) && decide (q.part = p) && decide (q.state = .waiting)
      && (q.batch.isSome || q.holding)
      && (match s.cmd? q.cid with | some c => s.served c | none => false)))

/-- The steps a sequence takes after its first: the manual states no number for a kind 0 package; encoders and rescorers take
one step (DESIGN CHOICE, log entry 30). -/
def State.drawSteps (s : State) (kind : Nat) : Nat × State := if kind = 0 then s.draw else (0, s)

/-- One sequence joins: its reservation is taken and its input laid out. -/
def State.join (s : State) (kind : Nat) (q : Seqn) : State :=
  let (n, s) := s.drawSteps kind
  let others := s.tensor.seqs.filter (fun x => decide (x.entry ≠ q.entry))
  let q := { q with state := .running, mark := .live, joinTick := s.now, outBytes := 0, steps := n }
  ({ s with tensor := { s.tensor with seqs := others ++ [q] } }.poke (seqInAddr q.entry) q.input).useClass q.part q.cls 4 q.tokens

/-- Join in order until one does not fit; true when one had to wait. -/
def State.joinAll (m : Model) (p : Nat) : State → List Seqn → State × Bool
  | s, [] => (s, false)
  | s, q :: qs =>
    let used := sumBy (fun x => x.tokens) (s.stepSeqs m.handle p)
    if s.hbmFits p q.reservation && decide (used + q.tokens ≤ m.pkg.stepTokens) then State.joinAll m p (s.join m.pkg.kind q) qs
    else (s, true)

/-- The context of a frame in a new step. -/
def newCtx (h p f : Nat) (entries : List Nat) (prog : TileProg) : FrameCtx where
  handle := h
  part := p
  frame := f
  seqs := entries
  pc := 0
  wait := .none
  started := false
  saved := false
  slot := 0
  epoch := 0
  accums := []
  accShape := none
  rows := []
  streams := prog.streams.map (fun x => x.arm x.base)
  flags := Flags.none
  savedSram := []
  runSince := 0
  readySince := 0
  tally := []
  rotateFree := false
  atSave := false
  clocks := 0

/-- Deal the running sequences round-robin over the partition's frames, ascending, and ask for the step's power (R226,
R236). -/
def State.deal (s : State) (m : Model) (p : Nat) : State :=
  let qs := s.stepSeqs m.handle p
  let fs := s.partFrames p
  if qs.isEmpty || fs.isEmpty then s
  else
    let share (j : Nat) : List Nat := (qs.zipIdx.filter (fun q => decide (q.2 % fs.length = j))).map (fun q => q.1.entry)
    let used := fs.zipIdx.filter (fun f => !(share f.2).isEmpty)
    let cs := used.map (fun f => newCtx m.handle p f.1 (share f.2) m.pkg.prog)
    let s := { s with tensor := { s.tensor with ctxs := s.tensor.ctxs ++ cs } }
    let s := if 64 < m.pkg.prog.stepTiles then s.askGrant (.frameStep m.handle p) false m.pkg.prog.stepPower none else s
    used.foldl (fun s f => s.fillFrame f.1) s

/-- Every frame of a step has reached END: sequences leave, waiting ones join, and the next step is dealt. -/
def execStepBoundary (handle : Fin 1024) (part : Fin 16) (s : State) : Ans :=
  match s.model? handle with
  | none => .next s
  | some m =>
    let h := handle.val
    let p := part.val
    if s.up && (s.stepCtxs h p).all (fun c => decide (c.wait = .ended)) then
      let s := s.chargeStepClocks h p
      let s := (s.stepSeqs h p).foldl (fun s q => s.leave m q) s
      let s := { s with tensor := { s.tensor with
        ctxs := s.tensor.ctxs.filter (fun c => !(decide (c.handle = h) && decide (c.part = p)))
        sums := s.tensor.sums.filter (fun b => !(decide (b.handle = h) && decide (b.part = p))) } }
      let js := s.joinable h p
      if (s.partFrames p).length < max 1 m.pkg.prog.framesMin then
        .next (js.foldl (fun s q => s.faultLeave q Status.unitOut Flags.none) s)
      else
        let (s, waits) := State.joinAll m p s js
        let s := if waits then s.count 0x5800 7 1 else s
        .next (s.deal m p)
    else .next s

/-! ### Saves and restores (11 R276, R279-R282) -/

/-- Must a save wait for replies from flash, or for a write stream's engine half to drain (R279, R281)? -/
def Stream.holdsSave (x : Stream) : Bool :=
  if x.prog.write then decide (x.tilesDone ≠ x.tilesSwapped) && !(x.ended && x.flight.isEmpty)
  else x.flight.any (fun g => !g.asked.isEmpty)

/-- The page request group of a stream outlives a save; a translation is asked for again (R261, R279). -/
def PageReq.kept : PageReq → PageReq
  | .asked t g p => .asked t g p
  | .answered c => .answered c
  | _ => .none

/-- A stream as a save leaves it: a read stream stands at its first segment not swapped, its engine half discarded. -/
def Stream.saved (x : Stream) : Stream :=
  let y := { x with poolA := [], poolB := [] }
  if x.prog.write then y
  else
    { y with
      pc := x.savePc, addr := x.saveAddr, dims := x.saveDims, emitAt := x.saveEmit, segs := x.saveSegs, tilesDone := 0
      flight := [], page := x.page.kept, ended := x.ended && decide (x.tilesDone = 0) && x.flight.isEmpty }

/-- The context as its save slot holds it: the live ranges of its save point, its streams, records and flags. -/
def State.saveCtx (s : State) (c : FrameCtx) (prog : TileProg) : FrameCtx :=
  let live := prog.saves.filter (fun e => decide (e.index + 1 = c.pc))
  { c with
    saved := true, epoch := c.epoch + 1, readySince := s.now, clocks := c.clocks + 9216
    savedSram := live.map (fun e => (e.offset, s.peek (frameBase c.frame + e.offset) e.length))
    streams := c.streams.map Stream.saved }

/-- At a pre-emption point where another context is chosen, the running one is saved once its tags allow. -/
def execSave (f : Fin 16) (s : State) : Ans :=
  let s := s.noteReady
  match s.frameCtx f with
  | none => .next s
  | some c =>
    match s.model? c.handle, s.choose f with
    | some m, some d =>
      if !s.up || !c.atPoint || s.keeps c d || c.streams.any Stream.holdsSave then .next s
      else
        let s := c.streams.zipIdx.foldl (fun s x => s.strand c x.2 x.1) s
        let s := ((s.setCtx (s.saveCtx c m.pkg.prog)).chargeClocks c 9216).setRunning f none
        .next (((s.count 0x2100 7 1).releaseStep c.handle c.part).fillFrame f)
    | _, _ => .next s

/-- Write the saved ranges back into a frame's SRAM. -/
def State.reloadSram (s : State) (f : Nat) : List (Nat × Bytes) → State
  | [] => s
  | e :: es => State.reloadSram (s.poke (frameBase f + e.1) e.2) f es

/-- Apply the responses to page request groups that came while a context was saved (10 R261). -/
def State.applyAnswers (s : State) (f : Nat) : State :=
  (List.range 16).foldl (fun s i =>
    match s.pageStream f i with
    | some (c, x) => (match x.page with
      | .answered code => s.applyPrg c i x code
      | _ => s)
    | none => s) s

/-- A frame with nothing running reloads the saved context it chooses and arms its streams at their saved positions. -/
def execRestore (f : Fin 16) (s : State) : Ans :=
  let s := s.noteReady
  if !s.up || !s.unitIn (unitFrame f) || decide (s.tensor.running.getD f none ≠ none) then .next s
  else
    match s.choose f with
    | none => .next s
    | some c =>
      match s.model? c.handle with
      | none => .next s
      | some m =>
        if c.saved then
          let s := s.reloadSram f c.savedSram
          let c' := s.growWrites { c with saved := false, savedSram := [], runSince := s.now, clocks := c.clocks + 9216 } m.pkg
          .next ((((s.setCtx c').chargeClocks c' 9216).setRunning f (some (c.handle, c.part))).applyAnswers f)
        else .next s

end Sys2Proof.Machine
end

