-- ==== Sys2Proof/Machine/Tiers.lean ====
section
/-! DEFINITION. Placements (10 R243-R247): TIER_MOVE, the end of a move, FLUSH (13 R341, R342). -/
namespace Sys2Proof.Machine

def State.modPlacement (s : State) (id : Nat) (f : Placement → Placement) : State :=
  { s with tensor := { s.tensor with placements := mapWhere (fun l => decide (l.id = id)) f s.tensor.placements } }

/-- Logical number of the first tile of a flash range. -/
def flashTile (a : Nat) : Nat := (a - 0x0002000000000000) / 4096

/-! ### TIER_MOVE (R244) -/

/-- TIER_MOVE takes effect in phase 2 of the next tick. -/
def execTierMove (cid : Nat) (place : Nat) (s : State) : Ans :=
  match s.ready? cid Op.tierMove with
  | none => .next s
  | some c => .next (s.orderCmd c place)

/-- Where a placement of a length may stand in a home, the device's choice being `place` (log entry 9). -/
def State.newBase (s : State) (home place len : Nat) : Option Nat :=
  match home with
  | 1 => allocRange s.hbmRegions hbmLo hbmHi 4096 place len
  | 2 => (allocRange s.flashRegions 0 flashTiles 1 place (len / 4096)).map flashAddr
  | 3 => some (hostBase .A + place % 2 ^ 50 * 4096)
  | 4 => some (hostBase .B + place % 2 ^ 50 * 4096)
  | _ => none

/-- Judge a TIER_MOVE at its effect: mode, fields, quota, capacity. -/
def State.judgeMove (s : State) (c : Cmd) (place : Nat) : Nat :=
  let home := c.field 34 1
  match s.placement? (c.field 32 2) with
  | none => Status.invalidField
  | some l =>
    if s.obj 0x5000 4 ≠ 0 then Status.notReady
    else if (l.kind ≠ 1 ∧ l.kind ≠ 2) ∨ home = 0 ∨ 4 < home ∨ home = l.home ∨ l.moving = true ∨ (l.kind = 2 ∧ home = 1) then
      Status.invalidField
    else if (home = 2 ∧ s.flashFits l.part (l.length / 4096) = false)
        ∨ (home = 1 ∧ s.hbmFits l.part l.length = false) then Status.quotaExceeded
    else if (s.newBase home place l.length).isNone then Status.capacityFull
    else Status.success

/-- Bytes of a placement, or none when its flash cannot be read (18 R456). A compressed copy is what the module holds of
it. -/
def State.placementBytes (s : State) (l : Placement) : Option Bytes × State :=
  match s.tensor.models.find? (fun m => decide (l.kind = 2) && decide (m.placement = l.id)) with
  | some m =>
    if decide (l.home = 2) && !((List.range (l.length / 4096)).all (fun k => s.tileIn (flashTile l.base + k))) then (none, s)
    else (some m.packed.flatten, s)
  | none =>
    match s.readTier l.base l.length with
    | (.bytes b, s) => (some b, s)
    | (_, s) => (none, s)

/-- A move that cannot read its placement ends without effect. -/
def State.failMove (s : State) (l : Placement) : State :=
  ((s.modPlacement l.id (fun l => { l with moving := false })).fail l.moveCid Status.mediaUncorrectable).moveEnded

/-- The copy of a move into flash begins when no hold is left: its programs are asked for, one grant each (R244). -/
def State.startCopy (s : State) (l : Placement) : State :=
  if !l.moving || l.copied || decide (l.newHome ≠ 2) || s.placementHeld l then s
  else
    match s.placementBytes l with
    | (none, s) => s.failMove l
    | (some bs, s) =>
      let tiles := pieces 4096 (l.length / 4096) bs
      let b := flashTile l.newBase
      (s.modPlacement l.id (fun l => { l with copied := true })).askTiles (.move l.id) none l.part
        (numbered b (if l.kind = 2 then packedAt b tiles else tiles))

/-- The copies that the holds ended by now let begin. -/
def State.startCopies (s : State) : State := s.tensor.placements.foldl (fun s l => s.startCopy l) s

/-- The move is set going: flag [2] is set, dirty tiles go to the home (R245), and the command waits for the copy. -/
def State.applyMove (s : State) (c : Cmd) (place : Nat) : State :=
  let st := s.judgeMove c place
  let id := c.field 32 2
  match s.placement? id with
  | none => s.fail c.cid Status.invalidField
  | some l =>
    match s.newBase (c.field 34 1) place l.length with
    | none => s.fail c.cid (if st = Status.success then Status.capacityFull else st)
    | some b =>
      if st ≠ Status.success then s.fail c.cid st
      else
        let s := (s.writeBackAll l none).modPlacement id (fun l => { l with
          moving := true, newHome := c.field 34 1, newBase := b, moveCid := c.cid, copied := false })
        let s := s.modCmd c.cid (fun c => { c with stage := .moving id })
        match s.placement? id with
        | some l => s.startCopy l
        | none => s

/-- The placement switches to its new base, the old space is freed, the command completes, and the jobs that waited go on
(R244). -/
def State.switchPlacement (s : State) (l : Placement) : State :=
  let s := if l.home = 2 then s.askErase (flashTile l.base) (l.length / 4096) else s
  let s := s.modPlacement l.id (fun l => { l with
    home := l.newHome, base := l.newBase, moving := false, copied := false, dirty := [], filled := [] })
  let host := decide (3 ≤ l.newHome)
  let s := { s with tensor := { s.tensor with
    models := mapWhere (fun m => decide (l.kind = 2) && decide (m.placement = l.id))
      (fun m => { m with hostHome := host, hostAddr := if host then l.newBase % 2 ^ 62 else 0 }) s.tensor.models } }
  let s := match s.cmd? l.moveCid with
    | none => s
    | some c => s.finish c.cid ⟨Status.success, 0, c.stamp, 0, l.newBase % 2 ^ 32, l.newBase / 2 ^ 32⟩
  s.moveEnded

/-- MOVE_COMPLETE: the copy has completed. It begins only when no job holds the placement; into flash it is whole when its dies
have reported every program, and tiles still on their way to the old home are waited for. In tier modes 1-3 no move goes on
(R247). -/
def execMoveComplete (id : Fin 4096) (s : State) : Ans :=
  match s.placement? id with
  | none => .next s
  | some l =>
    let whole := decide (l.newHome ≠ 2) || (l.copied && !s.programming (.move l.id))
    if !s.up || !l.moving || decide (s.obj 0x5000 4 ≠ 0) || s.placementHeld l || !whole || s.programming (.writeBack l.id) then
      .next s
    else if l.newHome = 2 then .next (s.switchPlacement l)
    else
      match s.placementBytes l with
      | (none, s) => .next (s.failMove l)
      | (some bs, s) => .next ((s.poke l.newBase bs).switchPlacement l)

/-! ### FLUSH (R246; 06 R153) -/

/-- FLUSH takes effect in phase 2 of the next tick. -/
def execFlush (cid : Nat) (s : State) : Ans :=
  match s.ready? cid Op.flush with
  | none => .next s
  | some c => .next (s.orderCmd c 0)


/-- Ask the governor for one program of each tile that a FLUSH covers. -/
def State.askFlush (s : State) (cid : Nat) (tiles : List (Nat × Nat)) : State :=
  tiles.foldl (fun s t => s.askGrant (.nand (tileDie t.2) t.1 t.2) true 1 (some cid)) s

/-- A FLUSH whose last tile has been written completes. -/
def State.endFlush (s : State) (cid : Nat) : State :=
  match s.cmd? cid with
  | none => s
  | some c =>
    match c.stage with
    | .flushing n =>
      if s.pwr.grants.any (fun g => decide (g.cid = some cid) && !g.releasing) then s
      else s.finish cid ⟨Status.success, 0, c.stamp, n, 0, 0⟩
    | _ => s

/-- The effect of a FLUSH: it covers the journal tiles open and the shadow tiles dirty in this tick, and waits for the programs
of both (R246). -/
def State.applyFlush (s : State) (c : Cmd) : State :=
  let kind := c.field 32 1
  if s.obj 0x5000 4 ≠ 0 then s.fail c.cid Status.notReady
  else
    let colls := match kind with
      | 0 => (s.coll? c.collByte).toList
      | 2 => s.colls.filter (fun k => decide (k.part = c.part))
      | _ => []
    let places := match kind with
      | 1 => (s.placement? (c.field 34 2)).toList
      | 2 => s.tensor.placements.filter (fun l => decide (l.part = c.part))
      | _ => []
    if (kind = 0 ∧ colls = []) then s.fail c.cid Status.invalidCollection
    else if kind = 1 ∧ places = [] then s.fail c.cid Status.invalidField
    else
      let tiles := (colls.map (fun k => k.openTiles.map (fun t => (k.num, t)))).flatten
      let n := tiles.length + sumBy (fun l => l.dirty.length) places
      let s := places.foldl (fun s l => s.writeBackAll l (some c.cid)) s
      ((s.modCmd c.cid (fun c => { c with stage := .flushing n })).askFlush c.cid tiles).endFlush c.cid

end Sys2Proof.Machine
end

