-- ==== Sys2Proof/Machine/Window.lean ====
section
/-! DEFINITION. The paths to registers and objects (14): BAR0 writes and reads, events and locks, the BAR4 window, the mailbox,
OBJ_READ and OBJ_WRITE, and the writes that ask for a reset, defaults, a tier mode, a tick-table switch or a unit out. -/
namespace Sys2Proof.Machine

/-! ### BAR0 (R352-R359) -/

/-- The 32-bit halves of the register map: offset of the half, offset of its register, 0 whole, 1 low half, 2 high half. -/
def regMap : List (Nat × Nat × Nat) :=
  [(0x0000, 0x0000, 0), (0x0004, 0x0004, 0), (0x0008, 0x0008, 0), (0x000C, 0x000C, 0), (0x0010, 0x0010, 0),
   (0x0014, 0x0014, 0), (0x0018, 0x0018, 0), (0x001C, 0x001C, 0), (0x0020, 0x0020, 1), (0x0024, 0x0020, 2),
   (0x0028, 0x0028, 1), (0x002C, 0x0028, 2), (0x0100, 0x0100, 1), (0x0104, 0x0100, 2), (0x0108, 0x0108, 0),
   (0x0200, 0x0200, 0), (0x0300, 0x0300, 0), (0x0400, 0x0400, 0), (0x0500, 0x0500, 0), (0x0600, 0x0600, 0)]

def regAt (off : Nat) : Option (Nat × Nat × Nat) := regMap.find? (fun r => decide (r.1 = off))

/-- Is an access naturally aligned, of 4 or 8 bytes, and to listed offsets (R352)? -/
def regAccessOk (off size : Nat) : Bool :=
  if size = 4 then decide (off % 4 = 0) && (regAt off).isSome
  else decide (size = 8) && decide (off % 8 = 0) && (regAt off).isSome && (regAt (off + 4)).isSome

/-- Register the writes that an access makes: one for a register, or two of 32 bits for two registers. -/
def State.orderBar (s : State) (p : Port) (off size value : Nat) : State :=
  match regAt off with
  | none => s
  | some r =>
    if size = 8 ∧ r.2.2 = 0 then
      (s.order (portRank p) 0 (.barWrite p off 4 (value % 2 ^ 32))).order (portRank p) 0
        (.barWrite p (off + 4) 4 (value / 2 ^ 32 % 2 ^ 32))
    else s.order (portRank p) 0 (.barWrite p off size value)

/-- A BAR0 access that is ignored is counted (R352). -/
def State.badAccess (s : State) : State := s.count 0x2000 9 1

/-- A BAR0 write is registered for the next tick, or ignored and counted. -/
def State.barWrite (s : State) (p : Port) (off size value : Nat) : State :=
  if !s.takes p then s
  else if regAccessOk off size then s.orderBar p off size value
  else s.badAccess

def execRegisterWrite (p : Port) (offset size : Nat) (value : BitVec 64) (s : State) : Ans :=
  .next (s.barWrite p offset size value.toNat)

/-- A write of HIF_EVT_CLEAR. -/
def execHifEvtClear (p : Port) (value : BitVec 32) (s : State) : Ans := .next (s.barWrite p 0x14 4 value.toNat)

/-- A write of HIF_ADMIN_CTRL with EN = 1. -/
def execAdminPairEnable (p : Port) (vector : BitVec 11) (ien : Bool) (s : State) : Ans :=
  .next (s.barWrite p 0x18 4 (1 + 2 * b2n ien + 16 * vector.toNat))

/-- A write of HIF_ADMIN_CTRL with EN = 0. -/
def execAdminPairDisable (p : Port) (s : State) : Ans := .next (s.barWrite p 0x18 4 0)

/-- A write of SEC_LOCK. -/
def execSecLock (p : Port) (value : BitVec 32) (s : State) : Ans := .next (s.barWrite p 0x500 4 value.toNat)

/-- Set the data of a read completion. -/
def State.readOut (s : State) (p : Port) (v : Nat) : State := s.modPort p (fun x => { x with readData := BitVec.ofNat 64 v })

/-- Intervals without an accepted SYNC, at most 255 (15 R400). -/
def State.syncMissed (s : State) : Nat :=
  if s.bdl.manager || decide (s.clk.syncInterval = 0) then 0 else min 255 ((s.now - s.clk.lastSync) / s.clk.syncInterval)

/-- PWR_STATUS (16 R422). -/
def State.powerStatus (s : State) : Nat :=
  (sumBy id s.pwr.samples / max 1 s.pwr.samples.length) % 2048 + s.obj 0x6000 0x0C % 2 * 2 ^ 11 + s.pwr.step % 8 * 2 ^ 12
    + b2n s.pwr.guard * 2 ^ 15 + s.effLimit % 2048 * 2 ^ 16 + b2n s.pwr.holdupOk * 2 ^ 27

/-- BDL_STATUS (15 R400). -/
def State.bdlStatus (s : State) : Nat :=
  let b := s.bdl
  let held := b.manager || decide (b.state ≠ 0)
  b2n b.upLink + 2 * b2n b.downLink + 4 * b.ring + 16 * b2n b.manager + 32 * (b.state % 4)
    + (if held then 2 ^ 8 * (b.nodeId % 32) + 2 ^ 13 else 0) + 2 ^ 16 * s.syncMissed + 2 ^ 24 * (s.obj 0x1100 0x0F % 256)

/-- What a register of the map shows, by its offset (R355-R360, R363); what only a write reaches reads 0. -/
def State.regValue (s : State) (p : Port) (reg : Nat) : Nat :=
  let x := s.port p
  match reg with
  | 0x0000 => 0x6402 + 0xA0 * 2 ^ 16
  | 0x0004 => b2n s.boot.ready + 2 * b2n (x.pending.getLsbD 15) + 4 * (s.obj 0x5000 4 % 4) + 16 * (s.ps.state % 4)
  | 0x0008 => x.wrStatus % 256 + x.wrOffset % 65536 * 2 ^ 8 + x.wrFails % 256 * 2 ^ 24
  | 0x000C => x.wrTick % 2 ^ 32
  | 0x0010 => x.pending.toNat + x.evCount % 65536 * 65536
  | 0x0018 => b2n x.admin.en + 2 * b2n x.admin.ien + 4 * b2n x.admin.halted + 8 * b2n x.admin.active + 16 * x.admin.vector
  | 0x001C => x.admin.depth.toNat
  | 0x0020 => x.admin.sqBase.toNat
  | 0x0028 => x.admin.cqBase.toNat
  | 0x0100 => s.now % 2 ^ 64
  | 0x0108 => s.obj 0x3000 2 % 4
  | 0x0200 => sumBy (fun i => s.contextsUsed i) (List.range 16) % 65536
  | 0x0300 => sumBy (fun c => (c.streams.filter (fun y => y.armed)).length) s.tensor.ctxs % 65536
  | 0x0400 => s.powerStatus
  | 0x0500 => s.boot.locks.toNat
  | 0x0600 => s.bdlStatus
  | _ => 0

/-- A 4-byte half of the map. -/
def State.regHalf (s : State) (p : Port) (off : Nat) : Nat :=
  match regAt off with
  | some (_, r, k) => if k = 2 then s.regValue p r / 2 ^ 32 else s.regValue p r % 2 ^ 32
  | none => 0

/-- What an access reads (R352): nothing where it is not aligned, of another size, or not listed. -/
def State.barValue (s : State) (p : Port) (off size : Nat) : Nat :=
  if regAccessOk off size then s.regHalf p off + (if size = 8 then 2 ^ 32 * s.regHalf p (off + 4) else 0) else 0

/-- The device answers a read of TCK_COUNT: whole, its low half, which latches the high half, or the latched high half. -/
def State.serveTck (s : State) (p : Port) (high : Bool) (size : Nat) : State :=
  if size = 8 ∧ high = false then s.readOut p s.now
  else if size = 4 then
    if high then s.readOut p (s.port p).tckHigh.toNat
    else (s.modPort p (fun x => { x with tckHigh := BitVec.ofNat 32 (s.now / 2 ^ 32) })).readOut p (s.now % 2 ^ 32)
  else s.badAccess.readOut p 0

/-- A read of TCK_COUNT (R352). It waits until every write that its port sent before has taken effect (R354). -/
def execTckCount (p : Port) (high : Bool) (size : Nat) (s : State) : Ans :=
  if !s.takes p then .next s
  else if s.orders.any (fun o => decide (o.rank = portRank p)) then .next (s.order (portRank p) 0 (.tckRead p high size))
  else .next (s.serveTck p high size)

/-- A read of HIF_EVT_STATUS returns pending events and sequence together; under read-clear it clears what it reports, but
for code 15 (R360-R362). -/
def execHifEvtStatus (p : Port) (s : State) : Ans :=
  if !s.takes p then .next s
  else
    let x := s.port p
    let s := s.readOut p (x.pending.toNat + x.evCount % 65536 * 65536)
    if s.obj 0x2000 4 = 1 then .next (s.modPort p (fun x => { x with pending := x.pending &&& 0x8000#16 })) else .next s

/-- Sequence-clear (R361, R362). -/
def PortState.clearUpTo (x : PortState) (v : Nat) : PortState :=
  let codes := (List.range 15).filter (fun i =>
    decide ((v + 65536 - x.raiseSeq.getD i 0 % 65536) % 65536 < 32768))
  let left := codes.foldl (fun (p : BitVec 16) i => p &&& ~~~(1#16 <<< i)) x.pending
  { x with pending := left }

/-- Turn the admin pair on (R359). -/
def State.adminOn (s : State) (p : Port) : State :=
  let a := (s.port p).admin
  let q := s.adminQid p
  let sd := a.depth.toNat % 65536 + 1
  let cd := a.depth.toNat / 65536 + 1
  let sq := newSq q p 0 0 0 q a.sqBase.toNat sd true none
  let cq := newCq q p 0 0 a.cqBase.toNat cd a.ien a.vector
  { s with sqs := s.sqs ++ [sq], cqs := s.cqs ++ [cq] }.modPort p (fun x => { x with
      admin := { x.admin with en := true, active := true, halted := false } })

/-- Are the bases and depths held valid (R294, R358)? -/
def AdminRegs.ok (a : AdminRegs) : Bool :=
  baseOk a.sqBase.toNat && baseOk a.cqBase.toNat && depthOk (a.depth.toNat % 65536 + 1) && depthOk (a.depth.toNat / 65536 + 1)

/-- Judge a BAR0 write (R357-R361). -/
def State.judgeBar (s : State) (p : Port) (off value : Nat) : Nat :=
  let a := (s.port p).admin
  match (regAt off).map (fun r => r.2.1) with
  | some 0x14 => if s.obj 0x2000 4 = 1 then Status.invalidField else Status.success
  | some 0x18 =>
    if bit value 0 then
      if a.active then (if a.en then Status.success else Status.invalidField)
      else if !s.boot.ready then Status.notReady
      else if a.ok then Status.success else Status.invalidField
    else Status.success
  | some 0x1C => if a.en then Status.invalidField else Status.success
  | some 0x20 => if a.en then Status.invalidField else Status.success
  | some 0x28 => if a.en then Status.invalidField else Status.success
  | some 0x500 => Status.success
  | _ => Status.invalidField

/-- The value of a base after a write of the whole or of a half (R352): the new register, if it changes now. -/
def baseHalf (x : PortState) (old : BitVec 64) (off size value : Nat) : BitVec 64 × List (Nat × BitVec 32) :=
  let rest (o : Nat) : List (Nat × BitVec 32) := x.halfWrite.filter (fun e => decide (e.1 ≠ o))
  if size = 8 then (BitVec.ofNat 64 value, rest off)
  else if off % 8 = 0 then (old, (off, BitVec.ofNat 32 value) :: rest off)
  else
    let low := match x.halfWrite.find? (fun e => decide (e.1 + 4 = off)) with
      | some (_, v) => v.toNat
      | none => old.toNat % 2 ^ 32
    (BitVec.ofNat 64 (low + value * 2 ^ 32), rest (off - 4))

/-- The effect of an accepted BAR0 write. -/
def State.effectBar (s : State) (p : Port) (off size value : Nat) : State :=
  match (regAt off).map (fun r => r.2.1) with
  | some 0x14 => s.modPort p (fun x => x.clearUpTo (value % 65536))
  | some 0x18 =>
    let s := s.modPort p (fun x => { x with admin := { x.admin with ien := bit value 1, vector := bits value 14 4 } })
    let s := s.modCq (s.adminQid p) (fun c => { c with ien := bit value 1, vector := bits value 14 4 })
    let a := (s.port p).admin
    if bit value 0 then (if a.active then s else s.adminOn p)
    else
      let s := s.modPort p (fun x => { x with admin := { x.admin with en := false } })
      if a.en && a.active then s.cutQueue (s.adminQid p) true true none else s
  | some 0x1C => s.modPort p (fun x => { x with admin := { x.admin with depth := BitVec.ofNat 32 value } })
  | some 0x20 => s.modPort p (fun x =>
      let (b, h) := baseHalf x x.admin.sqBase off size value
      { x with admin := { x.admin with sqBase := b }, halfWrite := h })
  | some 0x28 => s.modPort p (fun x =>
      let (b, h) := baseHalf x x.admin.cqBase off size value
      { x with admin := { x.admin with cqBase := b }, halfWrite := h })
  | some 0x500 => s.setLocks (BitVec.ofNat 5 value)
  | _ => s

/-- Record the outcome of a BAR0 write (R357). -/
def State.recordBar (s : State) (p : Port) (off st : Nat) : State :=
  let t := s.now
  s.modPort p (fun x => { x with
    wrStatus := st, wrOffset := off, wrFails := (x.wrFails + (if st = 0 then 0 else 1)) % 256, wrTick := t })

/-! ### The object window (R374) -/

def winKey (p : Port) (fn : Nat) : Nat := 64 * p.num + fn
def Window.zero : Window := ⟨0, 0, 0, 0, 0, 0, false, false, 0, 0, []⟩
def State.window (s : State) (k : Nat) : Window := Sparse.get (fun _ => Window.zero) s.wins k
def State.setWindow (s : State) (k : Nat) (w : Window) : State :=
  { s with wins := Sparse.put (fun _ => Window.zero) s.wins k w }

/-- May a function's BAR4 be reached: the port in service, the function enabled, not in recovery (17 R438)? -/
def State.bar4 (s : State) (p : Port) (fn : Nat) : Bool :=
  s.takes p && decide (fn ≤ (s.port p).vfs) && !s.boot.recovery

/-- The commit word is written: the operation is stamped with the next tick, or refused while another is pending. -/
def State.winCommit (s : State) (p : Port) (fn : Fin 64) (op : Nat) (w : WinFields) (data : Bytes) : State :=
  if !s.bar4 p fn then s
  else if (s.window (winKey p fn)).pending then s.count 0x2000 8 1
  else
    let x : Window := ⟨w.index.toNat, w.sub.toNat, op, w.arg.toNat, w.len.toNat, 0, false, true, w.token.toNat, 0, data⟩
    (s.setWindow (winKey p fn) x).order (portRank p) 0 (.win p fn op w data)

def execWinRead (p : Port) (fn : Fin 64) (w : WinFields) (s : State) : Ans := .next (s.winCommit p fn 0 w [])
def execWinWrite (p : Port) (fn : Fin 64) (w : WinFields) (data : Bytes) (s : State) : Ans := .next (s.winCommit p fn 1 w data)
def execWinReadDescriptor (p : Port) (fn : Fin 64) (w : WinFields) (s : State) : Ans := .next (s.winCommit p fn 2 w [])

/-- The operation is done: its status, tick and the value read (R374). -/
def State.winDone (s : State) (k st : Nat) (data : Option Bytes) : State :=
  let x := s.window k
  (s.setWindow k { x with
    status := st, done := true, pending := false, tick := s.now, data := data.getD x.data }).count 0x2000 7 1

/-- The descriptor of an object as it stands: the limits of some objects are the values of others (14 R369). -/
def State.descOf (s : State) (d : ObjDesc) (index sub arg : Nat) : ObjDesc :=
  match index, sub with
  | 0x6000, 1 => { d with hi := s.obj 0x6000 2 }
  | 0x6000, 2 => { d with ranged := true, lo := 900, hi := ceilingMost }
  | 0x3100, 1 => { d with hi := s.obj 0x3100 2 arg }
  | _, 0x54 => (match s.coll? (index - 0x4100) with
    | some k => if tableIndex index = 0x4100 then { d with hi := k.degree } else d
    | none => d)
  | _, 0x55 => if tableIndex index = 0x4100 then { d with lo := s.cobj (index - 0x4100) 0x21 } else d
  | _, _ => d

/-- A window read or descriptor read, at the end of phase 2. -/
def State.winRead (s : State) (p : Port) (fn op : Nat) (w : WinFields) : State :=
  let k := winKey p fn
  let idx := w.index.toNat
  let sub := w.sub.toNat
  match findObj idx sub with
  | none => s.winDone k Status.invalidField none
  | some d =>
    if op = 2 then
      if w.len = 32 then s.winDone k Status.success (some (s.descOf d idx sub w.arg.toNat).bytes) else s.winDone k Status.invalidField none
    else
      let st := s.judgeRead (.fn p fn) idx sub w.arg.toNat w.len.toNat
      if st = Status.success then s.winDone k st (some (leBytes d.size (s.readObj idx sub w.arg.toNat)))
      else s.winDone k st none

/-- The value of `len` bytes of write data. -/
def writeValue (data : Bytes) (len : Nat) : Nat := leNat (fit len data)

/-- A window write that takes effect or is refused. One of module_reset that takes effect gets no window status (R376). -/
def State.winWrite (s : State) (p : Port) (fn : Nat) (w : WinFields) (data : Bytes) : State :=
  let idx := w.index.toNat
  let v := writeValue data w.len.toNat
  let st := s.judgeWrite (.fn p fn) idx w.sub.toNat w.arg.toNat w.len.toNat v
  if st = Status.success then
    let s := s.applyWrite idx w.sub.toNat w.arg.toNat v
    if idx = 0x2000 ∧ w.sub.toNat = 1 then s else s.winDone (winKey p fn) st none
  else s.winDone (winKey p fn) st none

/-! ### The mailbox (R375) -/

def Mailbox.zero : Mailbox := ⟨0, false, 0, [], 0⟩
def State.box (s : State) (k : Nat) : Mailbox := Sparse.get (fun _ => Mailbox.zero) s.boxes k
def State.setBox (s : State) (k : Nat) (b : Mailbox) : State :=
  { s with boxes := Sparse.put (fun _ => Mailbox.zero) s.boxes k b }

/-- A send is stamped at MBX_SEND. -/
def execMbxSend (p : Port) (fn : Fin 64) (dest : BitVec 16) (msg : Bytes) (s : State) : Ans :=
  if s.bar4 p fn then .next (s.order (portRank p) 0 (.mbxSend p fn dest.toNat msg)) else .next s

/-- A write of MBX_IN_HEAD is stamped. -/
def execMbxInHead (p : Port) (fn : Fin 64) (value : BitVec 32) (s : State) : Ans :=
  if s.bar4 p fn then .next (s.order (portRank p) 0 (.mbxHead p fn value.toNat)) else .next s

/-- May a function send to a destination? -/
def State.maySend (s : State) (p : Port) (fn dest : Nat) : Bool :=
  decide (dest < 128) && decide (dest % 64 ≤ (s.port (if dest < 64 then .A else .B)).vfs)
    && (decide (fn = 0) || decide (dest = 64 * p.num))

/-- Deliver a message in phase 2 of its tick. -/
def State.applySend (s : State) (p : Port) (fn dest : Nat) (msg : Bytes) : State :=
  let k := winKey p fn
  let out (s : State) (st : Nat) : State := s.setBox k { s.box k with outStatus := st, outDone := true }
  if !s.maySend p fn dest then out s Status.accessDenied
  else
    let b := s.box dest
    if 16 ≤ b.inbox.length then out s Status.capacityFull
    else
      let s := s.setBox dest { b with inbox := b.inbox ++ [⟨fit 64 msg, k, s.now⟩], tailSlot := (b.tailSlot + 1) % 16 }
      out (s.count 0x2000 0x0A 1) Status.success

/-- The host releases the inbox slots before the one it names. -/
def State.applyInHead (s : State) (p : Port) (fn v : Nat) : State :=
  let k := winKey p fn
  let b := s.box k
  if 16 ≤ v then s
  else
    let n := (v + 16 - b.head) % 16
    if b.inbox.length < n then s else s.setBox k { b with head := v, inbox := b.inbox.drop n }

/-! ### OBJ_READ and OBJ_WRITE (13 R340) -/

/-- The rights of a command: those of its queue's function. -/
def Cmd.who (c : Cmd) : Who := .fn c.port c.fn

/-- OBJ_READ is executed: read at the end of phase 2 of this tick (R372; 02 R33). -/
def execObjRead (cid : Nat) (s : State) : Ans :=
  match s.ready? cid Op.objRead with
  | none => .next s
  | some c => if c.fetchTick < s.now then .next (s.orderCmd c 0) else .next s

/-- OBJ_WRITE is executed: registered to take effect in the next tick, its effect tick. -/
def execObjWrite (cid : Nat) (inbuf : Bytes) (s : State) : Ans :=
  match s.ready? cid Op.objWrite with
  | none => .next s
  | some c => .next ((s.orderCmd c 0).modCmd cid (fun c => { c with inbuf := inbuf }))

/-- The effect of an OBJ_READ. -/
def State.applyObjRead (s : State) (c : Cmd) : State :=
  let idx := c.field 32 2
  let sub := c.field 34 1
  let len := c.field 40 4
  let st := s.judgeRead c.who idx sub (c.field 36 4) len
  let st := if st = Status.success ∧ c.outLen ≠ len then Status.invalidField else st
  if st = Status.success then
    let s := s.outWrite c c.outAddr (leBytes len (s.readObj idx sub (c.field 36 4)))
    s.finish c.cid ⟨st, 0, s.now, len, 0, 0⟩
  else s.finish c.cid { c.failWords st with dw3 := s.now }

/-- Judge an OBJ_WRITE. -/
def State.judgeObjWrite (s : State) (c : Cmd) : Nat :=
  let len := c.field 40 4
  let st := s.judgeWrite c.who (c.field 32 2) (c.field 34 1) (c.field 36 4) len (writeValue c.inbuf len)
  if st = Status.success ∧ c.inLen ≠ len then Status.invalidField else st

/-- The effect of an OBJ_WRITE. -/
def State.applyObjWrite (s : State) (c : Cmd) : State :=
  let st := s.judgeObjWrite c
  let len := c.field 40 4
  if st = Status.success then
    let reset := decide (c.field 32 2 = 0x2000) && decide (c.field 34 1 = 1)
    let s := s.applyWrite (c.field 32 2) (c.field 34 1) (c.field 36 4) (writeValue c.inbuf len)
    if reset then s else s.finish c.cid ⟨st, 0, s.now, len, 0, 0⟩
  else s.finish c.cid { c.failWords st with dw3 := s.now }

/-! ### Writes of particular objects, by any path (R371) -/

/-- The window fields of a write of an object. -/
def objFields (index sub arg len : Nat) : WinFields :=
  ⟨BitVec.ofNat 16 index, BitVec.ofNat 8 sub, BitVec.ofNat 32 arg, BitVec.ofNat 32 len, 0⟩

/-- Register a write of `len` bytes to an object along a path. A command is one that names this object and value. -/
def State.writeVia (s : State) (via : Via) (index sub arg len v : Nat) : State :=
  match via with
  | .win p fn => s.winCommit p fn 1 (objFields index sub arg len) (leBytes len v)
  | .manager seq =>
    if s.up && decide (s.bdl.state ≠ 0) then s.order 2 seq.toNat (.odWrite index sub arg 0 (leBytes len v) seq.toNat) else s
  | .cmd cid =>
    match s.ready? cid Op.objWrite with
    | some c =>
      if c.field 32 2 = index ∧ c.field 34 1 = sub then
        (s.orderCmd c 0).modCmd cid (fun c => { c with inbuf := leBytes len v })
      else s
    | none => s

/-- A write of 0xA5 to module_reset (R376). -/
def execModuleReset (via : Via) (s : State) : Ans := .next (s.writeVia via 0x2000 1 0 1 0xA5)
/-- A write of 0xA5 to config_defaults (R370). -/
def execConfigDefaults (via : Via) (s : State) : Ans := .next (s.writeVia via 0x2000 5 0 1 0xA5)
/-- A write of 2 to tier_mode_request (10 R247). -/
def execTierModeRequest (via : Via) (s : State) : Ans := .next (s.writeVia via 0x5000 5 0 1 2)
/-- A write of 1 to tick_table_switch (02 R45). -/
def execTickTableSwitch (via : Via) (s : State) : Ans := .next (s.writeVia via 0x3010 2 0 1 1)
/-- A write of unit_take_out (18 R457, R473). -/
def execUnitTakeOut (via : Via) (value : BitVec 16) (s : State) : Ans := .next (s.writeVia via 0x6200 8 0 2 value.toNat)

end Sys2Proof.Machine
end

