-- ==== Sys2Proof/Machine/Units.lean ====
section
/-! DEFINITION. Faults and units (18): fatal conditions, the taking out of a unit and what depends on it, internal faults,
lost tiles, map repair and return scans. -/
namespace Sys2Proof.Machine

/-! ### Fatal conditions (R467) -/

/-- Service in force under a cause, the most restrictive first. -/
def fatalRank (cause : Nat) : Nat :=
  if cause = 4 then 0 else if cause = 7 then 2 else if cause = 6 then 3 else 1

/-- The cause whose service is in force; among equals the one raised first. -/
def fatalShown (cs : List Nat) : Nat :=
  match cs with
  | [] => 0
  | c :: cs => cs.foldl (fun a b => if fatalRank b < fatalRank a then b else a) c

/-- Give back the grant of a firmware commit that ends. -/
def State.dropCommit (s : State) (c : Cmd) : State :=
  match s.grantOf (.bootArea c.cid) with
  | some g => s.endGrant g.gid
  | none => s

/-- The stopped service: commands in flight complete with INTERNAL_ERROR, except mutations already appended. -/
def State.stopOne (s : State) (c : Cmd) : State :=
  match c.stage with
  | .ended .. => s
  | _ =>
    let s := if c.isJob then (s.noteAll c.cid).release c.cid else (s.dropCommit c).unwait c.cid
    s.fail c.cid Status.internalError

/-- A fatal condition: ATTN 15, the cause in force, and its service. Cause 4 starts the hold-up sequence in the next tick
(16 R418). -/
def State.raiseFatal (s : State) (cause : Nat) : State :=
  let fatals := s.units.fatals ++ [cause]
  let shown := fatalShown fatals
  let s := { s with units := { s.units with
    fatals := fatals, fatalCause := shown
    fatalJournal := if shown = s.units.fatalCause then s.units.fatalJournal else shown } }
  let s := s.raiseEvent 15
  let s := if s.stopped then s.cmds.foldl (fun s c => s.stopOne c) s else s
  if cause = 4 then s.order 1 0 .holdUp else s

/-- FATAL: the hardware reports the condition. Cause 0 is none. -/
def execFatal (cause : Fin 8) (s : State) : Ans :=
  if s.up && decide (cause.val ≠ 0) then .next (s.raiseFatal cause) else .next s

/-! ### What depends on a unit (R452, R458) -/

/-- Does a search wait for a tile that satisfies `p`? -/
def State.searchNeeds (s : State) (x : Search) (p : Nat → Bool) : Bool :=
  let waits (r : ReadStage) : Bool := match r with
    | .queued => true
    | .sent _ => true
    | .returned _ _ => true
    | _ => false
  match s.coll? x.coll with
  | none => false
  | some c =>
    x.open_.any (fun e => !e.cached && p e.tile && (match e.stage with | .arrived _ => false | _ => true))
      || (decide (x.phase = .rescoring) && x.rank.any (fun r => waits r.read && (r.todo ++ r.asked).any p))
      || (decide (x.phase = .gathering) && x.rows.any (fun w => waits w.read
        && (match dirAt c (nodeSegment w.node) x.admTick with
          | some d => p (payPlace c d.bPay w.node).1
          | none => false)))

/-- Does a stream of a context wait for a flash tile that satisfies `p`? -/
def FrameCtx.needs (c : FrameCtx) (p : Nat → Bool) : Bool :=
  c.streams.any (fun x => x.flight.any (fun g => (g.todo ++ g.asked).any p))

/-- The commands with a request outstanding to a tile that satisfies `p`. -/
def State.waitingOn (s : State) (p : Nat → Bool) : List Nat :=
  ((s.searches.filter (fun x => s.searchNeeds x p)).map (fun x => x.cid)
    ++ (s.cmds.filter (fun c => ((c.todo.getD []) ++ c.asked).any p)).map (fun c => c.cid)
    ++ ((s.tensor.ctxs.filter (fun c => c.needs p)).map (fun c =>
      (s.stepSeqs c.handle c.part).map (fun q => q.cid))).flatten).eraseDups

/-- An internal fault of each of some commands. -/
def State.faultAll (s : State) (cids : List Nat) (checksum : Bool) : State :=
  cids.foldl (fun s c => s.faultCmd c checksum) s

/-- The steps with a context on a frame. -/
def State.stepsOn (s : State) (f : Nat) : List (Nat × Nat) :=
  ((s.tensor.ctxs.filter (fun c => decide (c.frame = f))).map (fun c => (c.handle, c.part))).eraseDups

/-- A step dealt to a frame that went out: its commands fault and its contexts are given up. -/
def State.breakStep (s : State) (h p : Nat) : State :=
  let cids := ((s.stepSeqs h p).map (fun q => q.cid)).eraseDups
  let s := s.chargeStepClocks h p
  let s := (s.stepCtxs h p).foldl (fun s c => c.streams.zipIdx.foldl (fun s x => s.strand c x.2 x.1) s) s
  let s := s.faultAll cids false
  let s := match s.grantOf (.frameStep h p) with
    | some g => s.endGrant g.gid
    | none => s
  { s with tensor := { s.tensor with
      ctxs := s.tensor.ctxs.filter (fun c => !(decide (c.handle = h) && decide (c.part = p)))
      running := s.tensor.running.map (fun r => if r = some (h, p) then none else r) } }

/-! ### The usable write buffer (16 R406, R408) -/

def State.diesIn (s : State) : Nat := ((List.range 128).filter (fun d => s.unitIn (unitDie d))).length

/-- The lesser of 256 MiB and 2,555,280 bytes a die, halved or none by the hold-up capacitance. -/
def State.usableBuffer (s : State) : Nat :=
  let n := min 268435456 (2555280 * s.diesIn)
  if s.unitIn unitHoldup then n else if 3400 ≤ s.obj 0x6000 0x0F then n / 2 else 0

def State.refreshBuffer (s : State) : State := { s with wb := { s.wb with usable := s.usableBuffer } }

/-! ### A unit goes out (R457, R458, R462) -/

/-- Change the record of a unit. -/
def State.putUnit (s : State) (r : UnitRec) : State :=
  { s with units := { s.units with recs := s.units.recs.filter (fun x => decide (x.unit ≠ r.unit)) ++ [r] } }

/-- Count a fault of a unit that has a record. -/
def State.countFault (s : State) (u : Nat) : State :=
  if u ≤ unitHoldup then
    let r := s.unitRecord u
    s.putUnit { r with faults := r.faults + 1 }
  else s

/-- Units that go with a unit, and the state each takes (R457). -/
def goesWith (u : Nat) : List (Nat × Nat) :=
  let rod (r : Nat) : List (Nat × Nat) := [(unitDie (2 * r), 2), (unitDie (2 * r + 1), 2)]
  if u < 64 then rod u
  else if u < 192 then
    let d := u - 64
    [(unitRod (d / 2), 1), (unitDie (if d % 2 = 0 then d + 1 else d - 1), 2)]
  else if u < 200 then
    ((List.range 8).map (fun i => (unitRod (8 * (u - 192) + i), 1) :: rod (8 * (u - 192) + i))).flatten
  else []

/-- Has a collection map buckets on a rod? -/
def Coll.bucketsOn (c : Coll) (r : Nat) : Bool :=
  (List.range (min 64 c.mapTiles)).any (fun b => decide ((c.mapBase + b) % 64 = r))

/-- Put a collection in map repair. Its pass is suspended at its next segment boundary, or abandoned with its commands kept
when its plan is not closed (R462). -/
def State.startRepair (s : State) (n : Nat) : State :=
  let s := s.modColl n (fun c => { c with repair := max 1 c.repair })
  match s.carry.pass with
  | some p =>
    if p.coll ≠ n then s
    else if !p.planClosed then
      (s.abandonPass { p with waiters := [] } Status.success).requestPass n p.waiters
    else if p.rewrite.isSome then s.setPass (some { p with byRepair := true })
    else s.suspendForRepair p
  | none => s

/-- Take a unit out in phase 2: requests to it are lost, dependent commands meet an internal fault, its record and those of
the units behind it are written, and ATTN 3 is raised. -/
def State.takeOut (s : State) (u cause : Nat) : State :=
  if s.unitState u = 1 then s
  else
    let also := (goesWith u).filter (fun v => decide (s.unitState v.1 = 0) || decide (s.unitState v.1 = 3))
    let rods := ((u :: also.map (fun v => v.1)).filter (fun v => decide (v < 64))).filter (fun r => s.rodIn r)
    let lost := s.waitingOn (fun t => rods.contains (tileRod t))
    let steps := if 200 ≤ u ∧ u < 216 then s.stepsOn (u - 200) else []
    let t := s.now
    let s := s.putUnit { s.unitRecord u with state := 1, cause := cause, tick := t }
    let s := also.foldl (fun s v => s.putUnit { s.unitRecord v.1 with state := v.2, cause := 9, tick := t }) s
    let s := s.faultAll lost false
    let s := steps.foldl (fun s h => s.breakStep h.1 h.2) s
    let s := (List.range 16).foldl (fun s f => s.fillFrame f) s
    let s := s.colls.foldl (fun s c => if rods.any (fun r => c.bucketsOn r) then s.startRepair c.num else s) s
    (s.refreshBuffer).raiseEvent 3

/-- UNIT_OUT: the hardware reports a unit to be taken out, with its cause (R457). -/
def execUnitOut (unit : Nat) (cause : Fin 10) (s : State) : Ans :=
  if s.up && decide (unit ≤ unitHoldup) && decide (cause.val ≠ 0) then .next (s.takeOut unit cause) else .next s

/-! ### Internal faults (R451-R453) -/

/-- The number by which faults of a site are told apart. Sites without a unit record stand above unit 232. -/
def faultUnit (x : FaultSite) : Option Nat :=
  match x with
  | .rod r => some (unitRod r)
  | .reckoner n => some (unitReckoner n)
  | .tally => some 240
  | .scanner => some 241
  | .streamEngine => some 242
  | .frame f => some (unitFrame f)
  | .walker => some 243
  | .hub => some 244
  | _ => none

/-- A fault of a unit: does it persist, the second within unit_fault_window? -/
def State.noteFault (s : State) (u : Nat) : Bool × State :=
  let last : Option (Nat × Tick) := s.units.lastFault.find? (fun e => decide (e.1 = u))
  let again : Bool := match last with
    | some e => decide (s.now - e.2 ≤ s.obj 0x6200 5)
    | none => false
  let t := s.now
  (again, ({ s with units := { s.units with
    lastFault := s.units.lastFault.filter (fun (e : Nat × Tick) => decide (e.1 ≠ u)) ++ [(u, t)] } }).countFault u)

/-- INTERNAL_FAULT in its stamp tick: the commands it meets restart or end, and a fault that persists takes its unit out
or, where that cannot be, leaves the module fatal. -/
def execInternalFault (site : FaultSite) (cids : List Nat) (s : State) : Ans :=
  if !s.up then .next s
  else
    match site with
    | .hbmSystem => .next (s.raiseFatal 5)
    | .hbmCommand => .next (s.faultAll cids false)
    | .checksum _ => .next ((s.count 0x4000 5 1).faultAll cids true)
    | .carryStep checksum =>
      match s.carry.pass with
      | some p => .next (s.faultPass p checksum)
      | none => .next s
    | site =>
      match faultUnit site with
      | none => .next s
      | some u =>
        let (persists, s) := s.noteFault u
        let s := s.faultAll cids false
        if !persists then .next s
        else if u ≤ unitHoldup then .next (s.takeOut u 2)
        else .next (s.raiseFatal 1)

/-- ROD_LINK_FAILURE: replies outstanding over the link are lost in this tick; three failed retrainings within
unit_fault_window take the chip out (R451, R457). -/
def execRodLinkFailure (chip : Fin 8) (retrained : Bool) (s : State) : Ans :=
  if !s.up then .next s
  else
    let c := chip.val
    let lost := s.waitingOn (fun t => decide (tileRod t / 8 = c))
    let s := (s.count 0x6200 0x10 1).faultAll lost false
    if retrained then .next s
    else
      let old := ((s.units.retrainFails.filter (fun e => decide (e.1 = c))).map (fun e => e.2)).flatten
      let ts := (old.filter (fun t => decide (s.now - t ≤ s.obj 0x6200 5))) ++ [s.now]
      let s := { s with units := { s.units with
        retrainFails := s.units.retrainFails.filter (fun (e : Nat × List Tick) => decide (e.1 ≠ c)) ++ [(c, ts)] } }
      let s := s.countFault (unitChip c)
      if 3 ≤ ts.length then .next (s.takeOut (unitChip c) 3) else .next s

/-- NO_READY_STATUS: the commands that wait for the die restart; a second time within unit_fault_window the die goes out. -/
def execNoReadyStatus (die : Fin 128) (s : State) : Ans :=
  if !s.up then .next s
  else
    let lost := s.waitingOn (fun t => decide (tileDie t = die.val))
    let (persists, s) := s.noteFault (unitDie die)
    let s := s.faultAll lost false
    if persists then .next (s.takeOut (unitDie die) 4) else .next s

/-! ### Lost tiles (R464, R465) -/

/-- A lost map bucket is retired, and the entries that lay in it are repaired. -/
def State.retireBucket (s : State) (tile : Nat) : State :=
  s.colls.foldl (fun s c =>
    if decide (c.mapBase ≤ tile) && decide (tile < c.mapBase + c.mapTiles) then
      (s.modColl c.num (fun c => { c with retiredBuckets := c.retiredBuckets ++ [tile - c.mapBase] })).startRepair c.num
    else s) s

/-- LOST_TILE: the tile enters lost_tile; commands reading it meet an internal fault; its die goes out at its limit. When
both copies of a system tile are lost, the module is fatal with cause 5. -/
def execLostTile (tile : Nat) (system bothCopies : Bool) (s : State) : Ans :=
  if !s.up then .next s
  else if s.units.lost.contains (tile, system) then (if system && bothCopies then .next (s.raiseFatal 5) else .next s)
  else
    let readers := if system then [] else s.waitingOn (fun t => decide (t = tile))
    let s := ({ s with units := { s.units with lost := s.units.lost ++ [(tile, system)] } }).count 0x6200 0x0B 1
    let s := s.faultAll readers true
    let s := if system then (if bothCopies then s else s.rewriteCopy tile) else s.retireBucket tile
    let d := tileDie tile
    let n : Nat := (s.units.lost.filter (fun l => decide (tileDie l.1 = d) && !l.2)).length
    let s := if system && bothCopies then s.raiseFatal 5 else s
    if !system && decide (s.obj 0x6200 6 ≤ n) then .next (s.takeOut (unitDie d) 5) else .next s

/-! ### Map repair and return scan (R462, R463) -/

/-- The buckets of a collection that lie on rods out of service. -/
def State.bucketsOut (s : State) (c : Coll) : List Nat :=
  (List.range c.mapTiles).filter (fun b => !s.rodIn ((c.mapBase + b) % 64))

/-- The external id of a live graph copy, from its record: none where the tile fails its check (03 R55). -/
def State.nodeExt (s : State) (c : Coll) (d : DirEntry) (n : Nat) : Option (BitVec 64) :=
  let (t, i) := nodePlace c d.bNode n
  let b := s.cachedOrFlash c.num t
  if tileOk b (nodeExpect c d t) && decide ((decodeRecord c b i).loc.node = n) then some (decodeRecord c b i).ext else none

/-- Re-enter the map entry of a live node that the map no longer holds. -/
def State.reEnter (s : State) (coll : Nat) (ext : BitVec 64) (n : Nat) : State :=
  match s.coll? coll with
  | none => s
  | some c =>
    match mapLookup (s.mapView c) ext with
    | some _ => s
    | none => s.enterMap coll ⟨ext, n, c.gen n, 1⟩

/-- A repaired collection: a pass that repair had suspended goes on, without waiting for a CARRY. -/
def State.endRepair (s : State) (n : Nat) : State :=
  let s := s.modColl n (fun c => { c with repair := 0 })
  match s.carry.suspended.find? (fun p => decide (p.coll = n) && p.byRepair) with
  | none => s
  | some p =>
    match s.carry.pass with
    | none => s.resumePass p []
    | some _ => s.requestPass n []

/-- MAP_REPAIR, once the collection's own pass has come to its segment boundary: the records of the collection on rods in service are read, entries that lay in the buckets gone are entered
again, and those buckets are retired. -/
def execMapRepair (coll : Fin 64) (s : State) : Ans :=
  match s.coll? coll with
  | none => .next s
  | some c =>
    if s.repairCode c ≠ 2 || !s.up || !s.boot.ready || s.stopped || decide (s.carry.credit < s.repairReads c) then .next s
    else
      let gone := (c.retiredBuckets ++ s.bucketsOut c).eraseDups
      let s := s.modColl coll (fun c => { c with retiredBuckets := gone })
      let live := (s.liveNodes c s.now).filter (fun p => s.tileIn (nodePlace c p.2.bNode p.1).1)
      let s := live.foldl (fun s p => match s.nodeExt c p.2 p.1 with
        | some ext => s.reEnter coll ext p.1
        | none => s) s
      .next ((s.spend.endRepair coll).askBuckets c)

/-- RETURN_SCAN of a rod that passed bring-up: each of its live nodes is retired when its id lives elsewhere, else entered
in the map again; the rod then enters service and ATTN 3 is raised. -/
def State.scanColl (s : State) (rod : Nat) (c : Coll) : State :=
  let all := s.liveNodes c s.now
  let mine := all.filter (fun p => decide (rodOf p.1 = rod))
  mine.foldl (fun s p =>
    match s.nodeExt c p.2 p.1 with
    | none => s
    | some ext =>
      let other := (c.remLookup s.now ext).isSome
        || all.any (fun q => decide (rodOf q.1 ≠ rod) && decide (s.nodeExt c q.2 q.1 = some ext))
      if other then s.retireNodes c.num [p.1] else s.reEnter c.num ext p.1) s

/-- A rod and its dies enter service again. -/
def State.unitBack (s : State) (u : Nat) : State :=
  let r := s.unitRecord u
  s.putUnit { r with state := 0, cause := 0 }

def execReturnScan (rod : Fin 64) (s : State) : Ans :=
  if s.up && s.boot.ready && !s.stopped && decide (s.unitState (unitRod rod) = 3) && decide (s.scanReads rod ≤ s.carry.credit) then
    let s := s.colls.foldl (fun s c => (s.scanColl rod c).askBuckets c) s.spend
    .next (((s.unitBack (unitRod rod)).refreshBuffer).raiseEvent 3)
  else .next s

end Sys2Proof.Machine
end

