-- ==== Sys2Proof/Machine/Reset.lean ====
section
/-! DEFINITION. Resets (17 R425-R427, R431, R432; 12 R313) and the hold-up sequence (16 R404-R406): what each clears, the
dump, and the release of reset. The module's input and rails are in Machine/Power.lean, the boot in Machine/Boot.lean. -/
namespace Sys2Proof.Machine

/-! ### Tick L: everything stops (16 R404) -/

/-- A model after a reset: resident and loading become present; faulted stays faulted (09 R232). -/
def Model.afterReset (m : Model) : Model :=
  { m with
    state := if m.state = .faulted then .faulted else .present
    holds := 0, loadWaits := false, lastRelease := 0, loadGrant := none, loadStart := 0, hbmBase := 0, reloading := [] }

/-- A placement after a reset: what its shadow held is lost, and a move not yet switched has not happened. -/
def Placement.afterReset (l : Placement) : Placement :=
  { l with moving := false, dirty := [], filled := [], newHome := 0, newBase := 0, moveCid := 0, copied := false }

/-- Does a placement stay over a reset? That of a package whose copy was not yet whole does not. -/
def Tensor.keeps (t : Tensor) (l : Placement) : Bool :=
  decide (l.kind ≠ 2) || t.models.any (fun m => decide (m.placement = l.id))

/-- The tensor side once frames and stream engine have stopped. -/
def Tensor.afterReset (t : Tensor) : Tensor :=
  { Tensor.reset with
    models := t.models.map (fun m => m.afterReset)
    placements := (t.placements.filter (fun l => t.keeps l)).map (fun l => l.afterReset) }

/-- A collection after a reset: its history and its repair are volatile; tables, remainder and map are rebuilt (06 R165). -/
def Coll.afterReset (c : Coll) : Coll := { c with hopHistory := [], repair := 0 }

/-- A pass after a reset (06 R165): one whose plan is closed resumes after READY at the segment after the last switched;
another is abandoned. -/
def Pass.afterReset (p : Pass) : Option Pass :=
  if p.planClosed then
    some { p with phase := .writing, rewrite := none, grant := none, restarted := false, byRepair := false, waiters := [] }
  else none

/-- Suspended passes and the queue are kept without the commands that waited for them. -/
def Carry.afterReset (c : Carry) : Carry where
  queue := c.queue.map (fun r => { r with waiters := [] })
  pass := match c.pass with
    | some p => p.afterReset
    | none => none
  suspended := c.suspended.map (fun p => { p with waiters := [] })
  credit := 0
  reads := c.reads

/-- Phase 1 of tick L: no fetch, admission, completion or object write takes effect from L on; every grant is revoked;
frames, walker, reckoners and stream engine stop; reads stop and programs are aborted; the links go down. -/
def State.halt (s : State) : State :=
  { s with
    orders := [], sqs := [], cqs := [], wins := [], boxes := [], cmds := [], searches := [], tags := [], scan := none
    portA := { PortState.reset with inReset := s.portA.inReset }
    portB := { PortState.reset with inReset := s.portB.inReset }
    colls := s.colls.map (fun c => c.afterReset)
    chg := [], cache := []
    carry := s.carry.afterReset
    tensor := s.tensor.afterReset
    pwr := { s.pwr with grants := [], guard := false, riseTo := none }
    bdl := Bdl.reset
    ps := ⟨0, none, none⟩ }

/-! ### The dump (16 R404, R405; 17 R431) -/

/-- What the write buffer holds: the records not yet programmed, then the open tiles of the remainder journals. -/
def State.dumpContents (s : State) : Bytes :=
  (s.wb.open_.map (fun r => r.bytes)).flatten ++ (s.colls.map (fun k => (k.openTiles.map (fun t => k.journalTile t)).flatten)).flatten

/-- Bytes of buffer contents in a dump page (16 R405). -/
def dumpPageBytes : Nat := 16380

/-- A dump page: its part of the contents, and a CRC-32C (16 R405). -/
def dumpPage (contents : Bytes) (i : Nat) : Bytes :=
  let b := fit dumpPageBytes (slice contents (dumpPageBytes * i) dumpPageBytes)
  b ++ leBytes 4 (crc32c b).toNat

/-- Does a dump page pass its CRC? -/
def dumpPageOk (p : Bytes) : Bool := decide (fieldAt p dumpPageBytes 4 = (crc32c (p.take dumpPageBytes)).toNat)

/-- Dump the write buffer. Before the boot has erased the dump region in its stage 7 nothing is dumped, and a dump that the
region holds stays. -/
def State.takeDump (s : State) : State :=
  if s.pwr.dumpErased then
    let used := s.bufferUsed
    let recs := s.wb.open_
    let n := ceilDiv used dumpPageBytes
    let head : DumpHeader := ⟨used, n, s.now, (List.range 128).filter (fun d => s.unitIn (unitDie d))⟩
    let pages := (List.range n).map (dumpPage s.dumpContents)
    let s := { s with pwr := { s.pwr with dump := some recs, dumpHead := some head, dumpPages := pages, dumpErased := false } }
    ((s.count 0x6000 0x11 1).setObj 0x6000 0x12 0 used).count 0x4000 0x0A (n * 16384 + 16384)
  else s

/-- What the journal keeps outside the buffer: its programmed records. -/
def WriteBuf.programmedPart (w : WriteBuf) : WriteBuf :=
  { w with journal := w.journal.take (w.journal.length - w.unprogrammed), unprogrammed := 0 }

/-! ### The dies in reset (17 R427) -/

/-- The device address space with SRAM and HBM lost; host memory is not the module's. -/
def hostCells (m : List Host.Cell) : List Host.Cell := Sparse.keep (fun a => decide (0x8000000000000000 ≤ a)) m

/-- Everything a module reset or a loss of power clears, in a module that has halted. Saved objects, flash, the boot area, unit
records and lost tiles are kept; volatile objects take their defaults. The dump holds the buffer. -/
def State.cleared (s : State) : State :=
  let defaults := s.boot.defaultsAsked
  { s with
    clk := { Clock.reset with world := s.clk.world }
    dict := s.dict.filter (fun e => keptAtReset defaults e.1)
    sys := { s.sys with cfg := s.sys.cfg.filter (fun r => keptAtReset defaults (objKey r.index r.sub r.arg)) }
    wb := { s.wb.programmedPart with usable := 268435456 }
    scanFree := 0
    shares := Shares.reset
    pwr := { s.pwr with
      quiet := 0, samples := [], tempsMax := s.pwr.temps, step := 0, coolSince := none, holdupOk := false
      railFaults := List.replicate 12 0, measured := none, energy := 0, peak := 0 }
    units := { s.units with lastFault := [], retrainFails := [], fatalCause := 0, fatals := [] }
    boot := { Boot.reset with
      stage := 0, area := s.boot.area, cause := s.boot.cause, cold := s.boot.cold, dbgSel := s.boot.dbgSel
      tdo := s.boot.tdo, split := s.boot.split, updates := s.boot.updates }
    table := ⟨[], [], false, false, 0, 0, 0⟩
    mem := hostCells s.mem }

/-- The whole hold-up sequence: the buffer is dumped, and the state that power holds is lost. -/
def State.holdUp (s : State) : State :=
  (s.halt.takeDump).cleared

/-- Hold-up at input loss: after the dump header the rails go off; the next start is a cold power-on (16 R402, R404). -/
def State.powerDown (s : State) : State :=
  let s := s.holdUp
  { s with pwr := { s.pwr with phase := .off, pwrGood := false } }

/-! ### Module reset (17 R426) -/

/-- Phase 1 of the tick of a module reset: the hold-up sequence begins, with the rails on. -/
def State.beginReset (s : State) (cause : Nat) : State :=
  let s := s.halt
  { s with
    pwr := { s.pwr with phase := .holdup s.clk.world true }
    boot := { s.boot with cause := cause, cold := false } }

/-- The dump ends and the dies are held in reset. -/
def State.endDump (s : State) : State :=
  let s := (s.takeDump).cleared
  { s with pwr := { s.pwr with phase := .held s.clk.world } }

/-- MODULE_RESET_EFFECT: a module reset stamped takes effect: the dump with the rails on, then the dies held in reset. -/
def execModuleResetEffect (s : State) : Ans :=
  match s.pwr.phase with
  | .holdup _ _ => .next s.endDump
  | _ => .next s

/-- Boot starts at stage 1; the counter counts from 0 (02 R21). fatal_last_cause takes the last journalled cause
(18 R467). -/
def State.startBoot (s : State) : State :=
  let s := s.setObj 0x6200 0x0D 0 s.units.fatalJournal
  { s with
    pwr := { s.pwr with phase := .on, dumpErased := false }
    boot := { s.boot with stage := 1, stageStart := s.clk.world } }

/-- RESET_RELEASE: 1 ms after the dump's end or after MRST# rises, whichever is later. -/
def execResetRelease (s : State) : Ans :=
  match s.pwr.phase with
  | .held since =>
    if !s.pwr.mrstLow && decide (since + 1000 ≤ s.clk.world) && decide (s.pwr.mrstRise + 1000 ≤ s.clk.world) then .next s.startBoot
    else .next s
  | _ => .next s

/-- MRST: a falling edge is stamped as a module reset; during hold-up or with the input off it has no further effect
(19 R484). -/
def execMrst (asserted : Bool) (s : State) : Ans :=
  if asserted then
    let s' := { s with pwr := { s.pwr with mrstLow := true } }
    if s.pwr.mrstLow || !s.up then .next s' else .next (s'.order 1 0 (.moduleReset 4))
  else if s.pwr.mrstLow then .next { s with pwr := { s.pwr with mrstLow := false, mrstRise := s.clk.world } }
  else .next s

/-! ### Port and function resets (12 R313; 17 R427) -/

/-- The registers of a port after a port reset. Pending events, event counts and counters are kept. -/
def PortState.portReset (x : PortState) : PortState :=
  { PortState.reset with
    inReset := x.inReset, pending := x.pending, raiseSeq := x.raiseSeq, evCount := x.evCount
    doorbellErrors := x.doorbellErrors, cqFetchHolds := x.cqFetchHolds, sqsHalted := x.sqsHalted
    aerStatus := x.aerStatus, aerHeader := x.aerHeader, aerPrefix := x.aerPrefix
    aerCorrectable := x.aerCorrectable, aerUncorrectable := x.aerUncorrectable, msixSent := x.msixSent }

/-- The port that an order came from. -/
def Order.port? (o : Order) : Option Port := if o.rank = 3 then some .A else if o.rank = 4 then some .B else none

/-- The command of an order that is a command's effect. -/
def Order.cid? (o : Order) : Option Nat :=
  match o.body with
  | .effect cid _ => some cid
  | _ => none

/-- The function whose queues, window or mailbox an order came from. -/
def State.orderFn (s : State) (o : Order) : Option Nat :=
  match o.body with
  | .win _ fn _ _ _ => some fn
  | .mbxSend _ fn _ _ => some fn
  | .mbxHead _ fn _ => some fn
  | .sqDoorbell _ fn _ _ => some fn
  | .cqDoorbell _ fn _ _ => some fn
  | .effect cid _ => (s.cmd? cid).map (fun c => c.fn)
  | _ => none

/-- Discard orders stamped in this tick; the commands among them get no completion (02 R39). -/
def State.discard (s : State) (p : Order → Bool) : State :=
  let gone := s.orders.filter p
  let cids := gone.filterMap (fun o => o.cid?)
  { s with orders := s.orders.filter (fun o => !p o), cmds := s.cmds.filter (fun c => !cids.contains c.cid) }

/-- Forget the windows and inboxes of a port, or of one function of it (14 R375). -/
def State.clearBar4 (s : State) (p : Port) (fn : Option Nat) : State :=
  let mine (k : Nat) : Bool := decide (k / 64 = p.num) && (match fn with | none => true | some n => decide (k % 64 = n))
  { s with wins := Sparse.keep (fun k => !mine k) s.wins, boxes := Sparse.keep (fun k => !mine k) s.boxes }

/-- End SPDM on a port. -/
def State.endSpdm (s : State) (p : Port) : State :=
  match p with
  | .A => { s with boot := { s.boot with spdmA := Spdm.reset } }
  | .B => { s with boot := { s.boot with spdmB := Spdm.reset } }

/-- Forget the translations of a port, or of one function of it. -/
def State.dropAtc (s : State) (p : Port) (fn : Option Nat) : State :=
  { s with tensor := { s.tensor with
      atc := s.tensor.atc.filter (fun e => !(decide (e.port = p.num) && (match fn with | none => true | some n => decide (e.fn = n)))) } }

/-- A port reset in phase 1. -/
def State.applyPortReset (s : State) (p : Port) : State :=
  let t := s.now
  let s := s.discard (fun o => decide (o.stamp ≤ t) && decide (o.port? = some p))
  let s := (s.killQueues p none).modPort p (fun x => x.portReset)
  ((s.clearBar4 p none).endSpdm p).dropAtc p none

/-- An edge of PERST# in phase 1: while asserted the port is held in reset. -/
def State.applyPerst (s : State) (p : Port) (asserted : Bool) : State :=
  if asserted then (s.applyPortReset p).modPort p (fun x => { x with inReset := true })
  else s.modPort p (fun x => { x with inReset := false })

/-- A function-level reset in phase 1. That of the PF also clears VF Enable. -/
def State.applyFlr (s : State) (p : Port) (fn : Nat) : State :=
  let t := s.now
  let s := s.discard (fun o => decide (o.stamp ≤ t) && decide (o.port? = some p) && decide (s.orderFn o = some fn))
  let s := s.killQueues p (if fn = 0 then none else some fn)
  let s := s.modPort p (fun x => { x with
    priBlocked := x.priBlocked.filter (fun n => decide (n ≠ fn)), vfs := if fn = 0 then 0 else x.vfs
    relaxed := x.relaxed ||| (1#64 <<< fn)
    vecMask := x.vecMask.filter (fun v => decide (v.1 ≠ fn)), vecPending := x.vecPending.filter (fun v => decide (v.1 ≠ fn)) })
  let s := if fn = 0 then s.endSpdm p else s
  (s.clearBar4 p (some fn)).dropAtc p (some fn)

/-- Order of resets within rank 1 (02 R36). -/
def resetSub (p : Port) (fn : Nat) : Nat := 1 + 100 * p.num + fn

/-- PERST: each edge is stamped. With the module itself in reset only the level counts. -/
def execPerst (p : Port) (asserted : Bool) (s : State) : Ans :=
  if s.up then .next (s.order 1 (resetSub p 0) (.perst p asserted))
  else .next (s.modPort p (fun x => { x with inReset := asserted }))

/-- HOT_RESET received on a link resets its port as PERST# does. -/
def execHotReset (p : Port) (s : State) : Ans :=
  if s.takes p then .next (s.order 1 (resetSub p 0) (.portReset p)) else .next s

/-- FUNCTION_LEVEL_RESET is stamped; it needs an enabled function. -/
def execFunctionLevelReset (p : Port) (fn : Fin 64) (s : State) : Ans :=
  if s.takes p && decide (fn.val ≤ (s.port p).vfs) then .next (s.order 1 (resetSub p (1 + fn.val)) (.flr p fn)) else .next s

end Sys2Proof.Machine
end

