-- ==== Sys2Proof/Machine/Power.lean ====
section
/-! DEFINITION. Power and heat (16): the input and the rails, the governor's decisions, the guard, the thermal steps. -/
namespace Sys2Proof.Machine

/-! ### The governor (R409-R413) -/

/-- The frames of a step. -/
def State.stepFrame (s : State) (h p : Nat) : Nat :=
  ((s.stepCtxs h p).map (fun c => c.frame)).foldl min 16

/-- Order of requests in a pool: tick, then kind, then frame, handle or die (R412). -/
def State.grantKey (s : State) (g : Grant) : List Nat :=
  match g.kind with
  | .carrySegment n => [g.asked, 0, n, g.gid]
  | .modelLoad h => [g.asked, 1, h, g.gid]
  | .frameStep h p => [g.asked, 2, s.stepFrame h p, g.gid]
  | .rescore cid _ => [g.asked, 2, (((s.cmd? cid).map (fun c => s.partFrames c.part)).getD []).foldl min 16, g.gid]
  | .nand d _ _ => [g.asked, 3, d, g.gid]
  | .program _ t _ _ => [g.asked, 3, tileDie t, g.gid]
  | .erase d _ _ => [g.asked, 3, d, g.gid]
  | .block _ n _ => [g.asked, 3, blockDie n, g.gid]
  | .eraseBlock n => [g.asked, 3, blockDie n, g.gid]
  | .bootArea _ => [g.asked, 3, 0, g.gid]

/-- The requests of a pool to be decided in this tick, in order. -/
def State.requests (s : State) (media : Bool) : List Grant :=
  sortBy (fun a b => decide (s.grantKey a ≤ s.grantKey b))
    (s.pwr.grants.filter (fun g => !g.granted && !g.releasing && (g.media == media) && decide (g.asked < s.now)))

/-- Give a grant. -/
def State.give (s : State) (gid : Nat) : State :=
  { s with pwr := { s.pwr with
      grants := mapWhere (fun g => decide (g.gid = gid)) (fun g => { g with granted := true }) s.pwr.grants } }.count 0x6000 9 1

/-- Serve a pool in order; none is granted ahead of one held. Answers the requests held. -/
def State.servePool (pool : Nat) (media : Bool) : State → List Grant → List Grant × State
  | s, [] => ([], s)
  | s, g :: gs =>
    if s.heldUnits media + g.units ≤ pool then State.servePool pool media (s.give g.gid) gs
    else (g :: gs, s)

/-- The commands that a request keeps waiting. -/
def State.grantWaiters (s : State) (g : Grant) : List Nat :=
  match g.kind with
  | .carrySegment n => (match s.carry.pass with
    | some p => if p.coll = n then p.waiters else []
    | none => [])
  | .modelLoad h => (s.cmds.filter (fun c => decide (c.stage = .modelWait h))).map (fun c => c.cid)
  | .frameStep h p => (s.stepSeqs h p).map (fun q => q.cid)
  | .rescore cid _ => [cid]
  | .nand _ _ _ => g.cid.toList
  | .program (.carry n) _ _ _ => (match s.carry.pass with
    | some p => if p.coll = n then p.waiters else []
    | none => [])
  | .program (.move id) _ _ _ => ((s.placement? id).map (fun l => l.moveCid)).toList
  | .program _ _ _ _ => g.cid.toList
  | .erase _ _ _ => []
  | .block (.entry n _) _ _ => (match s.carry.pass with
    | some p => if p.coll = n then p.waiters ++ g.cid.toList else g.cid.toList
    | none => g.cid.toList)
  | .block _ _ _ => g.cid.toList
  | .eraseBlock _ => []
  | .bootArea cid => [cid]

/-- Set pwr_limit_active; ATTN 2 when it changes (R413). -/
def State.limitActive (s : State) : State :=
  if s.obj 0x6000 0x0C = 0 then (s.setObj 0x6000 0x0C 0 1).raiseEvent 2 else s

/-- The decisions of a tick: releases first, then each pool. Answers the commands that waited. -/
def State.govern (s : State) : List Nat × State :=
  let s := { s with pwr := { s.pwr with grants := s.pwr.grants.filter (fun g => !g.releasing) } }
  let (h1, s) := State.servePool s.generalPool false s (s.requests false)
  let (h2, s) := State.servePool s.mediaReserve true s (s.requests true)
  let held := h1 ++ h2
  let s := s.count 0x6000 0x0A held.length
  let s := if held.isEmpty then s else s.limitActive
  let quiet := if held.isEmpty && !s.pwr.guard then s.pwr.quiet + 1 else 0
  ((held.map (fun g => s.grantWaiters g)).flatten.eraseDups, { s with pwr := { s.pwr with quiet := quiet } })


/-- What the last program of a use lets go on. -/
def State.programmed (s : State) (u : ProgUse) (cid : Option Nat) : State :=
  match u with
  | .carry n => s.rewriteDurable n
  | .build c => s.endBuild c
  | .load c => s.endCopy c
  | .writeBack _ => match cid with
    | some c => s.endFlush c
    | none => s
  | .move _ => s
  | .alone => s

/-- What the last copy of a block lets go on. -/
def State.blockDone (s : State) (u : SysUse) (cid : Option Nat) : State :=
  if s.blocking u then s
  else
    match u with
    | .records rs => s.recordsProgrammed rs
    | .entry n _ => (match cid with
      | some c => s.endBuild c
      | none => s.rewriteDurable n)
    | .descHead n => s.rewriteDurable n
    | .slice _ _ => s
    | .descBody _ => s
    | .config => s

/-- GRANT_RELEASE of a NAND program or erase: the die reports completion, the tile is on flash or the tiles are gone, its units
go back at the next decisions. Other operations give their grants back where they end (R410). -/
def execGrantRelease (gid : Nat) (s : State) : Ans :=
  match s.pwr.grants.find? (fun g => decide (g.gid = gid) && g.granted && !g.releasing) with
  | none => .next s
  | some g =>
    match g.kind with
    | .nand _ coll tile =>
      let fresh := match s.coll? coll with
        | some k => k.rem.any (fun i => !i.programmed && (k.remTiles i.seq).contains tile)
        | none => false
      let s := (if fresh then s.programJournal coll tile else s).endGrant gid
      match g.cid with
      | some cid => .next (s.endFlush cid)
      | none => .next s
    | .program u t part bs =>
      let s := if s.tileIn t then s.program t part bs else s
      .next ((s.endGrant gid).programmed u g.cid)
    | .erase d b n => .next ((s.eraseTiles d b n).endGrant gid)
    | .block u n bs => .next (((s.putBlock u n bs).endGrant gid).blockDone u g.cid)
    | .eraseBlock n => .next ((s.eraseBlock n).endGrant gid)
    | _ => .next s

/-- PWR_LIMIT_ACTIVE_CLEAR after 100,000 consecutive tk without a held request or the guard (R413). -/
def execPwrLimitActiveClear (s : State) : Ans :=
  if 100000 ≤ s.pwr.quiet then .next (s.setObj 0x6000 0x0C 0 0) else .next s

/-! ### The guard (R415) and the measurements (R419) -/

/-- Sum of the samples of the last 1,000 tk, and their number. -/
def Power.sampled (p : Power) : Nat × Nat := (sumBy id p.samples, p.samples.length)

/-- The 1 ms mean, in 0.5 W units. -/
def Power.mean (p : Power) : Nat := p.sampled.1 / max 1 p.sampled.2

/-- Engage the guard. -/
def State.engageGuard (s : State) : State :=
  if s.pwr.guard then s
  else ({ s with pwr := { s.pwr with guard := true } }.count 0x6000 0x0B 1).limitActive

/-- GUARD: the input power of a 10 µs sample joins the mean; the voltages and currents measured with it have no stated value. Above 95 % of the effective limit the guard engages; it ends below
90 %, but stays while the thermal step is 3. -/
def execGuard (sample : BitVec 16) (s : State) : Ans :=
  if !s.up then .next s
  else
    let ss := (sample.toNat :: s.pwr.samples).take 100
    let s := { s with
      pwr := { s.pwr with samples := ss, energy := s.pwr.energy + 5 * sample.toNat, measured := some s.free }
      free := s.free + 26 }
    let mw := 500 * sumBy id ss / max 1 ss.length
    let s := ({ s with pwr := { s.pwr with peak := max s.pwr.peak mw } }).setObj 0x6100 3 0 mw
    let (sum, n) := s.pwr.sampled
    if 95 * s.effLimit * n < 100 * sum then .next s.engageGuard
    else if 100 * sum < 90 * s.effLimit * n ∧ s.pwr.step ≠ 3 then .next { s with pwr := { s.pwr with guard := false } }
    else .next s

/-! ### Heat (R417, R418) -/

/-- The highest step whose threshold some zone has reached. -/
def thermalStepOf (temps : List Int) : Nat := ((List.range 6).map (fun z => zoneStep temps z)).foldl max 0

/-- Is every zone at least 5 °C below the thresholds of a step? -/
def coolFor (temps : List Int) (step : Nat) : Bool :=
  temps.zipIdx.all (fun p => decide (p.1 + 5000 ≤ (zoneLimits (sensorZone p.2)).getD (step - 1) 0))

/-- Since when it has been cool, judged now. -/
def Power.coolNow (p : Power) (t : Tick) : Option Tick :=
  if p.step ≠ 0 && coolFor p.temps p.step then some (p.coolSince.getD t) else none

/-- THERMAL_SAMPLE in a tick that is a multiple of 100. A rise takes effect in phase 2 of the next tick. -/
def execThermalSample (readings : List Int) (s : State) : Ans :=
  if s.up && decide (s.now % 100 = 0) && decide (readings.length = 47) then
    let step := thermalStepOf readings
    let p := { s.pwr with
      temps := readings
      tempsMax := (s.pwr.tempsMax.zip readings).map (fun (t : Int × Int) => max t.1 t.2)
      riseTo := if s.pwr.step < step then some step else s.pwr.riseTo }
    .next { s with pwr := { p with coolSince := p.coolNow s.now } }
  else .next s

/-- The rise of the thermal step in phase 2: events, counts, and at step 4 the fatal condition that leads to hold-up. -/
def State.thermalRise (s : State) : State :=
  match s.pwr.riseTo with
  | none => s
  | some b =>
    let a := s.pwr.step
    let s := { s with pwr := { s.pwr with step := max a b, riseTo := none, coolSince := none } }
    if b ≤ a then s
    else
      let s := (List.range (b - a)).foldl (fun s i => s.count 0x6001 0 1 (a + 1 + i)) s
      let s := if b = 3 then s.engageGuard else s
      if b = 4 then s.raiseFatal 4 else s.raiseEvent 1

/-- THERMAL_STEP_FALL by one, after 100,000 consecutive tk of every zone at least 5 °C below the present thresholds. -/
def execThermalStepFall (s : State) : Ans :=
  match s.pwr.coolSince with
  | none => .next s
  | some t =>
    if s.up && decide (s.pwr.step ≠ 0) && decide (s.pwr.step ≠ 4) && decide (t + 100000 ≤ s.now) then
      let p := { s.pwr with step := s.pwr.step - 1, coolSince := none }
      .next { s with pwr := { p with coolSince := p.coolNow (s.now + 1) } }
    else .next s

/-! ### The input and the rails (R402-R404; 19 R479, R484, R485) -/

/-- COLD_POWER_ON: the input has passed the start threshold after its ramp; the rails are up and boot begins, unless MRST#
holds the module in reset. -/
def execColdPowerOn (s : State) : Ans :=
  match s.pwr.phase with
  | .off =>
    let s := { s with boot := { s.boot with cause := 1, cold := true }, pwr := { s.pwr with pwrGood := true } }
    if s.pwr.mrstLow then .next { s with pwr := { s.pwr with phase := .held (s.clk.world - 1000) } }
    else .next s.startBoot
  | _ => .next s

/-- INPUT_LOSS: hold-up, then the rails off. During the inrush ramp it ends the ramp (19 R479). -/
def execInputLoss (s : State) : Ans :=
  match s.pwr.phase with
  | .off => .next { s with pwr := { s.pwr with phase := .rampWait s.clk.world } }
  | .rampWait _ => .next s
  | _ => .next s.powerDown

/-- INRUSH_RESTART: 100 ms after the ramp ended it starts again. -/
def execInrushRestart (s : State) : Ans :=
  match s.pwr.phase with
  | .rampWait t => if t + 100000 ≤ s.clk.world then .next { s with pwr := { s.pwr with phase := .off } } else .next s
  | _ => .next s

/-- OVERVOLTAGE: the input switch opens and hold-up follows. -/
def execOvervoltage (s : State) : Ans :=
  match s.pwr.phase with
  | .off => .next s
  | .rampWait _ => .next s
  | _ => .next s.powerDown

/-- LOW_INPUT is counted; service continues. -/
def execLowInput (s : State) : Ans :=
  if s.up then .next (s.count 0x6000 0x0D 1) else .next s

/-- Rails whose fault starts the hold-up sequence: IB, VDD_HUB, VDD_SRAM and the HBM rails. -/
def railHoldsUp (r : Nat) : Bool := [0, 1, 3, 4, 5, 6].contains r

/-- RAIL_FAULT: ATTN 15; hold-up, or fatal with cause 3. -/
def execRailFault (rail : Fin 12) (s : State) : Ans :=
  match s.pwr.phase with
  | .off => .next s
  | .rampWait _ => .next s
  | _ =>
    let r := rail.val
    let s := { s with pwr := { s.pwr with railFaults := s.pwr.railFaults.set r (s.pwr.railFaults.getD r 0 + 1) } }
    if railHoldsUp r then .next (s.raiseEvent 15).powerDown
    else if s.up then .next (s.raiseFatal 3) else .next s

end Sys2Proof.Machine
end

