-- ==== Sys2Proof/Machine/Boot.lean ====
section
/-! DEFINITION. Boot (17 R428-R443): the stages from reset release to READY and to full index availability, recovery, and what
each stage rebuilds. -/
namespace Sys2Proof.Machine

/-! ### Recovery (R438) -/

/-- The boot ROM enters recovery: PFs with BAR0, BAR2 and the admin pair only; Beadline and VFs down. -/
def State.enterRecovery (s : State) (cause : Nat) : State :=
  let s := (s.setObj 0x7000 0x0D 0 cause).setObj 0x5000 4 0 3
  { s with
    boot := { s.boot with recovery := true, ready := true, running := none }
    portA := { s.portA with vfs := 0 }
    portB := { s.portB with vfs := 0 }
    bdl := Bdl.reset }

/-! ### What the stages do -/

/-- Advance to the next stage, noting the duration in ms of the one that ends (0x2001:04). -/
def State.nextStage (s : State) : State :=
  let k := s.boot.stage
  let ms := (s.clk.world - s.boot.stageStart) / 1000
  let t := s.clk.world
  let s := s.setObj 0x2001 4 k ms
  { s with boot := { s.boot with stage := k + 1, stageStart := t } }

/-- How many bits of the 16 KiB fingerprint block in error the helper data corrects: 12 % (R440). -/
def fingerprintTolerance : Nat := 131072 * 12 / 100

/-- Stage 1: the device root secret. Without it the identity is lost, and the boot stops at stage 8 (R440, R443). -/
def State.readFingerprint (s : State) (errors : Nat) : State :=
  if errors ≤ fingerprintTolerance then (s.setObj 0x7000 0x0B 0 errors).nextStage
  else ({ s with boot := { s.boot with identityFailed := true } }).nextStage

/-- Stages 2 and 3: the image of the boot area, checked again by the ROM (R434, R438). -/
def State.checkImage (s : State) : State :=
  match s.boot.area with
  | none => s.enterRecovery 1
  | some f =>
    match f.fail with
    | 0 => ({ s with boot := { s.boot with running := some f } }).nextStage
    | 1 => s.enterRecovery 3
    | 2 => s.enterRecovery 2
    | _ => s.enterRecovery 1

/-- Bring-up finds a unit in order: one that was out before the reset comes back, a rod by way of a return scan (18 R458,
R463). -/
def UnitRec.broughtUp (r : UnitRec) : UnitRec :=
  if r.unit = unitHoldup then r
  else if r.unit < 64 && decide (r.state ≠ 0) then { r with state := 3 }
  else { r with state := 0, cause := 0 }

/-- Stage 5: every unit is tested afresh; those that failed are taken out with cause 1. -/
def State.bringUp (s : State) (failed : List Nat) : State :=
  let s := { s with units := { s.units with recs := s.units.recs.map UnitRec.broughtUp } }
  (failed.foldl (fun s u => if u < unitHoldup then s.takeOut u 1 else s) s).refreshBuffer

/-- Stage 6: the hold-up capacitance, measured or kept, and what it allows (16 R408). -/
def State.applyCapacitance (s : State) (measured : Nat) : State :=
  let s := if s.boot.cold then s.setObj 0x6000 0x0F 0 measured else s
  let c := s.obj 0x6000 0x0F
  let r := s.unitRecord unitHoldup
  if 6800 ≤ c then
    let s := s.putUnit { r with state := 0, cause := 0 }
    ({ s with pwr := { s.pwr with holdupOk := true } }).refreshBuffer
  else
    let t := s.now
    let s := ((s.putUnit { r with state := 1, cause := 8, tick := t }).refreshBuffer).raiseEvent 3
    if c < 3400 then s.raiseFatal 6 else s

/-- The pages of the dump that fail their CRC (16 R407). -/
def State.badPages (s : State) : List Nat :=
  (s.pwr.dumpPages.zipIdx.filter (fun p => !dumpPageOk p.1)).map (fun p => p.2)

/-- Is a record of the dump lost with a page of 16,380 bytes? Records follow each other from the start. -/
def splitDump (lost : List Nat) : Nat → List JRec → List JRec × List JRec
  | _, [] => ([], [])
  | o, r :: rs =>
    let (kept, gone) := splitDump lost (o + r.length) rs
    if lost.any (fun p => decide (o < 16380 * (p + 1)) && decide (16380 * p < o + r.length)) then (kept, r :: gone)
    else (r :: kept, gone)

/-- A record that the dump lost: the rebuilt tables hold no effect of it (16 R407). -/
def State.undo (s : State) (kept : List JRec) (r : JRec) : State :=
  let s := if r.kind = 1 ∨ r.kind = 2 then
      s.modColl r.coll (fun k => { k with rem := k.rem.filter (fun i => !(decide (some i.seq = r.seq) && decide (i.ext = r.ext))) })
    else s
  if r.kind = 2 ∨ r.kind = 3 then
    let s := s.modColl r.coll (fun k => { k with
      rem := mapWhere (fun i => decide (i.ext = r.ext) && decide (i.deleteTick = some r.tick)) (fun i => { i with deleteTick := none }) k.rem })
    let other := kept.any (fun x => decide (x.coll = r.coll) && decide (x.ext = r.ext) && (decide (x.kind = 2) || decide (x.kind = 3)))
    if other then s
    else
      match s.coll? r.coll with
      | none => s
      | some k =>
        match mapLookup k r.ext with
        | some e => s.modColl r.coll (fun k => { k with tombs := k.tombs.filter (fun n => decide (n ≠ e.node)) })
        | none => s
  else if r.kind = 4 ∨ r.kind = 5 then
    match s.carry.pass with
    | some p => if p.coll = r.coll ∧ p.number = r.pass then s.setPass none else s
    | none => s
  else s

/-- Stage 7: the dump goes back into the buffer, to its normal places, and is erased. Lost pages are counted, with ATTN 7
(16 R407). -/
def State.restoreDump (s : State) (pagesLost : List Nat) (headerLost : Bool) : State :=
  match s.pwr.dump with
  | none => { s with pwr := { s.pwr with dumpErased := true } }
  | some recs =>
    let pagesLost := (pagesLost ++ s.badPages).eraseDups
    let (kept, gone) := if headerLost then ([], recs) else splitDump pagesLost 0 recs
    let pages := if headerLost then 1 else pagesLost.length
    let s := if pages = 0 then s else (s.count 0x6000 0x13 pages).raiseEvent 7
    let s := { s with
      wb := { s.wb with journal := s.wb.journal ++ kept, unprogrammed := 0 }
      pwr := { s.pwr with dump := none, dumpHead := none, dumpPages := [], dumpErased := true } }
    let s := gone.foldl (fun s r => s.undo s.wb.journal r) s
    let s := s.colls.foldl (fun s k => k.openTiles.foldl (fun s t => s.programJournal k.num t) s) s
    s.putRecords kept.length kept

/-- The records of the mutation journal that no block yields whole are ignored, and the tables hold no effect of them (06
R149). -/
def State.readJournal (s : State) : State :=
  let gone := s.wb.journal.filter (fun r => !s.recordHeld r)
  let s := { s with wb := { s.wb with journal := s.wb.journal.filter (fun r => s.recordHeld r) } }
  gone.foldl (fun s r => s.undo s.wb.journal r) s

/-- The directory of a collection as the journal gives it: of every segment the valid entry of the highest generation
(03 R69). -/
def State.journalDir (s : State) (c : Coll) : List DirEntry :=
  let es := s.journalEntries c.num
  (List.range c.segments).filterMap (fun g => newestEntry (es.filter (fun d => decide (d.segment = g) && !d.dropped)))

/-- The tables of a collection as stage 9 rebuilds them: the directory of the journal, the items not retired (03 R69;
06 R165). What happened before the boot lies before every tick of the counter, which counts from 0 again (02 R21). -/
def Coll.rebuilt (c : Coll) (dir : List DirEntry) : Coll :=
  { c with
    dir := dir.map (fun d => { d with switchTick := 0 })
    rem := (c.rem.filter (fun i => decide (i.retiredTick = none))).map (fun i =>
      { i with commitTick := 0, deleteTick := i.deleteTick.map (fun _ => 0) })
    dropTick := 0 }

/-- A pass begun before the boot. -/
def Pass.rebuilt (p : Pass) : Pass :=
  { p with start := 0, phase := match p.phase with | .suspended _ => .suspended 0 | x => x }

/-- Stage 9: the tables over the journals, and the carry queue in its order (06 R156, R165). Tiles of old segments are free. -/
def State.rebuildTables (s : State) : State :=
  let s := s.readJournal
  let s := s.colls.foldl (fun s k =>
    let dir := s.journalDir k
    (k.dir.filter (fun d => !dir.any (fun e => decide (e.bNode = d.bNode)))).foldl (fun s d => s.releaseEntry k.num d) s) s
  let q := sortBy reqBefore s.carry.queue
  { s with
    colls := s.colls.map (fun c => c.rebuilt (s.journalDir c))
    wb := { s.wb with journal := s.wb.journal.map (fun r => { r with tick := 0 }) }
    carry :=
      { s.carry with
        queue := q.zipIdx.map (fun p => { p.1 with tick := p.2 })
        pass := s.carry.pass.map (fun p => p.rebuilt)
        suspended := s.carry.suspended.map (fun p => p.rebuilt) } }

/-- The saved slots of the shadow bank (02 R47). -/
def State.savedSlots (s : State) : List (Nat × BitVec 256) :=
  (s.dict.filter (fun e => decide (e.1 / 2 ^ 40 = 0x3011))).map (fun e => (e.1 % 2 ^ 32, BitVec.ofNat 256 e.2))

/-- READY's common part (R429): the step lies before the edge of the next tick, in which the report is made. -/
def State.reportReady (s : State) : State :=
  let t := s.now + 1
  let s := (s.setObj 0x2001 2 0 t).setObj 0x5000 4 0 0
  { s with boot := { s.boot with ready := true } }

/-- Stage 8: the configuration journal; a new queue split; debug_active (R448). Without an identity the device stops here
(R443): nothing stored can be read. -/
def State.replayConfig (s : State) (identityLost : Bool) : State :=
  if identityLost || s.boot.identityFailed then
    let s := { s with
      dict := [], colls := [], carry := ⟨[], none, [], 0, 0⟩, wb := { s.wb with journal := [], unprogrammed := 0 }
      tensor := Tensor.reset
      boot := { s.boot with identityFailed := true } }
    ((s.reportReady).raiseEvent 7).raiseFatal 7
  else
    let s := s.cfgReplay
    let s := { s with
      boot := { s.boot with split := s.obj 0x2010 1 }
      table := { s.table with bank0 := [], bank1 := s.savedSlots, active := false } }
    let d := s.obj 0x7000 3
    let s := s.setObj 0x7000 4 0 d
    (if d = 1 then s.raiseEvent 7 else s).nextStage

/-- Stage 10: entry-set tiles are pinned; collections with buckets on rods still out go to map repair (18 R462). -/
def State.loadColls (s : State) : State :=
  let s := s.colls.foldl (fun s k => s.pinEntrySet k) s
  s.colls.foldl (fun s k =>
    if (s.bucketsOut k).all (fun b => k.retiredBuckets.contains b) then s else s.modColl k.num (fun k => { k with repair := 1 })) s

/-- A module with manager rights takes the role at READY (15 R388). -/
def State.takeManager (s : State) : State :=
  if s.obj 0x1100 3 = 1 then { s with bdl := { s.bdl with manager := true, nodeId := 0, state := 2 } } else s

/-- READY: lock_at_ready, the manager role, and the pass that a reset interrupted (R429; 14 R365; 06 R165). -/
def State.ready (s : State) : State :=
  let s := s.nextStage
  let s := { s with boot := { s.boot with stage := 11 } }
  let s := ((s.reportReady).setLocks (BitVec.ofNat 5 (s.obj 0x2000 6))).takeManager
  match s.carry.pass with
  | some p => s.resumePass p []
  | none => s

/-- Must READY wait for the first lock (02 R27)? -/
def State.awaitsLock (s : State) : Bool :=
  decide (s.obj 0x3000 5 = 1) && !s.clk.everLocked && decide (s.now < s.obj 0x3000 6)

/-- Stage 11: READY, free-running with ATTN 8 when the wait for a lock has run out. -/
def State.tryReady (s : State) : State :=
  if s.awaitsLock then s
  else if s.obj 0x3000 5 = 1 ∧ s.clk.everLocked = false then s.ready.raiseEvent 8
  else s.ready

/-- BOOT_STAGE: the present stage completes with what it found. -/
def execBootStage (result : StageResult) (data : StageData) (s : State) : Ans :=
  if !s.up || s.boot.ready then .next s
  else
    match result with
    | .bootAreaUnreadable => if s.boot.stage = 2 then .next (s.enterRecovery 4) else .next s
    | .hbmFailed => if s.boot.stage = 4 ∧ s.units.fatalCause ≠ 2 then .next (s.raiseFatal 2) else .next s
    | .identityFailed =>
      if s.boot.stage = 1 then .next ({ s with boot := { s.boot with identityFailed := true } }).nextStage
      else if s.boot.stage = 8 then .next (s.replayConfig true)
      else .next s
    | .ok failed =>
      if s.stopped then .next s
      else
        match s.boot.stage with
        | 1 => .next (s.readFingerprint data.fingerprintErrors.toNat)
        | 2 => if s.boot.area.isNone then .next (s.enterRecovery 1) else .next s.nextStage
        | 3 => .next s.checkImage
        | 4 => .next ({ s with boot := { s.boot with managementStarted := true } }).nextStage
        | 5 => .next (s.bringUp failed).nextStage
        | 6 => .next (s.applyCapacitance data.capacitance.toNat).nextStage
        | 7 => .next (s.restoreDump data.pagesLost data.headerLost).nextStage
        | 8 => .next (s.replayConfig false)
        | 9 => .next s.rebuildTables.nextStage
        | 10 => .next s.loadColls.nextStage
        | 11 => .next s.tryReady
        | _ => .next s

/-- MANAGEMENT_START_TIMEOUT: 500 ms after stage 3 the management cores have not reported (R438). -/
def execManagementStartTimeout (s : State) : Ans :=
  if s.up && decide (s.boot.stage = 4) && !s.boot.managementStarted && !s.boot.ready
      && decide (s.boot.stageStart + 500000 ≤ s.clk.world) then
    .next (s.enterRecovery 5)
  else .next s

/-- FULL_INDEX_AVAILABILITY after READY: every die in service has finished its calibration (R430). -/
def execFullIndexAvailability (s : State) : Ans :=
  if s.up && s.boot.ready && decide (s.boot.stage = 11) && !s.boot.recovery && !s.boot.identityFailed then
    let t := s.now
    .next ({ s with boot := { s.boot with stage := 12 } }.setObj 0x2001 3 0 t)
  else .next s

/-- TICK_SYNC_WAIT_LIMIT: the limit has passed before the first lock (02 R27). -/
def execTickSyncWaitLimit (s : State) : Ans :=
  if s.up && decide (s.boot.stage = 11) && !s.boot.ready && decide (s.obj 0x3000 5 = 1) && !s.clk.everLocked
      && decide (s.obj 0x3000 6 ≤ s.now) then
    .next s.tryReady
  else .next s

end Sys2Proof.Machine
end

