-- ==== Sys2Proof/Machine/Beadline.lean ====
section
/-! DEFINITION. The Beadline station (15): frames received, forwarded and sent, tick alignment, object access, events and
liveness, node control, links. What the line itself does with a frame (forwarding, answering a DELAY_REQ, measuring) is done
as it arrives; its effect on the station is an order stamped with the next tick (02 R32). -/
namespace Sys2Proof.Machine

/-! ### Frames (R381-R386) -/

/-- The bytes that the CRC covers: type through payload. -/
def frameBytes (fr : BdlFrame) : Bytes :=
  [fr.type, fr.source, fr.dest] ++ beBytes 2 fr.seq.toNat ++ beBytes 1 fr.payload.length ++ fr.payload

/-- Defined frame types and destinations. -/
def frameKnown (fr : BdlFrame) : Bool :=
  [0x01, 0x02, 0x03, 0x10, 0x11, 0x12, 0x20, 0x30, 0x40].contains fr.type.toNat
    && (decide (fr.dest.toNat < 32) || [0xFD, 0xFE, 0xFF].contains fr.dest.toNat)

/-- The link a frame came in on. -/
def Bdl.linkOf (b : Bdl) (d : BdlDir) : Bool :=
  match d with
  | .up => b.upLink
  | .down => b.downLink

/-- Take a frame from the line: none when the module does not hear it or discards it (R382), with its count. A frame whose length
disagrees with the code groups received is one of those with a violation. -/
def State.hear (s : State) (fr : BdlFrame) : Bool × State :=
  if !s.up || !s.bdl.linkOf fr.dir then (false, s)
  else if fr.violation || decide (64 < fr.payload.length) then (false, s.count 0x1100 0x10 1)
  else if crc16 (frameBytes fr) ≠ fr.crc then (false, s.count 0x1100 0x0F 1)
  else if !frameKnown fr then (false, s.count 0x1100 0x10 1)
  else (true, s.count 0x1100 0x0D 1)

/-- Does the station act on a frame by its destination? -/
def State.isFor (s : State) (fr : BdlFrame) : Bool :=
  (decide (s.bdl.nodeId ≠ 0xFF) && decide (fr.dest.toNat = s.bdl.nodeId)) || decide (fr.dest.toNat = 0xFF)
    || (decide (s.bdl.nodeId = 0xFF) && decide (fr.dest.toNat = 0xFE))

/-- The pairs that a frame leaves on: forward by the downstream pair, back by the upstream pair, and by the other one when
that link is down (R399). Answers downstream, upstream. -/
def Bdl.pairs (b : Bdl) (forward : Bool) : Bool × Bool :=
  if forward then (if b.downLink then (true, false) else (false, b.upLink))
  else if b.upLink then (false, true) else (b.downLink, false)

/-- Put a frame into the forward buffer of four; a fifth is dropped and counted. The manager removes every frame. -/
def State.forward (s : State) (fr : BdlFrame) (payload : Bytes) : State :=
  if s.bdl.manager then s
  else if 4 ≤ s.bdl.forward.length then s.count 0x1100 0x10 1
  else
    let (d, u) := s.bdl.pairs (decide (fr.dir = .up))
    let f : TxFrame := ⟨d, u, fr.type.toNat, fr.source.toNat, fr.dest.toNat, fr.seq.toNat, payload, s.now⟩
    { s with bdl := { s.bdl with forward := s.bdl.forward ++ [f] } }

/-- Pass a frame on when it is not for this station alone. -/
def State.passOn (s : State) (fr : BdlFrame) : State :=
  if !s.isFor fr || decide (fr.dest.toNat = 0xFF) then s.forward fr fr.payload else s

/-- A manager's frame is new unless its sequence is one of the last eight acted on (R386). -/
def State.isNew (s : State) (fr : BdlFrame) : Bool := !s.bdl.seen.contains fr.seq.toNat
def State.markSeen (s : State) (fr : BdlFrame) : State :=
  { s with bdl := { s.bdl with seen := (fr.seq.toNat :: s.bdl.seen).take 8 } }

/-- A frame of this station's own, with its next sequence number. -/
def State.ownFrame (s : State) (type dest : Nat) (payload : Bytes) (down up : Bool) : TxFrame :=
  ⟨down, up, type, s.bdl.nodeId, dest, s.bdl.txSeq % 65536, payload, s.now⟩

/-- Send a frame of this station's own at once. -/
def State.originate (s : State) (type dest : Nat) (payload : Bytes) (down up : Bool) : State :=
  if !down && !up then s
  else
    let f := s.ownFrame type dest payload down up
    { s with bdl := { s.bdl with tx := f :: s.bdl.tx, txSeq := s.bdl.txSeq + 1 } }.count 0x1100 0x0E 1

/-- Send towards node 0, or as manager around the ring; on both pairs while the ring is wrapped here (R399). -/
def State.send (s : State) (type dest : Nat) (payload : Bytes) : State :=
  if s.bdl.manager && decide (s.bdl.ring ≠ 0) then s.originate type dest payload s.bdl.downLink s.bdl.upLink
  else
    let (d, u) := s.bdl.pairs true
    s.originate type dest payload d u

/-- An own frame that waits on these pairs until the forward buffer is empty (R384). -/
def State.queueOn (s : State) (type dest : Nat) (payload : Bytes) (down up : Bool) : State :=
  let f := s.ownFrame type dest payload down up
  { s with bdl := { s.bdl with own := s.bdl.own ++ [f], txSeq := s.bdl.txSeq + 1 } }

/-- An own frame towards node 0 that waits until the forward buffer is empty. -/
def State.queueOwn (s : State) (type dest : Nat) (payload : Bytes) : State :=
  let (d, u) := s.bdl.pairs true
  s.queueOn type dest payload d u

/-- In each tick one frame leaves: the oldest of the forward buffer, else the oldest own frame. -/
def State.sendWaiting (s : State) : State :=
  match s.bdl.forward, s.bdl.own with
  | f :: fs, _ => { s with bdl := { s.bdl with forward := fs, tx := if f.downstream || f.upstream then f :: s.bdl.tx else s.bdl.tx } }
  | [], f :: fs =>
    if f.downstream || f.upstream then
      { s with bdl := { s.bdl with own := fs, tx := f :: s.bdl.tx } }.count 0x1100 0x0E 1
    else { s with bdl := { s.bdl with own := fs } }
  | [], [] => s

/-- FRAME_FORWARD: a frame addressed to another station goes on. -/
def execFrameForward (fr : BdlFrame) (s : State) : Ans :=
  let (ok, s) := s.hear fr
  if !ok || decide (fr.dest.toNat = 0xFD) || decide (fr.type = 0x01) then .next s
  else if s.isFor fr && decide (fr.dest.toNat ≠ 0xFF) then .next s
  else .next (s.forward fr fr.payload)

/-! ### Links and ring state (R380, R399) -/

/-- Set the links: a change of ring state raises ATTN 6, and a wrap is counted. -/
def State.setLinks (s : State) (up down : Bool) : State :=
  let old := s.bdl.ring
  let s := { s with bdl := { s.bdl with upLink := up, downLink := down } }
  let new := s.bdl.ring
  let s := if old = 0 ∧ (new = 1 ∨ new = 2) then s.count 0x1100 0x14 1 else s
  if old = new then s else s.raiseEvent 6

/-- LINK_UP: not before 1 ms after reset release, nor in recovery (17 R438). -/
def execLinkUp (dir : BdlDir) (s : State) : Ans :=
  if s.up && !s.boot.recovery && decide (1000 ≤ s.now) then
    match dir with
    | .up => .next (s.setLinks true s.bdl.downLink)
    | .down => .next (s.setLinks s.bdl.upLink true)
  else .next s

/-- A link goes down. -/
def State.linkDown (s : State) (dir : BdlDir) : State :=
  match dir with
  | .up => s.setLinks false s.bdl.downLink
  | .down => s.setLinks s.bdl.upLink false

/-- LINK_DOWN. -/
def execLinkDown (dir : BdlDir) (s : State) : Ans := if s.up then .next (s.linkDown dir) else .next s

/-! ### Tick alignment (R388-R392; 02 R24-R26) -/

/-- SYNC_SEND: the manager's SYNC at a multiple of bdl_sync_interval, once. -/
def execSyncSend (s : State) : Ans :=
  let n := s.obj 0x1100 6
  if s.up && s.bdl.manager && decide (s.now % n = 0) && decide (s.clk.lastSync ≠ s.now) then
    let p := beBytes 8 s.now ++ beBytes 2 0 ++ beBytes 2 n ++ beBytes 4 0 ++ beBytes 4 (s.obj 0x1100 4)
    let t := s.now
    .next ({ s with clk := { s.clk with lastSync := t } }.send 0x01 0xFF p)
  else .next s

/-- Set tick_source. -/
def State.tickSource (s : State) (v : Nat) : State := s.setObj 0x3000 2 0 v

/-- The offset is too great to slew: free-running until the next module reset (02 R26). -/
def State.runFree (s : State) : State :=
  ({ s with clk := { s.clk with freeRun := true, slewNs := 0 } }.tickSource 0).raiseEvent 8

/-- Nearest multiple of 10 ns. -/
def round10 (x : Int) : Int := (x + 5) / 10 * 10

/-- Lock and slew: positive when late. Within 5 ns nothing is left to slew. -/
def State.lockAt (s : State) (offset : Int) : State :=
  let t := s.now
  let far := decide (5 < offset.natAbs)
  ({ s with clk := { s.clk with
      everLocked := true, lastOffset := some offset, lastSync := t, slewNs := if far then offset else 0 } }).tickSource
    (if far then 2 else 1)

/-- The first lock before READY: counter and phase are stepped in one move. Orders stamped for the next tick keep it. -/
def State.stepTo (s : State) (time : Int) (offset : Int) : State :=
  let dst := (time / 1000).toNat
  let old := s.now
  let s := { s with
    clk := { s.clk with counter := dst, phaseStepNs := round10 offset % 1000 }
    orders := mapWhere (fun o => decide (o.stamp = old + 1)) (fun o => { o with stamp := dst + 1 }) s.orders }
  s.lockAt (offset - round10 offset)

/-- Apply the offset of a new SYNC (R391). -/
def State.applySync (s : State) (arrival offset : Int) : State :=
  let s := s.setObj 0x3000 3 0 (i32 offset)
  let time := arrival + round10 offset
  let locked := decide (s.obj 0x3000 2 ≠ 0)
  let jump := match s.clk.lastOffset with
    | some o => decide (1000 < (offset - o).natAbs)
    | none => false
  if s.clk.freeRun then s
  else if locked && jump then s.count 0x1100 0x11 1
  else if !s.clk.everLocked && !s.boot.ready && decide ((s.now : Int) ≤ time / 1000) then s.stepTo time offset
  else if 1000 * s.obj 0x3000 4 < offset.natAbs then s.runFree
  else s.lockAt offset

/-- The delay in use on the hop a frame came in on. -/
def State.hopDelay (s : State) (d : BdlDir) : Nat :=
  match d with
  | .up => meanDelay s.bdl.delayUp
  | .down => meanDelay s.bdl.delayDown

/-- A SYNC takes effect in the tick of its stamp: that tick's edge stands for its arrival, with the offset measured there. -/
def State.applySyncOrder (s : State) (offset : Int) (interval : Nat) : State :=
  if s.bdl.manager then s
  else { s with clk := { s.clk with syncInterval := interval } }.applySync (s.now * 1000) offset

/-- A SYNC at a station: forwarded with its correction, and stamped when new. -/
def State.stationSync (s : State) (fr : BdlFrame) (localNs residence : Nat) : State :=
  let p := fr.payload
  let corr := beNat (slice p 12 4)
  let d := s.hopDelay fr.dir
  let new := s.isNew fr
  let s := s.forward fr (patch p 12 (beBytes 4 (corr + d + residence)))
  if !new || p.length ≠ 20 then s
  else
    let m : Int := beNat (slice p 0 8) * 1000 + beNat (slice p 8 2) + corr + d
    let a : Int := s.now * 1000 + localNs
    (s.markSeen fr).order 2 fr.seq.toNat (.sync (m - a) (beNat (slice p 10 2)))

/-- A SYNC at a manager: its own has come round; another manager's leaves the role to the lower tag (R388). -/
def State.managerSync (s : State) (fr : BdlFrame) : State :=
  s.order 2 fr.seq.toNat (.rivalTag (beNat (slice fr.payload 16 4)))

/-- The manager with the higher tag gives the role up. The manual does not say in which state it becomes a station: unassigned
(DESIGN CHOICE, log entry 85). -/
def State.applyRivalTag (s : State) (tag : Nat) : State :=
  if s.bdl.manager && decide (tag < s.obj 0x1100 4) then
    let s := { s with bdl := { s.bdl with manager := false, nodeId := 0xFF, state := 0, assignSent := none } }
    (s.count 0x1100 0x13 1).raiseEvent 6
  else s

/-- SYNC_FRAME. `localNs` is the time since the station's last tick edge at arrival, `residence` its residence time. -/
def execSyncFrame (fr : BdlFrame) (localNs residence : Nat) (s : State) : Ans :=
  if fr.type ≠ 0x01 then .next s
  else
    let (ok, s) := s.hear fr
    if !ok then .next s
    else if s.bdl.manager then .next (s.managerSync fr)
    else .next (s.stationSync fr localNs residence)

/-- SYNC_LOSS: no SYNC accepted for bdl_sync_loss_limit intervals (R392). -/
def State.syncLost (s : State) : Bool :=
  s.up && !s.bdl.manager && decide (s.obj 0x3000 2 ≠ 0)
    && decide (s.obj 0x1100 7 * s.clk.syncInterval ≤ s.now - s.clk.lastSync)
def execSyncLoss (s : State) : Ans :=
  if s.syncLost then .next ((({ s with clk := { s.clk with slewNs := 0, lastOffset := none } }).tickSource 0).raiseEvent 8)
  else .next s

/-! ### Hop delays (R390) -/

/-- Samples held, and the tick of the last measurement, of a hop. -/
def Bdl.samples (b : Bdl) (d : BdlDir) : List Nat :=
  match d with
  | .up => b.delayUp
  | .down => b.delayDown
def Bdl.lastMeas (b : Bdl) (d : BdlDir) : Tick :=
  match d with
  | .up => b.lastMeasUp
  | .down => b.lastMeasDown
def Bdl.req (b : Bdl) (d : BdlDir) : Option (Nat × Nat) :=
  match d with
  | .up => b.reqUp
  | .down => b.reqDown

/-- DELAY_MEASUREMENT: a DELAY_REQ on the hop, at its interval, while the forward buffer is empty. -/
def execDelayMeasurement (dir : BdlDir) (sentNs : Nat) (s : State) : Ans :=
  let every := if (s.bdl.samples dir).length < 8 then 1000 else s.obj 0x1100 8
  if s.up && s.bdl.linkOf dir && s.bdl.forward.isEmpty && decide (s.bdl.lastMeas dir + every ≤ s.now) then
    let q := s.bdl.txSeq % 65536
    let t := s.now
    let s := s.originate 0x02 0xFD [] (decide (dir = .down)) (decide (dir = .up))
    match dir with
    | .up => .next { s with bdl := { s.bdl with reqUp := some (q, sentNs), lastMeasUp := t } }
    | .down => .next { s with bdl := { s.bdl with reqDown := some (q, sentNs), lastMeasDown := t } }
  else .next s

/-- DELAY_REQ: answered on the same hop with the turnaround, once the forward buffer is empty (R384). -/
def execDelayReq (fr : BdlFrame) (turnaround : BitVec 32) (s : State) : Ans :=
  if fr.type ≠ 0x02 ∨ fr.dest ≠ 0xFD then .next s
  else
    let (ok, s) := s.hear fr
    if !ok then .next s
    else
      let p := beBytes 4 turnaround.toNat ++ beBytes 2 fr.seq.toNat
      if s.bdl.forward.isEmpty then .next (s.originate 0x03 0xFD p (decide (fr.dir = .down)) (decide (fr.dir = .up)))
      else .next (s.queueOn 0x03 0xFD p (decide (fr.dir = .down)) (decide (fr.dir = .up)))

/-- A sample, here twice the delay, joins the last eight unless it lies more than 20 ns from their mean. -/
def addSample (l : List Nat) (x : Nat) : List Nat :=
  if l.length < 8 then l ++ [x]
  else if ((x : Int) - 2 * (meanDelay l : Int)).natAbs ≤ 40 then l.drop 1 ++ [x] else l

/-- DELAY_RESP: the time away less the turnaround is twice the delay. A hop slower than 1,000 ns is treated as down. -/
def execDelayResp (fr : BdlFrame) (recvNs : Nat) (s : State) : Ans :=
  if fr.type ≠ 0x03 ∨ fr.dest ≠ 0xFD then .next s
  else
    let (ok, s) := s.hear fr
    match s.bdl.req fr.dir with
    | none => .next s
    | some (q, sent) =>
      if !ok || decide (beNat (slice fr.payload 4 2) ≠ q) then .next s
      else
        let x := recvNs - sent - beNat (slice fr.payload 0 4)
        let s := match fr.dir with
          | .up => { s with bdl := { s.bdl with reqUp := none, delayUp := addSample s.bdl.delayUp x } }
          | .down => { s with bdl := { s.bdl with reqDown := none, delayDown := addSample s.bdl.delayDown x } }
        if 1000 < s.hopDelay fr.dir then .next (s.linkDown fr.dir) else .next s

/-! ### Object access (R394, R395) -/

/-- An OD_RESP. -/
def odResp (index sub status arg offset : Nat) (data : Bytes) (tick : Nat) : Bytes :=
  beBytes 2 index ++ beBytes 1 sub ++ beBytes 1 status ++ beBytes 4 arg ++ beBytes 2 offset ++ beBytes 1 data.length ++ [0]
    ++ beBytes 4 (tick % 2 ^ 32) ++ data

/-- Answer a segment stamped with a tick. -/
def State.answer (s : State) (stamp : Tick) (index sub status arg offset : Nat) (data : Bytes) : State :=
  s.queueOwn 0x12 0 (odResp index sub status arg offset data stamp)

/-- The fields of a request. -/
structure OdReq where
  index : Nat
  sub : Nat
  first : Bool
  last : Bool
  arg : Nat
  offset : Nat
  count : Nat
  ok : Bool
  data : Bytes
  deriving DecidableEq, Repr
def odReq (p : Bytes) : OdReq where
  index := beNat (slice p 0 2)
  sub := beNat (slice p 2 1)
  first := bit (beNat (slice p 3 1)) 0
  last := bit (beNat (slice p 3 1)) 1
  arg := beNat (slice p 4 4)
  offset := beNat (slice p 8 2)
  count := beNat (slice p 10 1)
  ok := decide (beNat (slice p 3 1) < 4) && decide (beNat (slice p 10 1) ≤ 48) && zeroAt p 11 5 && decide (16 ≤ p.length)
  data := slice p 16 (beNat (slice p 10 1))

/-- Is an OD request to be acted on: new, from node 0, to a station that holds an id? A request of another source is
discarded and counted. -/
def State.takeOd (s : State) (fr : BdlFrame) : Bool × State :=
  let (ok, s) := s.hear fr
  if !ok then (false, s)
  else if fr.source ≠ 0 then (false, s.count 0x1100 0x10 1)
  else
    let s := s.passOn fr
    if s.isFor fr && decide (s.bdl.state ≠ 0) && !s.bdl.manager && s.isNew fr then (true, s.markSeen fr) else (false, s)

/-- The transfer goes wrong: INVALID_FIELD, and it is dropped. -/
def State.badSegment (s : State) (r : OdReq) : State :=
  { s with bdl := { s.bdl with xfer := none } }.answer (s.now + 1) r.index r.sub Status.invalidField r.arg r.offset []

/-- Does a segment go on with the transfer held? -/
def OdXfer.takes (x : OdXfer) (w : Bool) (r : OdReq) : Bool :=
  (x.write == w) && decide (x.index = r.index) && decide (x.sub = r.sub) && decide (x.arg = r.arg) && decide (x.next = r.offset)

/-- Bytes a read segment returns: as many as it asks for, 48 when it names none. -/
def readCount (n : Nat) : Nat := if n = 0 then 48 else n

/-- OD_READ: the first segment copies the value at the end of phase 2 of its stamp tick; later ones return parts of it. -/
def execOdRead (fr : BdlFrame) (s : State) : Ans :=
  if fr.type ≠ 0x10 then .next s
  else
    let (ok, s) := s.takeOd fr
    let r := odReq fr.payload
    if !ok then .next s
    else if !r.ok then .next (s.badSegment r)
    else if r.first then
      if r.offset ≠ 0 then .next (s.badSegment r)
      else .next ({ s with bdl := { s.bdl with xfer := none } }.order 2 fr.seq.toNat (.odRead r.index r.sub r.arg r.count fr.seq.toNat))
    else
      match s.bdl.xfer with
      | none => .next (s.badSegment r)
      | some x =>
        if x.takes false r && decide (r.offset < x.data.length) then
          let part := slice x.data r.offset (readCount r.count)
          let t := s.now
          let s := { s with bdl := { s.bdl with xfer := some { x with next := r.offset + part.length, lastTick := t } } }
          .next (s.answer (t + 1) r.index r.sub Status.success r.arg r.offset part)
        else .next (s.badSegment r)

/-- The first segment of an OD_READ, at the end of phase 2. -/
def State.applyOdRead (s : State) (index sub arg count : Nat) : State :=
  match findObj index sub with
  | none => s.answer s.now index sub Status.invalidField arg 0 []
  | some d =>
    let st := s.judgeRead .manager index sub arg d.size
    if st ≠ Status.success then s.answer s.now index sub st arg 0 []
    else
      let v := leBytes d.size (s.readObj index sub arg)
      let part := v.take (readCount count)
      let t := s.now
      let s := { s with bdl := { s.bdl with xfer := some ⟨false, index, sub, arg, v, part.length, t⟩ } }
      s.answer t index sub st arg 0 part

/-- OD_WRITE: segments gather; the one marked last is stamped and takes effect as one object write. -/
def execOdWrite (fr : BdlFrame) (s : State) : Ans :=
  if fr.type ≠ 0x11 then .next s
  else
    let (ok, s) := s.takeOd fr
    let r := odReq fr.payload
    if !ok then .next s
    else if !r.ok || decide (r.data.length ≠ r.count) then .next (s.badSegment r)
    else
      let so : Option Bytes := if r.first then (if r.offset = 0 then some [] else none)
        else match s.bdl.xfer with
          | some x => if x.takes true r then some x.data else none
          | none => none
      match so with
      | none => .next (s.badSegment r)
      | some old =>
        let data := old ++ r.data
        if r.last then
          .next ({ s with bdl := { s.bdl with xfer := none } }.order 2 fr.seq.toNat (.odWrite r.index r.sub r.arg r.offset data fr.seq.toNat))
        else
          let t := s.now
          let s := { s with bdl := { s.bdl with xfer := some ⟨true, r.index, r.sub, r.arg, data, data.length, t⟩ } }
          .next (s.answer (t + 1) r.index r.sub Status.success r.arg r.offset [])

/-- OD_TRANSFER_TIMEOUT: 10,000 tk without a segment. -/
def execOdTransferTimeout (s : State) : Ans :=
  match s.bdl.xfer with
  | some x => if x.lastTick + 10000 ≤ s.now then .next { s with bdl := { s.bdl with xfer := none } } else .next s
  | none => .next s

/-! ### Events, reports, liveness (R385, R396-R398) -/

/-- May an EVENT or HEARTBEAT be originated now: 1,024 tk after the last, the forward buffer empty, the station not isolated? -/
def State.mayOriginate (s : State) : Bool :=
  s.up && decide (s.bdl.ring ≠ 3) && s.bdl.forward.isEmpty && (match s.bdl.lastOrigin with
    | some t => decide (t + 1024 ≤ s.now)
    | none => true)
def State.noteOrigin (s : State) : State :=
  let t := s.now
  { s with bdl := { s.bdl with lastOrigin := some t } }

/-- The payload of an EVENT. -/
def eventBytes (e : BdlEvent) (lost : Nat) : Bytes :=
  fit 64 (beBytes 1 e.kind ++ beBytes 1 e.code ++ beBytes 2 e.seq ++ beBytes 8 e.tick ++ beBytes 1 (min 255 lost) ++ zeros 3
    ++ beBytes 2 e.index ++ beBytes 1 e.sub ++ beBytes 1 e.value.length ++ beBytes 4 e.arg ++ e.value)

/-- EVENT_QUEUE_SEND: the oldest waiting EVENT. It takes its sequence as it leaves, so that a gap shows a loss on the ring alone
(R396). -/
def execEventQueueSend (s : State) : Ans :=
  match s.bdl.events with
  | [] => .next s
  | e :: es =>
    if s.mayOriginate && decide (s.bdl.state = 2) && !s.bdl.manager then
      let p := eventBytes { e with seq := s.bdl.evSeq % 65536 } s.bdl.lostSince
      let s := { s with bdl := { s.bdl with events := es, lostSince := 0, evSeq := s.bdl.evSeq + 1 } }
      .next ((s.send 0x20 0 p).noteOrigin)
    else .next s

/-- Is a report row due? -/
def State.reportDue (s : State) (row : Nat) : Bool :=
  let v := s.obj 0x1120 0 row
  let period := recField v 8 4
  s.up && decide (s.bdl.state = 2) && !s.bdl.manager && decide (period ≠ 0)
    && decide (s.bdl.reportLast.getD row 0 + period ≤ s.now)

/-- REPORT: a report EVENT with the value of its object. -/
def execReport (row : Fin 8) (s : State) : Ans :=
  if s.reportDue row then
    let v := s.obj 0x1120 0 row
    let (index, sub, n, arg) := (recField v 0 2, recField v 2 1, recField v 3 1, recField v 4 4)
    let t := s.now
    let s := { s with bdl := { s.bdl with reportLast := s.bdl.reportLast.set row t } }
    .next (s.queueEvent ⟨1, 0, 0, t, index, sub, arg, leBytes n (s.readObj index sub arg)⟩)
  else .next s

/-- A module manager's assign of the next id; 31 is the last (R388). -/
def State.sendAssign (s : State) : State :=
  if 31 < s.bdl.assignNext then { s with bdl := { s.bdl with assignSent := none } }
  else
    let t := s.now
    { s.send 0x40 0xFE [1, 0, BitVec.ofNat 8 s.bdl.assignNext] with
      bdl := { (s.send 0x40 0xFE [1, 0, BitVec.ofNat 8 s.bdl.assignNext]).bdl with assignSent := some t } }

/-- An assign that has not come back in 1,024 tk was taken: the next id follows. -/
def State.assignMore (s : State) : State :=
  match s.bdl.assignSent with
  | some t =>
    if s.bdl.manager && decide (t + 1024 ≤ s.now) then
      { s with bdl := { s.bdl with assignNext := s.bdl.assignNext + 1 } }.sendAssign
    else s
  | none => s

/-- The payload of a station's HEARTBEAT. -/
def State.heartbeatBytes (s : State) : Bytes :=
  beBytes 1 s.deviceState ++ beBytes 1 s.ps.state ++ beBytes 1 (s.obj 0x3000 2) ++ beBytes 1 s.bdl.ring
    ++ beBytes 2 (s.portA.pending ||| s.portB.pending).toNat ++ zeros 2 ++ beBytes 4 (s.obj 0x3000 3) ++ beBytes 8 s.now

/-- Is a HEARTBEAT due? -/
def State.heartbeatDue (s : State) : Bool :=
  s.mayOriginate && decide (s.bdl.state = 2) && decide (s.bdl.lastHeartbeat + s.obj 0x1100 9 ≤ s.now)

/-- HEARTBEAT_SEND: a station's to node 0; a module manager's broadcast, with its id assignment begun again. -/
def execHeartbeatSend (s : State) : Ans :=
  if s.heartbeatDue then
    let t := s.now
    let s := { s with bdl := { s.bdl with lastHeartbeat := t } }
    if s.bdl.manager then .next (s.send 0x30 0xFF []).noteOrigin.sendAssign
    else .next (s.send 0x30 0 s.heartbeatBytes).noteOrigin
  else .next s

/-- HEARTBEAT of the manager renews its liveness; a station's is passed on. -/
def execHeartbeat (fr : BdlFrame) (s : State) : Ans :=
  if fr.type ≠ 0x30 then .next s
  else
    let (ok, s) := s.hear fr
    if !ok || s.bdl.manager then .next s
    else
      let s := s.passOn fr
      if decide (fr.source = 0) && decide (fr.dest = 0xFF) && s.isNew fr then
        .next ((s.markSeen fr).order 2 fr.seq.toNat .managerSeen)
      else .next s

/-- The manager's liveness is renewed. -/
def State.applyManagerSeen (s : State) : State :=
  let t := s.now
  { s with bdl := { s.bdl with managerSeen := t, managerLost := false } }

/-- MANAGER_HEARTBEAT_LOSS: three periods without one; raised once until it is seen again. -/
def execManagerHeartbeatLoss (s : State) : Ans :=
  if s.up && !s.bdl.manager && !s.bdl.managerLost && decide (s.bdl.managerSeen + 3 * s.obj 0x1100 9 ≤ s.now) then
    .next ({ s with bdl := { s.bdl with managerLost := true } }.raiseEvent 6)
  else .next s

/-! ### Node control (R387) -/

/-- A NODE_CTRL of one op that the station acts on, once passed on where it is for others too. -/
def State.takeCtrl (s : State) (fr : BdlFrame) (op : Nat) : Bool × State :=
  if fr.type ≠ 0x40 ∨ beNat (slice fr.payload 0 1) ≠ op then (false, s)
  else
    let (ok, s) := s.hear fr
    if !ok then (false, s)
    else if fr.source ≠ 0 then (false, s.passOn fr)
    else
      let mine := s.isFor fr && s.isNew fr && !s.bdl.manager
      let s := if op = 1 ∧ mine = true ∧ fr.dest = 0xFE then s else s.passOn fr
      if mine then (true, s.markSeen fr) else (false, s)

/-- ASSIGN: the first unassigned station takes the id and removes the frame. At the manager its own assign has come back
unconsumed, and its assignment ends. -/
def execAssign (fr : BdlFrame) (s : State) : Ans :=
  let (ok, s) := s.takeCtrl fr 1
  let id := beNat (slice fr.payload 2 1)
  if s.bdl.manager then
    if s.up && decide (fr.source = 0) && decide (id = s.bdl.assignNext) then .next { s with bdl := { s.bdl with assignSent := none } }
    else .next s
  else if ok && decide (fr.dest = 0xFE) && decide (1 ≤ id) && decide (id ≤ 31) then .next (s.order 2 fr.seq.toNat (.nodeCtrl 1 id))
  else .next s

/-- RELEASE: the station is unassigned again. -/
def execRelease (fr : BdlFrame) (s : State) : Ans :=
  let (ok, s) := s.takeCtrl fr 2
  if ok then .next (s.order 2 fr.seq.toNat (.nodeCtrl 2 0)) else .next s

/-- START: stopped becomes operational. -/
def execStart (fr : BdlFrame) (s : State) : Ans :=
  let (ok, s) := s.takeCtrl fr 3
  if ok then .next (s.order 2 fr.seq.toNat (.nodeCtrl 3 0)) else .next s

/-- STOP: operational becomes stopped; queued events are discarded and counted lost. -/
def execStop (fr : BdlFrame) (s : State) : Ans :=
  let (ok, s) := s.takeCtrl fr 4
  if ok then .next (s.order 2 fr.seq.toNat (.nodeCtrl 4 0)) else .next s

/-- A node-control op takes effect in the tick of its stamp (R387; 02 R32). -/
def State.applyNodeCtrl (s : State) (op id : Nat) : State :=
  match op with
  | 1 =>
    if s.bdl.state = 0 ∧ s.bdl.manager = false then { s with bdl := { s.bdl with nodeId := id, state := 1 } }.raiseEvent 6
    else s
  | 2 =>
    if s.bdl.state ≠ 0 ∧ s.bdl.manager = false then { s with bdl := { s.bdl with nodeId := 0xFF, state := 0 } }.raiseEvent 6
    else s
  | 3 => if s.bdl.state = 1 then { s with bdl := { s.bdl with state := 2 } } else s
  | 4 =>
    if s.bdl.state = 2 then
      let n := s.bdl.events.length
      { s with bdl := { s.bdl with state := 1, events := [], lostSince := s.bdl.lostSince + n } }.count 0x1100 0x12 n
    else s
  | _ => s

/-- RESET: with byte 1 = 0xA5, a module reset in phase 1 of the frame's stamp tick. -/
def execReset (fr : BdlFrame) (s : State) : Ans :=
  let (ok, s) := s.takeCtrl fr 5
  if ok && decide (beNat (slice fr.payload 1 1) = 0xA5) then .next (s.order 1 0 (.moduleReset 3)) else .next s

end Sys2Proof.Machine
end

