-- ==== Sys2Proof/Machine/Firmware.lean ====
section
/-! DEFINITION. The firmware image (17 R433-R437; 13 R343): the staging area, the checks of an image, and the commit of the
boot area. -/
namespace Sys2Proof.Machine

/-! ### The image (R433, R434) -/

/-- A page of the staging area. -/
def stagePage (st : List (Nat × Bytes)) (i : Nat) : Bytes := Sparse.get (fun _ => zeros 4096) st i

/-- Write whole pages from page `i` up. -/
def stagePages : Nat → List (Nat × Bytes) → Nat → Bytes → List (Nat × Bytes)
  | 0, st, _, _ => st
  | n + 1, st, i, bs => stagePages n (Sparse.put (fun _ => zeros 4096) st i (bs.take 4096)) (i + 1) (bs.drop 4096)

/-- The body of a staged image: pages 1 up to its length. -/
def stageBody (st : List (Nat × Bytes)) (length : Nat) : Bytes :=
  ((List.range (length / 4096 - 1)).map (fun i => stagePage st (i + 1))).flatten

/-- The version of the mask ROM (0x7000:09). -/
def romVersion : Nat := 1

/-- Check 1: marker, versions, length within the staged length, exponent, reserved bytes. -/
def headerOk (h : Bytes) (staged : Nat) : Bool :=
  let n := fieldAt h 8 4
  decide (fieldAt h 0 4 = 0x4A544E31) && decide (fieldAt h 4 2 = 1) && decide (8192 ≤ n) && decide (n ≤ 67108864)
    && decide (n % 4096 = 0) && decide (n ≤ staged) && decide (fieldAt h 448 4 = 65537) && decide (fieldAt h 20 4 ≤ romVersion)
    && zeroAt h 6 2 && zeroAt h 24 8 && zeroAt h 452 60 && zeroAt h 896 3200

/-- Check 2: the hash of modulus and exponent is the vendor's. Check 3: the signature over bytes 0-511 verifies. -/
def keyOk (h : Bytes) : Bool := decide (sha256 (slice h 64 388) = Config.vendorKeyHash)
def signatureOk (h : Bytes) : Bool := Config.pssVerify (slice h 0 512) (slice h 64 384) (slice h 512 384)

/-- The first check that a staged image fails, as DW7 reports it: 0 valid, 1 digest, 2 signature or key, 3 malformed. -/
def imageCheck (st : List (Nat × Bytes)) (staged : Nat) : Nat :=
  let h := stagePage st 0
  if !headerOk h staged then 3
  else if !(keyOk h && signatureOk h) then 2
  else if sha256 (stageBody st (fieldAt h 8 4)) = slice h 32 32 then 0
  else 1

/-- What the boot area holds of a staged image. -/
def stagedImage (st : List (Nat × Bytes)) : FwImage :=
  let h := stagePage st 0
  ⟨fieldAt h 8 4, fieldAt h 12 4, fieldAt h 16 4, slice h 32 32, 0⟩

/-! ### FW_LOAD and FW_COMMIT -/

/-- FW_LOAD writes its buffer into the staging area. -/
def execFwLoad (cid : Nat) (inbuf : Bytes) (s : State) : Ans :=
  match s.ready? cid Op.fwLoad with
  | none => .next s
  | some c =>
    let off := c.field 32 4
    let st := stagePages (c.inLen / 4096) s.boot.staging (off / 4096) (fit c.inLen inbuf)
    let s := { s with boot := { s.boot with staging := st } }
    let s := if c.inLen = 0 then s else s.setObj 0x7000 7 0 (max (s.obj 0x7000 7) (off + c.inLen))
    .next (s.finish cid ⟨Status.success, 0, c.stamp, 0, 0, 0⟩)

/-- The boot area lies on rods 0 to 7: none of them takes a program while out. -/
def State.bootRodsIn (s : State) : Bool := (List.range 8).all (fun r => s.rodIn r)

/-- Append the record of a step of a commit to the update journal (R435). -/
def State.logUpdate (s : State) (step : Nat) : State :=
  let im := stagedImage s.boot.staging
  { s with boot := { s.boot with updates := s.boot.updates ++ [(step, im.digest)] } }

/-- End a commit and give its power grant back. -/
def State.endCommit (s : State) (c : Cmd) (commitState status dw7 : Nat) : State :=
  let s := match s.grantOf (.bootArea c.cid) with
    | some g => s.endGrant g.gid
    | none => s
  (s.setObj 0x7000 8 0 commitState).finish c.cid ⟨status, 0, c.stamp, 0, 0, dw7⟩

/-- Ask for the grant of the next erase or program. -/
def State.askBoot (s : State) (c : Cmd) : State :=
  let s := match s.grantOf (.bootArea c.cid) with
    | some g => s.endGrant g.gid
    | none => s
  s.askGrant (.bootArea c.cid) true 1 (some c.cid)

/-- FW_COMMIT in three steps (R435): the checks, with record "begun"; the erase of the old header; the programs of body and
header, with record "done". Each of the last two waits for its grant. A program that fails on a rod of chip 0 ends it with
MEDIA_UNCORRECTABLE (R437); the boot area then holds no valid header once the old one is erased. -/
def execFwCommit (cid : Nat) (programFails : Bool) (s : State) : Ans :=
  match s.cmd? cid with
  | none => .next s
  | some c =>
    let granted := match s.grantOf (.bootArea cid) with
      | some g => g.granted
      | none => false
    let fails := programFails || !s.bootRodsIn
    match c.stage with
    | .fetched =>
      if (s.ready? cid Op.fwCommit).isNone then .next s
      else
        let v := imageCheck s.boot.staging (min (c.field 32 4) (s.obj 0x7000 7))
        if v ≠ 0 then .next (s.finish cid ⟨Status.invalidField, 0, c.stamp, 0, 0, v⟩)
        else .next ((((s.logUpdate 1).setObj 0x7000 8 0 1).modCmd cid (fun c => { c with stage := .committing false })).askBoot c)
    | .committing false =>
      if !granted then .next s
      else if fails then .next (s.endCommit c 0 Status.mediaUncorrectable 0)
      else
        let s := { s.logUpdate 2 with boot := { (s.logUpdate 2).boot with area := none, committed := none } }
        .next ((s.modCmd cid (fun c => { c with stage := .committing true })).askBoot c)
    | .committing true =>
      if !granted then .next s
      else if fails then .next (s.endCommit c 0 Status.mediaUncorrectable 0)
      else
        let im := stagedImage s.boot.staging
        let s := ((s.logUpdate 3).logUpdate 4).logUpdate 5
        let s := { s with boot := { s.boot with area := some im, committed := some im } }
        .next ((s.countNand im.length).endCommit c 2 Status.success 0)
    | _ => .next s

end Sys2Proof.Machine
end

