-- ==== Sys2Proof/Machine/Links.lean ====
section
/-! DEFINITION. The ports' links and functions (12 R289, R316; 13 R344), DOE and SPDM (17 R446, R447), the debug port
(17 R448; 19 R487) and the power states (12 R314, R315). -/
namespace Sys2Proof.Machine

/-! ### The FRU memory (19 R486) -/

/-- What the host reads over the SMBus at address 0x50: the FRU memory, while 3V3_FRU is present, with the input on or off. The
device neither reads nor writes it. -/
def State.fruRead (s : State) (offset : Nat) : Option Byte :=
  if s.pwr.fruOn && decide (offset < 8192) then some (Config.fruByte offset) else none

/-- The board serial number it holds. -/
def fruBoardSerial : Nat := serialNumber

/-! ### Links and functions -/

/-- May a link of the port train so (R289): 16, 32 or 64 GT/s, the last in flit mode only; a width of the table; L0p in flit mode
only, at a width of the table no greater than the link's?  -/
def linkSupported (i : LinkInfo) : Bool :=
  let widths := [1, 2, 4, 8, 16]
  !i.up || ((decide (i.rate.val = 4) || decide (i.rate.val = 5) || (decide (i.rate.val = 6) && i.flit))
    && widths.contains i.width.val && widths.contains i.l0pWidth.val && decide (i.l0pWidth.val ≤ i.width.val)
    && (i.flit || (decide (i.l0pWidth.val = i.width.val) && decide (i.state.val ≠ 1))))

/-- LINK_TRAINING: port_status follows the link. A port in reset has none, and no link trains to what the port does not
support. -/
def execLinkTraining (p : Port) (info : LinkInfo) (s : State) : Ans :=
  if !s.takes p || !linkSupported info then .next s
  else
    .next (s.modPort p (fun x => { x with
      linkUp := info.up
      rate := if info.up then info.rate.val else 0
      width := if info.up then info.width.val else 0
      flit := info.up && info.flit
      l0pWidth := if info.up then info.l0pWidth.val else 0
      linkState := if info.up then info.state.val else 0 }))

/-- VF_ENABLE: virtual functions 1 to `count` are enabled, the others not; the queues of one that is not are absent. -/
def execVfEnable (p : Port) (count : Fin 64) (s : State) : Ans :=
  if !s.takes p || s.boot.recovery then .next s
  else
    let gone := (List.range 64).filter (fun n => decide (count.val < n) && decide (n ≤ (s.port p).vfs))
    let s := gone.foldl (fun s n => (s.killQueues p (some n)).clearBar4 p (some n)) s
    .next (s.modPort p (fun x => { x with vfs := count.val }))

/-! ### DOE and SPDM (R446) -/

def State.spdm (s : State) (p : Port) : Spdm :=
  match p with
  | .A => s.boot.spdmA
  | .B => s.boot.spdmB
def State.setSpdm (s : State) (p : Port) (x : Spdm) : State :=
  match p with
  | .A => { s with boot := { s.boot with spdmA := x } }
  | .B => { s with boot := { s.boot with spdmB := x } }

/-- The DOE mailbox answers: port in service, not in recovery (R438). -/
def State.doeUp (s : State) (p : Port) : Bool := s.takes p && !s.boot.recovery

/-- Answer an SPDM request of a port, with the phase it needs; else the error code of an unexpected request. -/
def State.spdmAnswer (s : State) (p : Port) (need : Nat) (next : Nat) (reply : SpdmReply) : State :=
  let x := s.spdm p
  if !s.doeUp p then s
  else if x.phase < need then s.setSpdm p { x with reply := .error 4 }
  else s.setSpdm p { x with phase := next, reply := reply }

/-- DOE_DISCOVERY: the two data object types; index past them names none. -/
def execDoeDiscovery (p : Port) (index : BitVec 8) (s : State) : Ans :=
  if !s.doeUp p then .next s
  else
    let r : SpdmReply := match index.toNat with
      | 0 => .doeTypes 0 1
      | 1 => .doeTypes 1 0
      | _ => .error 1
    .next (s.setSpdm p { s.spdm p with reply := r })

/-- GET_VERSION: SPDM 1.2 and 1.3; negotiation starts afresh. -/
def execGetVersion (p : Port) (s : State) : Ans := .next (s.spdmAnswer p 0 1 (.versions [0x12, 0x13]))

/-- GET_CAPABILITIES: CERT_CAP, CHAL_CAP, MEAS_CAP with signature. -/
def execGetCapabilities (p : Port) (s : State) : Ans := .next (s.spdmAnswer p 1 2 (.capabilities true true true true))

/-- The base asymmetric algorithm chosen: RSASSA-3072 (bit 2) before RSAPSS-3072 (bit 3); 0 when neither is offered. -/
def chooseAsym (asym : Nat) : Nat := if bit asym 2 then 4 else if bit asym 3 then 8 else 0
/-- SHA-256 (bit 0). -/
def chooseHash (hash : Nat) : Nat := if bit hash 0 then 1 else 0

/-- NEGOTIATE_ALGORITHMS. -/
def execNegotiateAlgorithms (p : Port) (asym hash : BitVec 32) (s : State) : Ans :=
  let a := chooseAsym asym.toNat
  let h := chooseHash hash.toNat
  let ok := decide (a ≠ 0) && decide (h ≠ 0)
  let s' := s.spdmAnswer p 2 (if ok then 3 else 2) (.algorithms a h)
  if s.doeUp p && ok && decide (2 ≤ (s.spdm p).phase) then .next (s'.setSpdm p { s'.spdm p with asym := a }) else .next s'

/-- GET_DIGESTS: the digest of the chain of slot 0. -/
def execGetDigests (p : Port) (s : State) : Ans := .next (s.spdmAnswer p 3 3 (.digests (sha256 Config.certChain)))

/-- GET_CERTIFICATE: part of the chain of slot 0; the other slots are empty. -/
def execGetCertificate (p : Port) (slot : Fin 8) (offset len : Nat) (s : State) : Ans :=
  let chain := Config.certChain
  if slot.val ≠ 0 ∨ chain.length ≤ offset then .next (s.spdmAnswer p 3 3 (.error 1))
  else
    let part := slice chain offset len
    .next (s.spdmAnswer p 3 3 (.certificate 0 part (chain.length - offset - part.length)))

/-- CHALLENGE: signed by the identity key, which a failed identity has not. -/
def execChallenge (p : Port) (slot : Fin 8) (nonce : Bytes) (s : State) : Ans :=
  if slot.val ≠ 0 ∨ s.boot.identityFailed = true then .next (s.spdmAnswer p 3 3 (.error 1))
  else
    let h := sha256 Config.certChain
    .next (s.spdmAnswer p 3 3 (.challengeAuth 0 h (Config.identitySign (h ++ nonce))))

/-- GET_MEASUREMENTS is stamped; its values are those at the end of phase 2 of that tick (R447). -/
def execGetMeasurements (p : Port) (index : BitVec 8) (nonce : Bytes) (s : State) : Ans :=
  if s.doeUp p then .next (s.order (portRank p) 0 (.measure p index.toNat nonce)) else .next s

/-- The measurement blocks a request names: one of 1-5, or all with 0xFF. -/
def State.blocks (s : State) (index : Nat) : List (Nat × Bytes) :=
  let one (i : Nat) : Nat × Bytes := (i, if i = 5 then leBytes 1 (s.obj 0x7000 4) else s.measurement i)
  if index = 0xFF then [1, 2, 3, 4, 5].map one
  else if 1 ≤ index ∧ index ≤ 5 then [one index] else []

/-- Answer it. -/
def State.applyMeasure (s : State) (p : Port) (index : Nat) (nonce : Bytes) : State :=
  let bs := s.blocks index
  if bs.isEmpty || s.boot.identityFailed then s.spdmAnswer p 3 3 (.error 1)
  else s.spdmAnswer p 3 3 (.measurements bs (Config.identitySign ((bs.map (fun b => b.2)).flatten ++ nonce)))

/-! ### J4 (17 R448; 19 R487) -/

/-- Does the debug port have power? -/
def State.powered (s : State) : Bool :=
  match s.pwr.phase with
  | .off => false
  | .rampWait _ => false
  | _ => true

/-- IDCODE: the boundary-scan TAP answers in every state. -/
def execIdcode (s : State) : Ans :=
  if s.powered then .next { s with boot := { s.boot with tdo := 0x06402001#32 } } else .next s

/-- DEBUG_ACCESS: TDO shifts zeros and nothing happens unless debug_active is 1; what a served access does the manual does
not say. -/
def execDebugAccess (s : State) : Ans :=
  if !s.powered then .next s
  else if s.obj 0x7000 4 = 1 then .refused .debugAccessUnspecified
  else .next { s with boot := { s.boot with tdo := 0#32 } }

/-- TEST_LOGIC_RESET: the level of DBG_SEL takes effect. -/
def execTestLogicReset (dbgSel : Bool) (s : State) : Ans :=
  if s.powered then .next { s with boot := { s.boot with dbgSel := dbgSel } } else .next s

/-! ### Power states (12 R314, R315) -/

/-- A NOP that waits keeps nothing awake. -/
def Cmd.waitsOnly (c : Cmd) : Bool :=
  match c.stage with
  | .nopWait _ _ => true
  | .fetched => waitsNop c.entry
  | _ => false

/-- Is the device idle? -/
def State.idle (s : State) : Bool :=
  s.cmds.all (fun c => c.waitsOnly) && s.sqs.all (fun q => decide (q.waiting = 0))
    && s.carry.pass.isNone && s.carry.queue.isEmpty
    && s.tensor.models.all (fun m => decide (m.state ≠ .loading) && m.reloading.isEmpty)
    && s.tensor.placements.all (fun l => !l.moving)
    && s.pwr.grants.isEmpty && decide (s.bufferUsed = 0)

/-- POWER_STATE_ENTRY: the idle timer of the next lower state has run out. -/
def execPowerStateEntry (s : State) : Ans :=
  let k := s.ps.state + 1
  let timer := s.obj 0x2021 0 k
  match s.ps.idleSince with
  | none => .next s
  | some t =>
    if s.up && s.boot.ready && s.idle && decide (s.ps.exitAt = none) && decide (k ≤ 3) && decide (k ≤ s.obj 0x2020 2)
        && decide (timer ≠ 0) && decide (t + timer ≤ s.now) then
      let n := s.now
      .next ({ s with
        ps := { s.ps with state := k, idleSince := some n }
        mem := if 2 ≤ k then Sparse.keep (fun a => decide (frameBase 16 ≤ a)) s.mem else s.mem }.count 0x2023 0 1 k)
    else .next s

/-- The exit is over: the device is in PS0. -/
def State.endExit (s : State) : State :=
  match s.ps.exitAt with
  | some t => if t ≤ s.now then { s with ps := ⟨0, none, none⟩ } else s
  | none => s

/-- POWER_STATE_EXIT: idleness has ended; PS0 after the exit latency of the state reached. -/
def execPowerStateExit (s : State) : Ans :=
  if s.ps.exitAt.isSome then .next s.endExit
  else if s.up && decide (s.ps.state ≠ 0) && !s.idle then
    let t := s.now + s.obj 0x2022 0 s.ps.state
    .next { s with ps := { s.ps with exitAt := some t } }
  else .next s

end Sys2Proof.Machine
end

