-- ==== Sys2Proof/Machine/Orders.lean ====
section
/-! DEFINITION. Orders that take effect in a tick (02 R36, R39, R41, R42): their precedence, what they touch, which of them are
superseded, and phases 1 and 2. -/
namespace Sys2Proof.Machine

/-! ### Precedence (R36) -/

/-- The place of an order: rank, place in the rank, order of receipt; commands of one queue in submission order. -/
def Order.key (o : Order) : List Nat :=
  match o.body with
  | .effect cid _ => [o.rank, o.sub, cid]
  | _ => [o.rank, o.sub, o.seq]

def orderBefore (a b : Order) : Bool := decide (a.key ≤ b.key)

/-- The mutations whose commit tick has come and that are not judged yet, as orders. -/
def State.mutationOrders (s : State) : List Order :=
  (s.cmds.filter (fun c => !c.judged && (match c.stage with
    | .staged t => decide (t ≤ s.now)
    | _ => false))).map (fun c => ⟨s.now, portRank c.port, c.sq + 1, c.cid, .mutation c.cid⟩)

/-- Everything that takes effect in phase 2 of this tick, in precedence order. -/
def State.dueOrders (s : State) : List Order :=
  sortBy orderBefore (s.orders.filter (fun o => decide (o.stamp ≤ s.now)) ++ s.mutationOrders)

/-! ### What an order touches (R41) -/

/-- A target of R41. Registers of a port are told apart by its number; SEC_LOCK is the module's, place 2. -/
inductive Target where
  | object (index sub arg : Nat)
  | item (coll : Nat) (ext : BitVec 64)
  | collection (coll : Nat)
  | register (place offset : Nat)
  deriving DecidableEq, Repr

/-- Do two targets contradict? Creating or dropping a collection contradicts its mutations; two mutations contradict only on
one id (log entry 32). -/
def clash (a b : Target) : Bool :=
  match a, b with
  | .item c _, .collection n => decide (c = n)
  | .collection n, .item c _ => decide (c = n)
  | _, _ => decide (a = b)

/-- The target of an object write: the argument counts for a DOMAIN object only. -/
def objTarget (index sub arg : Nat) : Target :=
  match findObj index sub with
  | some d => .object index sub (if d.argLimit = 0 then 0 else arg)
  | none => .object index sub arg

/-- The target of an order, if it has one. A low half waits for its high half and is no register write (14 R352). -/
def State.target (s : State) (o : Order) : Option Target :=
  match o.body with
  | .odWrite index sub arg _ _ _ => some (objTarget index sub arg)
  | .win _ _ 1 w _ => some (objTarget w.index.toNat w.sub.toNat w.arg.toNat)
  | .barWrite p off size _ =>
    match regAt off with
    | some r => if r.2.2 = 1 ∧ size = 4 then none else some (.register (if r.2.1 = 0x500 then 2 else p.num) r.2.1)
    | none => none
  | .mutation cid => (s.cmd? cid).map (fun c => .item c.collByte c.ext)
  | .effect cid _ =>
    match s.cmd? cid with
    | none => none
    | some c =>
      if c.opcode = Op.objWrite then some (objTarget (c.field 32 2) (c.field 34 1) (c.field 36 4))
      else if c.opcode = Op.collectionCreate ∨ c.opcode = Op.collectionDrop then some (.collection c.collByte)
      else none
  | _ => none

/-! ### The outcome of an order judged alone (R42) -/

/-- Status and DW7 an order would have alone against a state. -/
def State.alone (s : State) (o : Order) : Nat × Nat :=
  match o.body with
  | .odWrite index sub arg _ data _ => (s.judgeWrite .manager index sub arg data.length (leNat data), 0)
  | .win p fn 1 w data =>
    (s.judgeWrite (.fn p fn) w.index.toNat w.sub.toNat w.arg.toNat w.len.toNat (writeValue data w.len.toNat), 0)
  | .barWrite p off _ v => (s.judgeBar p off v, 0)
  | .mutation cid => (match s.cmd? cid with | some c => s.judgeMutation c | none => (0, 0))
  | .effect cid place =>
    match s.cmd? cid with
    | none => (0, 0)
    | some c =>
      (if c.opcode = Op.objWrite then s.judgeObjWrite c
        else if c.opcode = Op.collectionCreate then s.judgeCreate c place
        else if c.opcode = Op.collectionDrop then s.judgeDrop c
        else 0, 0)
  | _ => (0, 0)

/-- An order without effect reports its status: in its completion, window, OD_RESP or write-status register (R42). -/
def State.settle (s : State) (o : Order) (st dw7 : Nat) : State :=
  match o.body with
  | .odWrite index sub arg offset _ _ => s.answer s.now index sub st arg offset []
  | .win p fn _ _ _ => s.winDone (winKey p fn) st none
  | .barWrite p off _ _ => s.recordBar p off st
  | .mutation cid =>
    let t := s.now
    let s := s.modCmd cid (fun c => { c with judged := true, stage := mutationDone st t 0 dw7 none })
    (match s.cmd? cid with
      | some c => if st = Status.superseded then s.ccount c.collByte 0x5C 1 else s
      | none => s)
  | .effect cid _ =>
    (match s.cmd? cid with
      | some c => s.finish cid { c.failWords st with dw3 := if c.opcode = Op.objWrite then s.now else c.stamp }
      | none => s)
  | _ => s

/-! ### The effect of an order -/

/-- An OD_WRITE takes effect or is refused. -/
def State.applyOdWrite (s : State) (index sub arg offset : Nat) (data : Bytes) : State :=
  let st := s.judgeWrite .manager index sub arg data.length (leNat data)
  let s := if st = Status.success then s.applyWrite index sub arg (leNat data) else s
  s.answer s.now index sub st arg offset []

/-- A BAR0 write takes effect or is refused, and is recorded (14 R353, R357). -/
def State.applyBar (s : State) (p : Port) (off size v : Nat) : State :=
  let st := s.judgeBar p off v
  (if st = Status.success then s.effectBar p off size v else s).recordBar p off st

/-- The phase-2 effect of a fetched command (R39). -/
def State.applyEffect (s : State) (cid place : Nat) : State :=
  match s.cmd? cid with
  | none => s
  | some c =>
    match c.opcode with
    | 0x24 => s.applyBuild c
    | 0x25 => (s.applyRehome c (fun _ => false)).1
    | 0x30 => s.applyCreate c place
    | 0x31 => s.applyDrop c
    | 0x40 => s.applyLoad c place
    | 0x41 => s.applyEvict c
    | 0x50 => s.applyObjRead c
    | 0x51 => s.applyObjWrite c
    | 0x60 => s.applyMove c place
    | 0x61 => s.applyFlush c
    | 0x80 => s.applyQueueCreate c
    | 0x81 => s.applyQueueCut c
    | 0x82 => s.applyQueueCut c
    | _ => s

/-- The effect of one order in phase 2. A mutation is only judged here: COMMIT gives it its effect. -/
def State.applyOrder (s : State) (o : Order) : State :=
  match o.body with
  | .odWrite index sub arg offset data _ => s.applyOdWrite index sub arg offset data
  | .odRead index sub arg count _ => s.applyOdRead index sub arg count
  | .measure p index nonce => s.applyMeasure p index nonce
  | .barWrite p off size v => s.applyBar p off size v
  | .tckRead p high size => s.serveTck p high size
  | .win p fn 1 w data => s.winWrite p fn w data
  | .win p fn op w _ => s.winRead p fn op w
  | .mbxSend p fn dest msg => s.applySend p fn dest msg
  | .mbxHead p fn v => s.applyInHead p fn v
  | .sqDoorbell p fn q v => s.applyTail p fn q v
  | .cqDoorbell p fn q v => s.applyHead p fn q v
  | .effect cid place => s.applyEffect cid place
  | .mutation cid => s.modCmd cid (fun c => { c with judged := true })
  | .unitOut u cause => s.takeOut u cause
  | .nodeCtrl op id => s.applyNodeCtrl op id
  | .managerSeen => s.applyManagerSeen
  | .sync offset interval => s.applySyncOrder offset interval
  | .rivalTag tag => s.applyRivalTag tag
  | _ => s

/-! ### Phase 2 -/

/-- Is an order a read, served at the end of phase 2 (14 R372)? -/
def State.isRead (s : State) (o : Order) : Bool :=
  match o.body with
  | .odRead .. => true
  | .measure .. => true
  | .win _ _ op _ _ => decide (op ≠ 1)
  | .effect cid _ => (match s.cmd? cid with | some c => decide (c.opcode = Op.objRead) | none => false)
  | _ => false

/-- The REHOME that an order is the effect of. -/
def State.rehomeOf (s : State) (o : Order) : Option Cmd :=
  match o.body with
  | .effect cid _ => (s.cmd? cid).filter (fun c => decide (c.opcode = Op.rehome))
  | _ => none

/-- Take orders in precedence order. `s0` is the state at the start of phase 2, `all` every order of the phase, and `won` the
targets of those that took effect. One refused alone supersedes nothing; if another touches its target it keeps the status
it has alone. -/
def State.takeOrders (s0 : State) (all : List Order) : State → List Target → List Order → State
  | s, _, [] => s
  | s, won, o :: os =>
    match s0.target o, s0.rehomeOf o with
    | none, some c =>
      let (s, ids) := s.commitDue.applyRehome c (fun e => won.any (clash (.item c.collByte e)))
      State.takeOrders s0 all s (ids.map (fun e => Target.item c.collByte e) ++ won) os
    | none, none => State.takeOrders s0 all (s.applyOrder o) won os
    | some t, _ =>
      let (st, dw7) := s0.alone o
      let rivals := all.any (fun p => decide (p ≠ o) && (match s0.target p with | some u => clash t u | none => false))
      if st ≠ Status.success ∧ rivals = true then State.takeOrders s0 all (s.settle o st dw7) won os
      else if st = Status.success ∧ won.any (clash t) = true then
        State.takeOrders s0 all (s.settle o Status.superseded 0xFFFFFFFF) won os
      else State.takeOrders s0 all (s.applyOrder o) (if st = Status.success then t :: won else won) os

/-- The banks exchange in phase 2 of the next tick whose counter is a multiple of 4,096 (02 R39, R45). -/
def State.exchangeBanks (s : State) : State :=
  if s.exchanges then
    { s with table := { s.table with active := !s.table.active, pending := false, status := 0, switchTick := s.now } }
  else s

/-- BANK_EXCHANGE. -/
def execBankExchange (s : State) : Ans := .next s.exchangeBanks

/-- Phase 2: orders from outside, then internal ones, the exchange of the banks, then reads. Mutations judged commit before
anything that could be seen to follow them within this command; the rest wait for their COMMIT, as a bank exchange that no
read of the tick could show waits for BANK_EXCHANGE. -/
def State.phaseTwo (s : State) : State :=
  let all := s.dueOrders
  let s1 := { s with orders := s.orders.filter (fun o => decide (s.now < o.stamp)) }
  let reads := all.filter (fun o => s.isRead o)
  let writes := all.filter (fun o => !s.isRead o)
  let outer := writes.filter (fun o => decide (o.rank < 5))
  let inner := writes.filter (fun o => decide (5 ≤ o.rank))
  let s1 := State.takeOrders s1 all s1 [] outer
  let s1 := if inner.isEmpty && reads.isEmpty && s1.pwr.riseTo.isNone then s1 else s1.commitDue
  let s1 := (inner.foldl (fun s o => s.applyOrder o) s1).thermalRise
  let s1 := if reads.isEmpty then s1 else s1.exchangeBanks
  reads.foldl (fun s o => s.applyOrder o) s1

/-! ### Phase 1 -/

/-- The resets of this tick, in order. -/
def State.dueResets (s : State) : List Order :=
  sortBy orderBefore (s.orders.filter (fun o => decide (o.stamp ≤ s.now) && decide (o.rank = 1)))

/-- A port reset, a PERST# edge or a function-level reset. -/
def State.applyReset (s : State) (o : Order) : State :=
  match o.body with
  | .portReset p => s.applyPortReset p
  | .perst p asserted => s.applyPerst p asserted
  | .flr p fn => s.applyFlr p fn
  | _ => s

/-- Phase 1: a module reset ends the tick; other resets discard what they discard. Answers whether the tick goes on. -/
def State.phaseOne (s : State) : Bool × State :=
  let rs := s.dueResets
  match rs.find? (fun o => match o.body with | .moduleReset _ => true | .holdUp => true | _ => false) with
  | some o =>
    match o.body with
    | .moduleReset cause => (false, s.beginReset cause)
    | _ => (false, s.powerDown)
  | none => (true, { rs.foldl (fun s o => s.applyReset o) s with
      orders := (rs.foldl (fun s o => s.applyReset o) s).orders.filter (fun o => decide (s.now < o.stamp) || decide (o.rank ≠ 1)) })

end Sys2Proof.Machine
end

