-- ==== Sys2Proof/Machine/Issue.lean ====
section
/-! DEFINITION. Phase 4 of a tick: flash reads of searches, FETCHes and streams, one tile each, under the tick-table slot (02 R44,
R492; 04 R89; 11 R274), what is left for carry, and the waits that a tick charges (11 R284). -/
namespace Sys2Proof.Machine

/-! ### The requests that wait -/

/-- What a tile read is for. -/
inductive ReadSrc where
  | node (cid ix node : Nat)
  | vector (cid ix slot : Nat)
  /-- The payload row of a result slot. -/
  | row (cid ix slot : Nat)
  | fetch (cid : Nat)
  /-- A segment of a stream of a context. -/
  | segment (handle part frame stream ordinal : Nat)
  deriving DecidableEq, Repr

/-- A read of one tile that waits for its issue, with the command it is charged to. -/
structure ReadReq where
  src : ReadSrc
  cid : Nat
  part : Nat
  cls : Nat
  tile : Nat
  /-- Admission tick, precedence, place in its search (R274). -/
  order : List Nat
  deriving DecidableEq, Repr

/-- The requests of one search. None of a round is issued at or after its cut tick (R89). -/
def State.searchReads (s : State) (x : Search) : List ReadReq :=
  match s.cmd? x.cid, s.coll? x.coll with
  | some c, some k =>
    let req (src : ReadSrc) (key i tile : Nat) : ReadReq :=
      ⟨src, x.cid, x.part, c.cls, tile, [x.admTick, portRank c.port, c.sq, c.cid, x.ix, key, i]⟩
    match x.phase with
    | .walking =>
      if s.now < x.cut then
        (x.open_.filter (fun e => decide (e.stage = .queued))).map (fun e => req (.node x.cid x.ix e.node) e.node 0 e.tile)
      else []
    | .rescoring => ((x.rank.zipIdx.filter (fun r => decide (r.1.read = .queued))).map (fun r =>
        r.1.todo.zipIdx.map (fun t => req (.vector x.cid x.ix r.2) r.2 t.2 t.1))).flatten
    | .gathering => (x.rows.filter (fun w => decide (w.read = .queued))).filterMap (fun w =>
        (dirAt k (nodeSegment w.node) x.admTick).map (fun d => req (.row x.cid x.ix w.slot) w.slot 0 (payPlace k d.bPay w.node).1))
    | _ => []
  | _, _ => []

/-- The requests of a FETCH. -/
def Cmd.fetchReads (c : Cmd) : List ReadReq :=
  if c.opcode = Op.fetch ∧ c.stage = .fetched then
    (c.todo.getD []).zipIdx.map (fun t =>
      ⟨.fetch c.cid, c.cid, c.part, c.cls, t.1, [c.admTick.getD 0, portRank c.port, c.sq, c.cid, 0, 0, t.2]⟩)
  else []

/-- The requests of the streams of a context, in the class of its first sequence. -/
def State.streamReads (s : State) (c : FrameCtx) : List ReadReq :=
  match s.dealt c with
  | [] => []
  | q :: _ => (c.streams.zipIdx.map (fun x => (x.1.flight.map (fun g => g.todo.zipIdx.map (fun t =>
      (⟨.segment c.handle c.part c.frame x.2 g.ordinal, q.cid, c.part, q.cls, t.1,
        [g.issued, 5, c.frame, x.2, 0, g.ordinal, t.2]⟩ : ReadReq)))).flatten)).flatten

def State.readRequests (s : State) : List ReadReq :=
  sortBy (fun a b => decide (a.order ≤ b.order))
    ((s.searches.map (fun x => s.searchReads x)).flatten ++ (s.cmds.map (fun c => c.fetchReads)).flatten
      ++ (s.tensor.ctxs.map (fun c => s.streamReads c)).flatten)

/-! ### Issue (R44, R274) -/

/-- Ask a rod for a tile of a vector: with the last one asked the read is under way. -/
def RankCand.ask (r : RankCand) (t deadline : Nat) : RankCand :=
  let todo := r.todo.erase t
  { r with todo := todo, asked := r.asked ++ [t], read := if todo.isEmpty then .sent deadline else .queued }

/-- Ask a rod for a flash tile of a segment. -/
def SegXfer.ask (g : SegXfer) (t now : Nat) : SegXfer := { g with todo := g.todo.erase t, asked := g.asked ++ [t], issued := now }

/-- Send the read of one tile, with its reply deadline (04 R88; 05 R123; 11 R281). -/
def State.sendRead (s : State) (r : ReadReq) : State :=
  let t := s.now
  match r.src with
  | .node cid ix n => s.modSearch cid ix (fun x => { x with
      open_ := mapWhere (fun e => decide (e.node = n)) (fun e => { e with stage := .sent, deadline := t + s.cobj x.coll 0x25 }) x.open_ })
  | .vector cid ix i => s.modSearch cid ix (fun x => { x with
      rank := x.rank.zipIdx.map (fun p => if p.2 = i then p.1.ask r.tile (t + s.cobj x.coll 0x25) else p.1) })
  | .row cid ix i => s.modSearch cid ix (fun x => x.setRead (rowSlot i) (.sent (t + s.cobj x.coll 0x25)))
  | .fetch cid => s.modCmd cid (fun c => { c with
      todo := c.todo.map (fun l => l.erase r.tile), asked := c.asked ++ [r.tile], askTick := t })
  | .segment h p f i n =>
    { s with tensor := { s.tensor with
        ctxs := mapWhere (fun c => decide (c.handle = h) && decide (c.part = p) && decide (c.frame = f))
          (fun c => match c.streams[i]? with
            | some x => c.setStream i { x with flight := mapWhere (fun g => decide (g.ordinal = n)) (fun g => g.ask r.tile t) x.flight }
            | none => c) s.tensor.ctxs } }.useClass r.part r.cls 2 1

/-- The issue in progress: the reads left, the tags in use toward each channel chip, and the guaranteed reads that partitions
have left unused. -/
structure Issue where
  s : State
  reqs : List ReadReq
  busy : List Nat
  spare : Nat

/-- The channel chip that holds the tile of a request. -/
def ReadReq.chip (r : ReadReq) : Nat := tileRod r.tile / 8

/-- A request whose chip has a free tag (10 R257). -/
def Issue.free (i : Issue) (r : ReadReq) : Bool := decide (i.busy.getD r.chip 0 < 4096)

/-- The class a partition serves next, and its deficit: deficit round-robin in tile reads, a turn adding the class weight. -/
def State.readTurn (s : State) (p : Nat) (has : Nat → Bool) : Nat × Nat :=
  let at_ := Sparse.count s.shares.readClass p
  let deficit (k : Nat) : Nat := Sparse.count s.shares.readDeficit (8 * p + k)
  if has at_ && decide (deficit at_ ≠ 0) then (at_, deficit at_)
  else
    let k := (((List.range 8).map (fun i => (at_ + 1 + i) % 8)).find? has).getD at_
    (k, deficit k + max 1 (recClassWeight (s.partRec p) k))

/-- Record a read served by a class; classes with nothing waiting hold no deficit. -/
def State.servedRead (s : State) (p k deficit : Nat) (has : Nat → Bool) : State :=
  let left := (List.range 8).foldl (fun m j => if has j then m else Sparse.put (fun _ => 0) m (8 * p + j) 0) s.shares.readDeficit
  { s with shares := { s.shares with
      readClass := Sparse.put (fun _ => 0) s.shares.readClass p k
      readDeficit := Sparse.put (fun _ => 0) left (8 * p + k) deficit } }

/-- Issue the next tile read of a partition. -/
def Issue.serve (i : Issue) (p : Nat) : Option Issue :=
  let mine := i.reqs.filter (fun r => decide (r.part = p) && i.free r)
  let has (k : Nat) : Bool := mine.any (fun r => decide (r.cls = k))
  let (k, d) := i.s.readTurn p has
  match mine.find? (fun r => decide (r.cls = k)) with
  | none => none
  | some r => some { i with
      s := (i.s.sendRead r).servedRead p k (d - 1) has
      reqs := i.reqs.erase r
      busy := i.busy.set r.chip (i.busy.getD r.chip 0 + 1) }

/-- Issue the guaranteed reads of a partition; what it leaves unused is spare. -/
def Issue.guaranteed (p : Nat) : Nat → Issue → Issue
  | 0, i => i
  | quota + 1, i =>
    match i.serve p with
    | none => { i with spare := i.spare + quota + 1 }
    | some j => Issue.guaranteed p quota j

/-- Issue best-effort reads, one tile a turn, until none is left that has a tag. -/
def Issue.bestEffort (slot : Nat) : Nat → Issue → Issue
  | 0, i => i
  | fuel + 1, i =>
    let ready := (List.range 16).filter (fun p => decide (slotQuota slot p = 255)
      && i.reqs.any (fun r => decide (r.part = p) && i.free r))
    match nextTurn i.s.shares.readPtr i.s.shares.readWait i.s.now ready with
    | none => i
    | some (p, aged) =>
      match i.serve p with
      | none => i
      | some j =>
        let s := { j.s with shares := { j.s.shares with
          readPtr := if aged then j.s.shares.readPtr else (p + 1) % 16
          readWait := j.s.shares.readWait.filter (fun e => decide (e.1 ≠ p)) } }
        Issue.bestEffort slot fuel { j with s := s, spare := j.spare - 1 }

/-- Is a request still waiting that waited in an earlier tick too (11 R284)? -/
def State.readWaits (s : State) (r : ReadReq) : Bool :=
  match r.src with
  | .node cid ix _ => (match s.search? cid ix with | some x => decide (x.nextRound < s.now) | none => false)
  | .vector cid ix _ => (match s.search? cid ix with | some x => decide (x.nextRound < s.now) | none => false)
  | .row cid ix _ => (match s.search? cid ix with | some x => decide (x.nextRound < s.now) | none => false)
  | .fetch cid => (match s.cmd? cid with | some c => decide (c.askTick < s.now) | none => false)
  | .segment .. => decide (r.order.headD 0 < s.now)

/-- The tile reads that carry is given: its guarantee, and what partitions leave. It takes no more than its next step reads. -/
def State.giveCarry (s : State) (n : Nat) : State :=
  { s with carry := { s.carry with credit := min s.carryNeed (s.carry.credit + n) } }

/-- Phase 4: guaranteed reads by partition number, then best effort, then carry. Best effort has no bound but the tags (log
entry 33). Answers the commands that waited for quota. -/
def State.issueReads (s : State) : List Nat × State :=
  let reqs := s.readRequests
  let slot := s.slotNow
  let i : Issue := ⟨s, reqs, (List.range 8).map (fun c => s.tagsBusy (16 + c)), 0⟩
  let i := (List.range 16).foldl (fun i p =>
    if slotQuota slot p = 0 ∨ slotQuota slot p = 255 then i else Issue.guaranteed p (slotQuota slot p) i) i
  let i := Issue.bestEffort slot reqs.length i
  let ready := (List.range 16).filter (fun p => decide (slotQuota slot p = 255)
    && i.reqs.any (fun r => decide (r.part = p) && i.free r))
  (((i.reqs.filter (fun r => i.s.readWaits r)).map (fun r => r.cid)).eraseDups,
    { i.s with shares := { i.s.shares with readWait := waitsNow i.s.shares.readWait i.s.now ready } }.giveCarry
      (slotCarryReads slot + i.spare))

/-! ### Wait ticks (R284) -/

/-- Contexts that could run and do not. -/
def State.idleContexts (s : State) : List FrameCtx :=
  s.tensor.ctxs.filter (fun c => s.ctxReady c && decide (s.tensor.running.getD c.frame none ≠ some (c.handle, c.part)))

/-- Steps that wait for save slots (11 R278). -/
def State.slotWaits (s : State) : List (Nat × Nat) :=
  ((s.tensor.ctxs.filter (fun c => !c.started && decide (c.slot = 0) && s.stepGranted c.handle c.part
    && (s.stepCtxs c.handle c.part).any (fun x => decide (32 ≤ (s.slotsUsed x.frame).length)))).map
      (fun c => (c.handle, c.part))).eraseDups

/-- The commands of a step. -/
def State.stepCids (s : State) (h p : Nat) : List Nat := (s.stepSeqs h p).map (fun q => q.cid)

/-- Rescoring batches whose vectors are here and that have no sequence entry (09 R234). -/
def State.batchWaits (s : State) : List Nat :=
  (s.searches.filter (fun x => decide (x.phase = .rescoring) && decide (x.params.mode = 2) && s.freeEntry?.isNone
    && decide (x.rank.any (fun r => r.score.isNone && decide (r.read = .arrived))))).map (fun x => x.cid)

/-- The commands held in this tick only because of others, beside those that wait for read quota. -/
def State.heldCommands (s : State) : List Nat :=
  (s.searches.filter (fun x => decide (x.phase = .waiting) && (match s.cmd? x.cid with
      | some c => decide (c.fetchTick < s.now) && s.served c
      | none => false))).map (fun x => x.cid)
    ++ ((s.idleContexts.map (fun c => s.stepCids c.handle c.part)).flatten)
    ++ ((s.slotWaits.map (fun h => s.stepCids h.1 h.2)).flatten)
    ++ s.batchWaits
    ++ (s.tensor.seqs.filter (fun q => decide (q.state = .waiting) && (q.batch.isSome || q.holding))).map (fun q => q.cid)
    ++ ((s.pwr.grants.filter (fun g => !g.granted && !g.releasing && decide (g.asked < s.now))).map (fun g => s.grantWaiters g)).flatten

/-- Charge a wait tick to each. -/
def State.chargeWaits (s : State) (cids : List Nat) : State := cids.eraseDups.foldl (fun s c => s.waitTick c) s

end Sys2Proof.Machine
end

