-- ==== Sys2Proof/Machine/Tick.lean ====
section
/-! DEFINITION. The tick (02 R21-R31, R39): TICK ends the tick in progress, advances the counter and processes phases 1 and 2 of
the new one; a row of its own may do any step of the tick in between, and what is due and has not been done by then is done when
the tick ends. The symbols that carry the tick to the channel chips, and ADMISSION. -/
namespace Sys2Proof.Machine

/-- The state a row leaves: the state as it was where it stops. -/
def stateOf (s : State) (a : Ans) : State :=
  match a with
  | .next t => t
  | _ => s

/-! ### What a tick still owes at its end -/

/-- Commands whose effect ended in an earlier tick are completed (06 R147). -/
def State.completeEnded (s : State) : State :=
  (sortBy cmdBefore s.cmds).foldl (fun s c => match c.stage with
    | .ended t st quals dw3 dw5 dw6 dw7 => if t < s.now then s.finish c.cid ⟨st, quals, dw3, dw5, dw6, dw7⟩ else s
    | _ => s) s

/-- The automatic trigger (06 R156): a level, tested for every collection; a suspended pass is resumed no earlier than
unit_fault_window ticks after its suspension. -/
def State.autoCarry (s : State) : State :=
  s.colls.foldl (fun s k =>
    let n := s.cobj k.num 0x53
    let busy := (match s.carry.pass with | some p => decide (p.coll = k.num) | none => false)
      || s.carry.queue.any (fun r => decide (r.coll = k.num))
    let held := s.carry.suspended.any (fun p => decide (p.coll = k.num) && (match p.phase with
      | .suspended t => decide (s.now < t + s.obj 0x6200 5)
      | _ => false))
    if decide (k.state = 2) && decide (n ≠ 0) && decide (n ≤ (k.rem.filter (fun i => i.presentAt s.now)).length) && !busy && !held then s.requestPass k.num []
    else s) s

/-- A pass with no segment to rewrite ends in a tick after its start (06 R163). -/
def State.endIdlePass (s : State) : State :=
  match s.carry.pass with
  | some p => if p.planClosed && p.todo.isEmpty && p.rewrite.isNone && decide (p.start < s.now) then s.endPass p else s
  | none => s


/-- Results whose last row came in an earlier tick are written (05 R136). -/
def State.writeResults (s : State) : State :=
  s.searches.foldl (fun s x => match x.phase with
    | .writing t => if t < s.now && (s.cmd? x.cid).all (fun c => c.page = .none) then s.finishResult x else s
    | _ => s) s

/-- FETCHes with a read past its deadline meet an internal fault (02 R31; 18 R452). -/
def State.fetchTimers (s : State) : State :=
  (s.cmds.filter (fun c => s.fetchLate c)).foldl (fun s c => s.faultCmd c.cid false) s

/-- Phase 3: admissions in precedence order, partition by partition (R40). -/
def State.admitAll (s : State) : State :=
  (List.range 16).foldl (fun s p => State.admitList s (s.admissible p)) s

/-- Cuts and lost replies of every search, and of every tag a cut left. -/
def State.searchTimers (s : State) : State :=
  let keys := (s.searches.map (fun x => (x.cid, x.ix)) ++ s.tags.map (fun g => (g.cid, g.ix))).eraseDups
  keys.foldl (fun s k =>
    let s := stateOf s (execCutTick k.1 k.2 s)
    let s := stateOf s (execRescoringCut k.1 k.2 s)
    stateOf s (execReplyDeadline k.1 k.2 s)) s

/-- NOPs that complete (13 R346). -/
def State.endNops (s : State) : State :=
  s.cmds.foldl (fun s c =>
    let s := stateOf s (execNop c.cid s)
    stateOf s (execNopWaitEnd c.cid s)) s

/-- A flash segment of a stream not back within flash_reply_limit: its jobs meet an internal fault (11 R281; 18 R452). -/
def State.lostSegments (s : State) : State :=
  let lim := s.obj 0x2100 6
  s.tensor.ctxs.foldl (fun s c => c.streams.zipIdx.foldl (fun s x =>
    if x.1.flight.any (fun g => !g.asked.isEmpty && decide (g.issued + lim < s.now)) then
      let s := s.stopStream c x.2 x.1
      (((s.dealt c).map (fun q => q.cid)).eraseDups.foldl (fun s cid => s.faultCmd cid false) s).wake c.frame
    else s) s) s

/-- Page requests past their time (10 R261). -/
def State.pageTimers (s : State) : State :=
  let s := (List.range 16).foldl (fun s f => (List.range 16).foldl (fun s i => s.streamPageTimeout f i) s) s
  s.cmds.foldl (fun s c => s.bufferPageTimeout c.cid) s

/-- A step saved whole asks for its power again before its first restore (16 R410). -/
def State.askRestores (s : State) : State :=
  (((s.tensor.ctxs.filter (fun c => c.saved)).map (fun c => (c.handle, c.part))).eraseDups).foldl (fun s k =>
    match s.model? k.1 with
    | some m =>
      if decide (64 < m.pkg.prog.stepTiles) && (s.grantOf (.frameStep k.1 k.2)).isNone then
        s.askGrant (.frameStep k.1 k.2) false m.pkg.prog.stepPower none
      else s
    | none => s) s

/-- Frame accounts of a tick: stall clocks, ticks a fixed-slice owner waited, save-slot waits (10 R259; 11 R278, R282). -/
def State.frameTicks (s : State) : State :=
  let s := s.tensor.ctxs.foldl (fun s c => match c.wait with
    | .swap _ => if s.tensor.running.getD c.frame none = some (c.handle, c.part) then s.stall c.part 4 850 else s
    | _ => s) s
  let s := (List.range 16).foldl (fun s f =>
    if s.idleContexts.any (fun c => decide (c.frame = f) && slotFixes s.slotNow f c.part
        && (match s.tensor.running.getD f none with | some r => decide (r.2 ≠ c.part) | none => true)) then
      s.count 0x2122 0 1 f
    else s) s
  s.count 0x2100 8 s.slotWaits.length

/-- The steps of models and frames that a tick owes. -/
def State.frameWork (s : State) : State :=
  let s := s.startCopies.retryLoads
  let s := s.searches.foldl (fun s x => if x.params.mode = 0 then s else s.maybeSelect x.cid x.ix) s
  let s := ((s.lostSegments).pageTimers).askRestores
  ((List.range 16).foldl (fun s f => s.fillFrame f) s).frameTicks

/-- Tiles and items that nothing can see any more. -/
def State.releaseAll (s : State) : State :=
  s.colls.foldl (fun s k =>
    if h : k.num < 64 then
      let s := stateOf s (execItemRelease ⟨k.num, h⟩ s)
      stateOf s (execTileRelease ⟨k.num, h⟩ s)
    else s) s

/-- Fetches held by a full completion queue (12 R301). -/
def State.holdQueues (s : State) : State :=
  s.sqs.foldl (fun s q =>
    match s.cq? q.cq with
    | some c =>
      if c.free = 0 ∧ q.state = .active ∧ q.waiting ≠ 0 then stateOf (s.noteHold q) (execCqStall q.qid (s.noteHold q))
      else s.modSq q.qid (fun q => { q with heldSince := none, stallCounted := false })
    | none => s) s

/-- What the Beadline station owes (15). -/
def State.beadlineWork (s : State) : State :=
  let s := stateOf s (execSyncLoss s)
  let s := stateOf s (execSyncSend s)
  let s := stateOf s (execOdTransferTimeout s)
  let s := (List.finRange 8).foldl (fun s r => stateOf s (execReport r s)) s
  let s := stateOf s (execHeartbeatSend s)
  let s := stateOf s (execEventQueueSend s)
  let s := stateOf s (execManagerHeartbeatLoss s)
  (s.sendWaiting).assignMore

/-- What power and heat owe (16 R413, R418). -/
def State.powerWork (s : State) : State :=
  let s := stateOf s (execPwrLimitActiveClear s)
  let s := stateOf s (execThermalStepFall s)
  s.askRecords.dropRecords

/-- Idle time of the power states (12 R314, R315). -/
def State.noteIdle (s : State) : State :=
  let t := s.now
  let since := if s.idle then some (s.ps.idleSince.getD t) else none
  { s with ps := { s.ps with idleSince := since } }.endExit

/-- Everything a tick still owes, in the order of its phases, before the next tick begins. -/
def State.endTick (s : State) : State :=
  let s := (((s.commitDue).completeEnded).autoCarry).endIdlePass
  let s := stateOf s (execBankExchange s)
  let s := stateOf s (execTickSyncWaitLimit s)
  let s := (s.writeResults).admitAll
  let s := (((s.searchTimers).fetchTimers).endNops).frameWork
  let s := (s.releaseAll).holdQueues
  let held := s.heldCommands
  let (late, s) := s.issueReads
  let s := s.chargeWaits (held ++ late)
  let s := { s with shares := { s.shares with streamWait := waitsNow s.shares.streamWait s.now s.emitReady } }
  let s := (s.beadlineWork).powerWork
  let s := { s with cmds := s.cmds.map (fun c => Cmd.nopSeen s c) }
  ((s.noteIdle).sendMsix).pruneLog

/-! ### The counter (R22, R25) -/

/-- The next tick: of every 16 consecutive ticks at most one is 99 or 101 periods long, moving the phase by 10 ns. What is left
within 5 ns is not slewed. -/
def Clock.advance (c : Clock) : Clock :=
  let c := { c with counter := c.counter + 1, world := c.world + 1 }
  if decide (c.slewNs ≠ 0) && decide (15 ≤ c.sinceAdjust) then
    let left := if 0 < c.slewNs then c.slewNs - 10 else c.slewNs + 10
    { c with
      slewNs := if left.natAbs ≤ 5 then 0 else left, sinceAdjust := 0, period := if 0 < c.slewNs then 99 else 101 }
  else { c with sinceAdjust := c.sinceAdjust + 1, period := 100 }

/-- Advance the counter and send its tick symbol on every rod link (R29); when the last of an offset has been slewed the source
is locked (R50). -/
def State.advance (s : State) : State :=
  let c := { s.clk.advance with sent := some s.clk.advance.counter }
  let done := decide (s.clk.slewNs ≠ 0) && decide (c.slewNs = 0)
  let s := { s with clk := c }
  if done then s.tickSource 1 else s

/-- Channel chips that have had no symbol for 100 tk are to be taken out (18 R457). -/
def State.silentChips (s : State) : State :=
  s.clk.chips.zipIdx.foldl (fun s c =>
    if c.1.stopped && s.unitIn (unitChip c.2) && decide (c.1.lastSymbol + 100 ≤ s.now)
        && s.orders.all (fun o => decide (o.body ≠ .unitOut (unitChip c.2) 6)) then
      s.internal 0 (.unitOut (unitChip c.2) 6)
    else s) s

/-! ### TICK -/

/-- A tick of a module in service: the old tick ends, the counter advances, resets take effect, then phase 2 with the governor's
decisions. Phases 3 and 4 follow in the tick's rows or at its end. -/
def State.tickOn (s : State) : State :=
  let (goes, s) := s.endTick.advance.phaseOne
  if goes then (s.phaseTwo.govern.2).silentChips else s

/-- Time passes in a module that is off, in hold-up or held in reset: its counter stands at 0 (R21). A dump ends within
8,020 tk of tick L (16 R404). -/
def State.tickOff (s : State) : State :=
  let s := { s with clk := { s.clk with world := s.clk.world + 1 } }
  match s.pwr.phase with
  | .holdup since _ => if since + 8020 < s.clk.world then s.endDump else s
  | _ => s

/-- TICK: a tick edge. -/
def execTick (s : State) : Ans := if s.up then .next s.tickOn else .next s.tickOff

/-! ### Tick symbols (R29-R31) -/

/-- Change the clock of a channel chip. -/
def State.modChip (s : State) (chip : Nat) (f : ChipClock → ChipClock) : State :=
  { s with clk := { s.clk with chips := s.clk.chips.zipIdx.map (fun c => if c.2 = chip then f c.1 else c.1) } }

/-- Is this the symbol that the hub sent for a counter value: its low 12 bits, and all 64 bits when those are zero (R29)? -/
def isSymbol (n : Tick) (low : BitVec 12) (full : Option (BitVec 64)) : Bool :=
  decide (low = BitVec.ofNat 12 n) && decide (full = if n % 4096 = 0 then some (BitVec.ofNat 64 n) else none)

/-- The copy of a chip after a symbol with the low 12 bits, and the whole counter where the symbol carries it. The reload at
"the next full-value symbol" may be by the very symbol that disagrees (DESIGN CHOICE, log entry 67). -/
def ChipClock.symbol (c : ChipClock) (t : Tick) (low : Nat) (full : Option Nat) : ChipClock :=
  let n := c.count + 1
  let wrong := c.reload || decide (n % 4096 ≠ low)
  match full with
  | some v => { c with count := if wrong then v else n, lastSymbol := t, reload := false, stopped := false }
  | none => { c with count := n, lastSymbol := t, reload := wrong, stopped := false }

/-- A channel chip observes the edge within 20 ns of the tick master; the skew it shows has no stated value (log entry 67). -/
def State.measureSkew (s : State) : State :=
  let (v, s) := s.draw
  { s with clk := { s.clk with skewMax := max s.clk.skewMax (v % 21) } }

/-- TICK_SYMBOL: a chip that has not yet had the symbol of the last edge receives it, and its copy advances. One that disagrees
is counted and waits to be reloaded at the next full value; until that reload it is not counted again (DESIGN CHOICE, log
entry 67). -/
def execTickSymbol (chip : Fin 8) (low : BitVec 12) (full : Option (BitVec 64)) (s : State) : Ans :=
  match s.clk.chips[chip.val]?, s.clk.sent with
  | some c, some n =>
    if s.up && isSymbol n low full && decide (c.lastSymbol < n) then
      let t := s.now
      let fresh := !c.reload && decide ((c.count + 1) % 4096 ≠ low.toNat)
      let s := (s.modChip chip (fun c => c.symbol t low.toNat (full.map (fun v => v.toNat)))).measureSkew
      .next (if fresh then s.count 0x3000 8 1 else s)
    else .next s
  | _, _ => .next s

/-- TICK_SYMBOL_TIMEOUT: no symbol for 4 tk, and the rods of the chip issue no further reads. -/
def execTickSymbolTimeout (chip : Fin 8) (s : State) : Ans :=
  match s.clk.chips[chip.val]? with
  | none => .next s
  | some c =>
    if s.up && decide (c.lastSymbol + 4 ≤ s.now) then .next (s.modChip chip (fun c => { c with stopped := true }))
    else .next s

/-! ### ADMISSION (R39, R40) -/

/-- ADMISSION of a waiting search: the mutations of the tick commit, and the searches of its partition that rank before it are
admitted first. -/
def execAdmission (cid ix : Nat) (s : State) : Ans :=
  match s.search? cid ix with
  | none => .next s
  | some x =>
    let ready (s : State) : List Search := s.admissible x.part
    if s.up && (ready s).any (fun y => y.is cid ix) then
      let s := s.commitDue
      .next (State.admitList s (upTo cid ix (ready s)))
    else .next s

end Sys2Proof.Machine
end

