-- ==== Sys2Proof/Machine/Dispatch.lean ====
section
/-! DEFINITION. One arm per command: a direct call of its meaning. -/
namespace Sys2Proof.Machine

def exec (i : Instr) (s : State) : Host.Outcome State Fault Refusal :=
  match i with
  | .tick => Sys2Proof.Machine.execTick s
  | .tickSymbol chip low full => Sys2Proof.Machine.execTickSymbol chip low full s
  | .tickSymbolTimeout chip => Sys2Proof.Machine.execTickSymbolTimeout chip s
  | .tickSyncWaitLimit => Sys2Proof.Machine.execTickSyncWaitLimit s
  | .tickTableSwitch via => Sys2Proof.Machine.execTickTableSwitch via s
  | .bankExchange => Sys2Proof.Machine.execBankExchange s
  | .nop cid => Sys2Proof.Machine.execNop cid s
  | .nopWaitEnd cid => Sys2Proof.Machine.execNopWaitEnd cid s
  | .search cid inbuf => Sys2Proof.Machine.execSearch cid inbuf s
  | .searchBatch cid inbuf => Sys2Proof.Machine.execSearchBatch cid inbuf s
  | .encodeSearch cid inbuf => Sys2Proof.Machine.execEncodeSearch cid inbuf s
  | .rerank cid inbuf => Sys2Proof.Machine.execRerank cid inbuf s
  | .fetch cid inbuf => Sys2Proof.Machine.execFetch cid inbuf s
  | .insert cid inbuf => Sys2Proof.Machine.execInsert cid inbuf s
  | .upsert cid inbuf => Sys2Proof.Machine.execUpsert cid inbuf s
  | .delete cid => Sys2Proof.Machine.execDelete cid s
  | .stage cid => Sys2Proof.Machine.execStage cid s
  | .commit cid => Sys2Proof.Machine.execCommit cid s
  | .carry cid => Sys2Proof.Machine.execCarry cid s
  | .passStart => Sys2Proof.Machine.execPassStart s
  | .plan => Sys2Proof.Machine.execPlan s
  | .segmentRewrite place => Sys2Proof.Machine.execSegmentRewrite place s
  | .directorySwitch => Sys2Proof.Machine.execDirectorySwitch s
  | .itemRelease coll => Sys2Proof.Machine.execItemRelease coll s
  | .tileRelease coll => Sys2Proof.Machine.execTileRelease coll s
  | .bulkBuild cid inbuf graph => Sys2Proof.Machine.execBulkBuild cid inbuf graph s
  | .rehome cid inbuf => Sys2Proof.Machine.execRehome cid inbuf s
  | .collectionCreate cid inbuf place => Sys2Proof.Machine.execCollectionCreate cid inbuf place s
  | .collectionDrop cid => Sys2Proof.Machine.execCollectionDrop cid s
  | .modelLoad cid inbuf place => Sys2Proof.Machine.execModelLoad cid inbuf place s
  | .loadComplete handle => Sys2Proof.Machine.execLoadComplete handle s
  | .modelEvict cid => Sys2Proof.Machine.execModelEvict cid s
  | .run cid inbuf => Sys2Proof.Machine.execRun cid inbuf s
  | .objRead cid => Sys2Proof.Machine.execObjRead cid s
  | .objWrite cid inbuf => Sys2Proof.Machine.execObjWrite cid inbuf s
  | .tierMove cid place => Sys2Proof.Machine.execTierMove cid place s
  | .moveComplete id => Sys2Proof.Machine.execMoveComplete id s
  | .flush cid => Sys2Proof.Machine.execFlush cid s
  | .fwLoad cid inbuf => Sys2Proof.Machine.execFwLoad cid inbuf s
  | .fwCommit cid programFails => Sys2Proof.Machine.execFwCommit cid programFails s
  | .queueCreate cid => Sys2Proof.Machine.execQueueCreate cid s
  | .queueDelete cid => Sys2Proof.Machine.execQueueDelete cid s
  | .queueReset cid => Sys2Proof.Machine.execQueueReset cid s
  | .sqTailDoorbell p fn q value => Sys2Proof.Machine.execSqTailDoorbell p fn q value s
  | .cqHeadDoorbell p fn q value => Sys2Proof.Machine.execCqHeadDoorbell p fn q value s
  | .entryFetch q entry => Sys2Proof.Machine.execEntryFetch q entry s
  | .cqStall q => Sys2Proof.Machine.execCqStall q s
  | .sqReadError q => Sys2Proof.Machine.execSqReadError q s
  | .bufferReadError r => Sys2Proof.Machine.execBufferReadError r s
  | .admission cid ix => Sys2Proof.Machine.execAdmission cid ix s
  | .round cid ix => Sys2Proof.Machine.execRound cid ix s
  | .expansionRequest cid ix node => Sys2Proof.Machine.execExpansionRequest cid ix node s
  | .expansionReply cid ix node => Sys2Proof.Machine.execExpansionReply cid ix node s
  | .replyDeadline cid ix => Sys2Proof.Machine.execReplyDeadline cid ix s
  | .cutTick cid ix => Sys2Proof.Machine.execCutTick cid ix s
  | .remainderPassStart => Sys2Proof.Machine.execRemainderPassStart s
  | .remainderPassEnd => Sys2Proof.Machine.execRemainderPassEnd s
  | .vectorRead cid ix slot => Sys2Proof.Machine.execVectorRead cid ix slot s
  | .vectorReply cid ix slot => Sys2Proof.Machine.execVectorReply cid ix slot s
  | .rescoringCut cid ix => Sys2Proof.Machine.execRescoringCut cid ix s
  | .matmul f => Sys2Proof.Machine.execMatmul f s
  | .xorpop f => Sys2Proof.Machine.execXorpop f s
  | .ewise f => Sys2Proof.Machine.execEwise f s
  | .curve f => Sys2Proof.Machine.execCurve f s
  | .norm f => Sys2Proof.Machine.execNorm f s
  | .softnorm f => Sys2Proof.Machine.execSoftnorm f s
  | .gather f => Sys2Proof.Machine.execGather f s
  | .argmax f => Sys2Proof.Machine.execArgmax f s
  | .topk f => Sys2Proof.Machine.execTopk f s
  | .rotate f => Sys2Proof.Machine.execRotate f s
  | .streamSwap f => Sys2Proof.Machine.execStreamSwap f s
  | .streamReArm f => Sys2Proof.Machine.execStreamReArm f s
  | .sync f => Sys2Proof.Machine.execSync f s
  | .endStep f => Sys2Proof.Machine.execEndStep f s
  | .streamBase f n => Sys2Proof.Machine.execStreamBase f n s
  | .streamLoop f n => Sys2Proof.Machine.execStreamLoop f n s
  | .streamNext f n => Sys2Proof.Machine.execStreamNext f n s
  | .streamEmit f n => Sys2Proof.Machine.execStreamEmit f n s
  | .streamAdd f n => Sys2Proof.Machine.execStreamAdd f n s
  | .streamEnd f n => Sys2Proof.Machine.execStreamEnd f n s
  | .streamTileArrival f n => Sys2Proof.Machine.execStreamTileArrival f n s
  | .stepBoundary handle part => Sys2Proof.Machine.execStepBoundary handle part s
  | .save f => Sys2Proof.Machine.execSave f s
  | .restore f => Sys2Proof.Machine.execRestore f s
  | .prgResponse u k code => Sys2Proof.Machine.execPrgResponse u k code s
  | .pageRequestTimeout u k => Sys2Proof.Machine.execPageRequestTimeout u k s
  | .atsInvalidation p fn addr len => Sys2Proof.Machine.execAtsInvalidation p fn addr len s
  | .grantRelease gid => Sys2Proof.Machine.execGrantRelease gid s
  | .guard sample => Sys2Proof.Machine.execGuard sample s
  | .pwrLimitActiveClear => Sys2Proof.Machine.execPwrLimitActiveClear s
  | .thermalSample readings => Sys2Proof.Machine.execThermalSample readings s
  | .thermalStepFall => Sys2Proof.Machine.execThermalStepFall s
  | .coldPowerOn => Sys2Proof.Machine.execColdPowerOn s
  | .inputLoss => Sys2Proof.Machine.execInputLoss s
  | .overvoltage => Sys2Proof.Machine.execOvervoltage s
  | .lowInput => Sys2Proof.Machine.execLowInput s
  | .railFault rail => Sys2Proof.Machine.execRailFault rail s
  | .moduleReset via => Sys2Proof.Machine.execModuleReset via s
  | .moduleResetEffect => Sys2Proof.Machine.execModuleResetEffect s
  | .mrst asserted => Sys2Proof.Machine.execMrst asserted s
  | .resetRelease => Sys2Proof.Machine.execResetRelease s
  | .perst p asserted => Sys2Proof.Machine.execPerst p asserted s
  | .hotReset p => Sys2Proof.Machine.execHotReset p s
  | .functionLevelReset p fn => Sys2Proof.Machine.execFunctionLevelReset p fn s
  | .bootStage result data => Sys2Proof.Machine.execBootStage result data s
  | .managementStartTimeout => Sys2Proof.Machine.execManagementStartTimeout s
  | .fullIndexAvailability => Sys2Proof.Machine.execFullIndexAvailability s
  | .internalFault site cids => Sys2Proof.Machine.execInternalFault site cids s
  | .rodLinkFailure chip retrained => Sys2Proof.Machine.execRodLinkFailure chip retrained s
  | .noReadyStatus die => Sys2Proof.Machine.execNoReadyStatus die s
  | .unitOut unit cause => Sys2Proof.Machine.execUnitOut unit cause s
  | .unitTakeOut via value => Sys2Proof.Machine.execUnitTakeOut via value s
  | .lostTile tile system bothCopies => Sys2Proof.Machine.execLostTile tile system bothCopies s
  | .mapRepair coll => Sys2Proof.Machine.execMapRepair coll s
  | .returnScan rod => Sys2Proof.Machine.execReturnScan rod s
  | .reload handle block flashOk => Sys2Proof.Machine.execReload handle block flashOk s
  | .fatal cause => Sys2Proof.Machine.execFatal cause s
  | .powerStateEntry => Sys2Proof.Machine.execPowerStateEntry s
  | .powerStateExit => Sys2Proof.Machine.execPowerStateExit s
  | .registerWrite p offset size value => Sys2Proof.Machine.execRegisterWrite p offset size value s
  | .tckCount p high size => Sys2Proof.Machine.execTckCount p high size s
  | .hifEvtClear p value => Sys2Proof.Machine.execHifEvtClear p value s
  | .hifEvtStatus p => Sys2Proof.Machine.execHifEvtStatus p s
  | .adminPairEnable p vector ien => Sys2Proof.Machine.execAdminPairEnable p vector ien s
  | .adminPairDisable p => Sys2Proof.Machine.execAdminPairDisable p s
  | .secLock p value => Sys2Proof.Machine.execSecLock p value s
  | .configDefaults via => Sys2Proof.Machine.execConfigDefaults via s
  | .tierModeRequest via => Sys2Proof.Machine.execTierModeRequest via s
  | .winRead p fn w => Sys2Proof.Machine.execWinRead p fn w s
  | .winWrite p fn w data => Sys2Proof.Machine.execWinWrite p fn w data s
  | .winReadDescriptor p fn w => Sys2Proof.Machine.execWinReadDescriptor p fn w s
  | .mbxSend p fn dest msg => Sys2Proof.Machine.execMbxSend p fn dest msg s
  | .mbxInHead p fn value => Sys2Proof.Machine.execMbxInHead p fn value s
  | .syncSend => Sys2Proof.Machine.execSyncSend s
  | .syncFrame fr localNs residence => Sys2Proof.Machine.execSyncFrame fr localNs residence s
  | .syncLoss => Sys2Proof.Machine.execSyncLoss s
  | .delayMeasurement dir sentNs => Sys2Proof.Machine.execDelayMeasurement dir sentNs s
  | .delayReq fr turnaround => Sys2Proof.Machine.execDelayReq fr turnaround s
  | .delayResp fr recvNs => Sys2Proof.Machine.execDelayResp fr recvNs s
  | .odRead fr => Sys2Proof.Machine.execOdRead fr s
  | .odWrite fr => Sys2Proof.Machine.execOdWrite fr s
  | .odTransferTimeout => Sys2Proof.Machine.execOdTransferTimeout s
  | .frameForward fr => Sys2Proof.Machine.execFrameForward fr s
  | .report row => Sys2Proof.Machine.execReport row s
  | .heartbeatSend => Sys2Proof.Machine.execHeartbeatSend s
  | .heartbeat fr => Sys2Proof.Machine.execHeartbeat fr s
  | .managerHeartbeatLoss => Sys2Proof.Machine.execManagerHeartbeatLoss s
  | .assign fr => Sys2Proof.Machine.execAssign fr s
  | .release fr => Sys2Proof.Machine.execRelease fr s
  | .start fr => Sys2Proof.Machine.execStart fr s
  | .stop fr => Sys2Proof.Machine.execStop fr s
  | .reset fr => Sys2Proof.Machine.execReset fr s
  | .linkUp dir => Sys2Proof.Machine.execLinkUp dir s
  | .linkDown dir => Sys2Proof.Machine.execLinkDown dir s
  | .getVersion p => Sys2Proof.Machine.execGetVersion p s
  | .getCapabilities p => Sys2Proof.Machine.execGetCapabilities p s
  | .negotiateAlgorithms p asym hash => Sys2Proof.Machine.execNegotiateAlgorithms p asym hash s
  | .getDigests p => Sys2Proof.Machine.execGetDigests p s
  | .getCertificate p slot offset len => Sys2Proof.Machine.execGetCertificate p slot offset len s
  | .challenge p slot nonce => Sys2Proof.Machine.execChallenge p slot nonce s
  | .getMeasurements p index nonce => Sys2Proof.Machine.execGetMeasurements p index nonce s
  | .idcode => Sys2Proof.Machine.execIdcode s
  | .debugAccess => Sys2Proof.Machine.execDebugAccess s
  | .testLogicReset dbgSel => Sys2Proof.Machine.execTestLogicReset dbgSel s
  | .linkTraining p info => Sys2Proof.Machine.execLinkTraining p info s
  | .atsTranslationCompletion u k granted data => Sys2Proof.Machine.execAtsTranslationCompletion u k granted data s
  | .doeDiscovery p index => Sys2Proof.Machine.execDoeDiscovery p index s
  | .vfEnable p count => Sys2Proof.Machine.execVfEnable p count s
  | .inrushRestart => Sys2Proof.Machine.execInrushRestart s
  | .eventQueueSend => Sys2Proof.Machine.execEventQueueSend s

end Sys2Proof.Machine
end

