-- ==== Sys2Proof/Safety.lean ====
section
/-! DEFINITION. The terms the statements use: states as a command leaves them, lists of commands of one shape, and what counts as
a good state. -/
namespace Sys2Proof.Machine

/-- The command answers this next state. -/
def Runs (i : Instr) (s t : State) : Prop := exec i s = .next t

/-- A state as an order leaves it: stamped with the next tick, given the next receipt number (02 R32, R36). -/
def State.ordered (s : State) (rank sub : Nat) (body : OrderBody) : State :=
  { s with
    orders := s.orders ++ [⟨s.now + 1, rank, sub, s.receipt, body⟩]
    receipt := s.receipt + 1 }

/-- A state in which the effect of a fetched command waits for the next tick (02 R33, R39), its input buffer held. -/
def State.registered (s : State) (c : Cmd) (place : Nat) (inbuf : Bytes) : State :=
  { s with
    orders := s.orders ++ [⟨s.now + 1, portRank c.port, c.sq + 1, s.receipt, .effect c.cid place⟩]
    receipt := s.receipt + 1
    cmds := mapWhere (fun d => decide (d.cid = c.cid)) (fun d => { d with stage := .effect (s.now + 1), inbuf := inbuf }) s.cmds }

/-- Every byte outside `n` bytes from `a` reads as before. -/
def OnlyBytes (s t : State) (a n : Nat) : Prop := ∀ x, (x < a ∨ a + n ≤ x) → t.byte x = s.byte x

/-- Every byte of memory reads as before. -/
def SameBytes (s t : State) : Prop := ∀ x, t.byte x = s.byte x

/-- The same with the input buffer left as it is. -/
def State.waitsEffect (s : State) (c : Cmd) (place : Nat) : State :=
  { s with
    orders := s.orders ++ [⟨s.now + 1, portRank c.port, c.sq + 1, s.receipt, .effect c.cid place⟩]
    receipt := s.receipt + 1
    cmds := mapWhere (fun d => decide (d.cid = c.cid)) (fun d => { d with stage := .effect (s.now + 1) }) s.cmds }

/-- The window of a function while the operation just committed is pending (14 R374). -/
def pendingWindow (op : Nat) (w : WinFields) (data : Bytes) : Window :=
  ⟨w.index.toNat, w.sub.toNat, op, w.arg.toNat, w.len.toNat, 0, false, true, w.token.toNat, 0, data⟩

/-- A window operation committed: the window shows it pending, and its order is stamped with the next tick. -/
def State.windowAsked (s : State) (p : Port) (fn : Fin 64) (op : Nat) (w : WinFields) (data : Bytes) : State :=
  { s with
    wins := Sparse.put (fun _ => Window.zero) s.wins (winKey p fn) (pendingWindow op w data)
    orders := s.orders ++ [⟨s.now + 1, portRank p, 0, s.receipt, .win p fn op w data⟩]
    receipt := s.receipt + 1 }

/-- A state once a command has been completed without failure: one entry in the completion queue, counted for its queue (12
R302, R303). -/
def State.completed (s : State) (c : Cmd) (q : Sq) (k : Cq) (d : Done) : State :=
  let p := s.port q.port
  let t : State := { s with
    cmds := s.cmds.filter (fun x => decide (x.cid ≠ c.cid))
    mem := pokeBytes s.mem (hostBase k.port + (k.base + 32 * k.write))
      (completionBytes c.cmdId q.head q.qid k.phase d p.attn p.evCount s.now)
    posted := s.posted ++ [⟨k.port, k.fn, k.base + 32 * k.write, 32, false⟩]
    cqs := mapWhere (fun x => decide (x.qid = k.qid)) (fun x => { x with
      write := (x.write + 1) % x.depth
      phase := if x.write + 1 = x.depth then !x.phase else x.phase
      reserved := x.reserved - 1
      signal := x.signal || (x.ien && !c.noint) }) s.cqs
    sqs := mapWhere (fun x => decide (x.qid = q.qid)) (fun x => x.countDone d.status) s.sqs }
  t.accountJob c

/-- The state once an entry has been fetched and before its checks: its head moves on, a completion slot is reserved and its
command stands at the end of the fetched ones (12 R300, R301). -/
def State.fetched (s : State) (q : Sq) (entry : Bytes) : State :=
  { s with
    sqs := mapWhere (fun x => decide (x.qid = q.qid)) Sq.advance s.sqs
    cqs := mapWhere (fun x => decide (x.qid = q.cq)) (fun x => { x with reserved := x.reserved + 1 }) s.cqs
    nextCid := s.nextCid + 1
    cmds := s.cmds ++ [s.newCmd q entry] }

/-- A command whose searches have been made and wait for admission. -/
def State.searchesAsked (s : State) (cmd : Cmd) (inbuf : Bytes) (xs : List Search) : State :=
  { s with
    cmds := mapWhere (fun d => decide (d.cid = cmd.cid)) (fun d => { d with inbuf := inbuf, stage := .searching }) s.cmds
    searches := s.searches ++ xs }

/-- The searches a command makes from its buffer: one for each of `n` queries. -/
def State.queriesOf (s : State) (cmd : Cmd) (c : Coll) (p : WalkParams) (n : Nat) : List Search :=
  (List.range n).map (fun i => s.fillQuery (newSearch cmd c i p .waiting) cmd c)

/-- A context as an instruction leaves it: open accumulators are kept by MATMUL only (09 R223). -/
def FrameCtx.afterTile (c : FrameCtx) (t : TileInstr) : FrameCtx :=
  if t.op = TOp.matmul then c else { c with accums := [], accShape := none }

/-- The tile rows that compute: row, op code, frame clocks and meaning (09 R218). -/
def tileRows (f : Fin 16) :
    List (Instr × Nat × (TileInstr → Nat) × (State → FrameCtx → ModelPkg → TileInstr → TileEffect)) :=
  [(.matmul f, TOp.matmul, gridClocks, State.matmul), (.xorpop f, TOp.xorpop, gridClocks, State.xorpop),
   (.ewise f, TOp.ewise, vectorClocks, State.ewise), (.curve f, TOp.curve, vectorClocks, State.curveTile),
   (.norm f, TOp.norm, vectorClocks, State.norm), (.softnorm f, TOp.softnorm, vectorClocks, State.softnorm),
   (.gather f, TOp.gather, fun t => ceilDiv (t.m * t.k) 64, State.gatherTile),
   (.argmax f, TOp.argmax, vectorClocks, State.argmaxTile), (.topk f, TOp.topk, fun t => ceilDiv t.k 64, State.topkTile)]

/-- A stream as a one-instruction row leaves it: row, op code and change (10 R250). -/
def streamRows (f i : Fin 16) : List (Instr × Nat × (Stream → StreamInstr → Stream)) :=
  [(.streamBase f i, 1, fun x t => { x with pc := x.pc + 1, addr := x.baseReg + t.value }),
   (.streamLoop f i, 2, fun x t => { x with pc := x.pc + 1, dims := (t.d, x.addr, 0, t.count, t.value, x.pc + 1) :: x.dims }),
   (.streamNext f i, 3, fun x _ => x.next),
   (.streamAdd f i, 5, fun x t => { x with pc := x.pc + 1, addr := x.addr + t.value }),
   (.streamEnd f i, 0, fun x _ => { x with ended := true })]

/-- A step whose frames have all reached END, once its clocks are charged and the sequences that end have left (09 R235,
R236). -/
def State.stepEnded (s : State) (m : Model) (h p : Nat) : State :=
  let s := s.chargeStepClocks h p
  let s := (s.stepSeqs h p).foldl (fun s q => s.leave m q) s
  { s with tensor := { s.tensor with
      ctxs := s.tensor.ctxs.filter (fun c => !(decide (c.handle = h) && decide (c.part = p)))
      sums := s.tensor.sums.filter (fun b => !(decide (b.handle = h) && decide (b.part = p))) } }

/-- The station takes this frame from the line: in service, its link up, well formed, its CRC right, its type and destination
defined (15 R382). -/
def State.hears (s : State) (fr : BdlFrame) : Prop :=
  s.up = true ∧ s.bdl.linkOf fr.dir = true ∧ fr.violation = false ∧ fr.payload.length ≤ 64
    ∧ crc16 (frameBytes fr) = fr.crc ∧ frameKnown fr = true

/-- A state once a frame has been received and counted. -/
def State.heard (s : State) : State := s.count 0x1100 0x0D 1

/-- A state once a manager's frame has been passed on where others are to have it too, and noted as acted on (15 R384,
R386). -/
def State.acted (s : State) (fr : BdlFrame) : State := (s.heard.passOn fr).markSeen fr

/-- A new frame of the manager that this station is to act on. -/
def State.managersFrame (s : State) (fr : BdlFrame) : Prop :=
  s.hears fr ∧ fr.source = 0 ∧ s.isFor fr = true ∧ s.isNew fr = true ∧ s.bdl.manager = false

/-- A state that changes only the station, the tick clock, the dictionary's objects and the events of the ports. -/
def State.onlyStation (s t : State) : Prop :=
  t = { s with bdl := t.bdl, clk := t.clk, dict := t.dict, portA := t.portA, portB := t.portB }

/-- Only the copy of one channel chip has changed, apart from counted objects. -/
def State.chipChanged (s t : State) (chip : Nat) (c : ChipClock) : Prop :=
  t = { s with clk := { s.clk with chips := t.clk.chips, skewMax := t.clk.skewMax }, dict := t.dict, free := t.free } ∧ t.clk.chips[chip]? = some c
    ∧ ∀ j, j ≠ chip → t.clk.chips[j]? = s.clk.chips[j]?

/-- The commands that are the write of one object: index, sub-index, length and value (14 R371). -/
def objRow (via : Via) (unit : BitVec 16) : List (Instr × Nat × Nat × Nat × Nat) :=
  [(.tickTableSwitch via, 0x3010, 2, 1, 1), (.moduleReset via, 0x2000, 1, 1, 0xA5), (.configDefaults via, 0x2000, 5, 1, 0xA5),
   (.tierModeRequest via, 0x5000, 5, 1, 2), (.unitTakeOut via unit, 0x6200, 8, 2, unit.toNat)]

/-- The module is off, waits for its ramp, or is held in reset. -/
def PowerPhase.resting (p : PowerPhase) : Bool :=
  match p with
  | .off => true
  | .rampWait _ => true
  | .held _ => true
  | .on => false
  | .holdup _ _ => false

/-- A good state: memory and the object dictionary in canonical form, a tick of 99, 100 or 101 periods and eight channel chips
(02 R22, R29), and a counter of 0 while the module is off or held in reset (02 R21). -/
def State.Inv (s : State) : Prop :=
  Memory.wf s.mem = true ∧ Sparse.wf dictDefault s.dict = true ∧ s.clk.period ∈ [99, 100, 101] ∧ s.clk.chips.length = 8
    ∧ (s.pwr.phase.resting = true → s.clk.counter = 0)

end Sys2Proof.Machine
end

