-- ==== Sys2Proof/Certificates/Slice0/Obligations.lean ====
section
/-! DEFINITION. Statements for the provers: what each command of the block does, where the source is one of the numbered rules
or sections of the manual. An equation `exec c s = .next t` says both that the command completes and that nothing else of the
state changes. -/
open Sys2Proof Sys2Proof.Machine

/-- A step runs the command at the front of the queue. step of a state with c at the front of its queue is exec of c on the state with the rest of the queue; with an empty queue the block idles. The queue and the idle step are the model's own (log entry 1) -/
def Obligations.StepRunsFront : Prop :=
  (∀ (c : Instr) (s : State) (q : List Instr), s.pending = c :: q → step s = exec c { s with pending := q })
  ∧ (∀ s : State, s.pending = [] → step s = .next s)

/-- A fetched command with a phase-2 effect is registered for the next tick. REHOME, COLLECTION_CREATE, OBJ_WRITE, MODEL_LOAD, COLLECTION_DROP, MODEL_EVICT, TIER_MOVE, FLUSH, QUEUE_CREATE, QUEUE_DELETE, QUEUE_RESET and OBJ_READ, once fetched, register an order stamped with the next tick and ranked by port, queue and receipt, and change nothing else but their own stage and input buffer. That the commit is noted for the next tick follows log entry 8 -/
def Obligations.CommandRowsRegister : Prop :=
  (∀ (s : State) (cid place : Nat) (inbuf : Bytes) (c : Cmd),
    (s.ready? cid Op.rehome = some c →
      exec (.rehome cid inbuf) s = .next (s.registered c 0 (fit c.inLen inbuf)))
    ∧ (s.ready? cid Op.collectionCreate = some c →
      exec (.collectionCreate cid inbuf place) s = .next (s.registered c place inbuf))
    ∧ (s.ready? cid Op.objWrite = some c →
      exec (.objWrite cid inbuf) s = .next (s.registered c 0 inbuf))
    ∧ (∀ pkg tiles, s.ready? cid Op.modelLoad = some c
        → readPackage (c.packedTiles inbuf) (recSaveGap (s.partRec c.part)) = .good pkg tiles →
      exec (.modelLoad cid inbuf place) s = .next (s.registered c place inbuf)))
  ∧ (∀ (s : State) (cid place : Nat) (c : Cmd),
    (s.ready? cid Op.collectionDrop = some c → exec (.collectionDrop cid) s = .next (s.waitsEffect c 0))
    ∧ (s.ready? cid Op.modelEvict = some c → exec (.modelEvict cid) s = .next (s.waitsEffect c 0))
    ∧ (s.ready? cid Op.tierMove = some c → exec (.tierMove cid place) s = .next (s.waitsEffect c place))
    ∧ (s.ready? cid Op.flush = some c → exec (.flush cid) s = .next (s.waitsEffect c 0))
    ∧ (s.ready? cid Op.queueCreate = some c → exec (.queueCreate cid) s = .next (s.waitsEffect c 0))
    ∧ (s.ready? cid Op.queueDelete = some c → exec (.queueDelete cid) s = .next (s.waitsEffect c 0))
    ∧ (s.ready? cid Op.queueReset = some c → exec (.queueReset cid) s = .next (s.waitsEffect c 0))
    ∧ (s.ready? cid Op.objRead = some c → c.fetchTick < s.now → exec (.objRead cid) s = .next (s.waitsEffect c 0)))

/-- A doorbell is stamped with the next tick and the last value of a tick is the one stamped. SQ_TAIL_DOORBELL and CQ_HEAD_DOORBELL leave one order for that doorbell stamped with the next tick, holding the value just written; every other order stays. That the write is noted for the next tick follows log entry 8 -/
def Obligations.DoorbellStamped : Prop :=
  ∀ (s : State) (p : Port) (fn : Fin 64) (q : Nat) (v : BitVec 32), s.takes p = true →
    (∃ t, exec (.sqTailDoorbell p fn q v) s = .next t
      ∧ t = { s with orders := t.orders, receipt := s.receipt + 1 }
      ∧ ∀ o, o ∈ t.orders ↔ o = ⟨s.now + 1, portRank p, 0, s.receipt, .sqDoorbell p fn q v.toNat⟩
          ∨ (o ∈ s.orders ∧ ¬ (o.stamp = s.now + 1 ∧ ∃ w, o.body = .sqDoorbell p fn q w)))
    ∧ (∃ t, exec (.cqHeadDoorbell p fn q v) s = .next t
      ∧ t = { s with orders := t.orders, receipt := s.receipt + 1 }
      ∧ ∀ o, o ∈ t.orders ↔ o = ⟨s.now + 1, portRank p, 0, s.receipt, .cqDoorbell p fn q v.toNat⟩
          ∨ (o ∈ s.orders ∧ ¬ (o.stamp = s.now + 1 ∧ ∃ w, o.body = .cqDoorbell p fn q w)))

/-- BAR0 register writes are stamped with the next tick. REGISTER_WRITE, HIF_EVT_CLEAR, ADMIN_PAIR_ENABLE, ADMIN_PAIR_DISABLE and SEC_LOCK register one order at the written offset; an 8-byte write of two 4-byte registers registers both; an access of the wrong size is ignored and counted. That the write is noted for the next tick follows log entry 8 -/
def Obligations.RegisterWritesStamped : Prop :=
  ∀ (s : State) (p : Port) (off size : Nat) (v : BitVec 64) (w : BitVec 32) (vec : BitVec 11) (ien : Bool), s.takes p = true →
    (regAccessOk off size = true → (size = 4 ∨ ∃ k, k ≠ 0 ∧ regAt off = some (off, off, k)) →
      exec (.registerWrite p off size v) s = .next (s.ordered (portRank p) 0 (.barWrite p off size v.toNat)))
    ∧ (regAccessOk off 8 = true → regAt off = some (off, off, 0) →
      exec (.registerWrite p off 8 v) s = .next
        ((s.ordered (portRank p) 0 (.barWrite p off 4 (v.toNat % 2 ^ 32))).ordered (portRank p) 0
          (.barWrite p (off + 4) 4 (v.toNat / 2 ^ 32))))
    ∧ (regAccessOk off size = false →
      exec (.registerWrite p off size v) s = .next (s.setObj 0x2000 9 0 (s.obj 0x2000 9 + 1)))
    ∧ exec (.hifEvtClear p w) s = .next (s.ordered (portRank p) 0 (.barWrite p 0x14 4 w.toNat))
    ∧ exec (.adminPairEnable p vec ien) s
        = .next (s.ordered (portRank p) 0 (.barWrite p 0x18 4 (1 + (if ien then 2 else 0) + 16 * vec.toNat)))
    ∧ exec (.adminPairDisable p) s = .next (s.ordered (portRank p) 0 (.barWrite p 0x18 4 0))
    ∧ exec (.secLock p w) s = .next (s.ordered (portRank p) 0 (.barWrite p 0x500 4 w.toNat))

/-- Window operations and mailbox writes are stamped with the next tick. WIN_READ, WIN_WRITE and WIN_READ_DESCRIPTOR commit one operation of the function's window, which then shows it pending; while one is pending a second is counted and ignored; MBX_SEND and MBX_IN_HEAD are registered for the next tick. That the write is noted for the next tick follows log entry 8 -/
def Obligations.WindowRowsCommit : Prop :=
  (∀ (s : State) (p : Port) (fn : Fin 64) (w : WinFields) (data : Bytes), s.bar4 p fn = true →
    ((s.window (winKey p fn)).pending = false →
      exec (.winRead p fn w) s = .next (s.windowAsked p fn 0 w [])
      ∧ exec (.winWrite p fn w data) s = .next (s.windowAsked p fn 1 w data)
      ∧ exec (.winReadDescriptor p fn w) s = .next (s.windowAsked p fn 2 w []))
    ∧ ((s.window (winKey p fn)).pending = true →
      ∀ i ∈ [Instr.winRead p fn w, .winWrite p fn w data, .winReadDescriptor p fn w],
        exec i s = .next (s.setObj 0x2000 8 0 (s.obj 0x2000 8 + 1))))
  ∧ (∀ (s : State) (p : Port) (fn : Fin 64) (dest : BitVec 16) (msg : Bytes) (v : BitVec 32), s.bar4 p fn = true →
    exec (.mbxSend p fn dest msg) s = .next (s.ordered (portRank p) 0 (.mbxSend p fn dest.toNat msg))
    ∧ exec (.mbxInHead p fn v) s = .next (s.ordered (portRank p) 0 (.mbxHead p fn v.toNat)))

/-- Reset requests are stamped with the next tick at rank 1. PERST, HOT_RESET, FUNCTION_LEVEL_RESET and a falling edge of MRST# register a rank-1 order for the next tick; a rising edge of MRST# is noted with its time. That the request is noted for the next tick follows log entry 8 -/
def Obligations.ResetRowsStamped : Prop :=
  ∀ (s : State) (p : Port) (fn : Fin 64) (asserted : Bool), s.up = true →
    exec (.perst p asserted) s = .next (s.ordered 1 (resetSub p 0) (.perst p asserted))
    ∧ ((s.port p).inReset = false → exec (.hotReset p) s = .next (s.ordered 1 (resetSub p 0) (.portReset p)))
    ∧ ((s.port p).inReset = false → fn.val ≤ (s.port p).vfs →
        exec (.functionLevelReset p fn) s = .next (s.ordered 1 (resetSub p (1 + fn.val)) (.flr p fn)))
    ∧ (s.pwr.mrstLow = false → exec (.mrst true) s
        = .next ({ s with pwr := { s.pwr with mrstLow := true } }.ordered 1 0 (.moduleReset 4)))
    ∧ (s.pwr.mrstLow = true → exec (.mrst false) s
        = .next { s with pwr := { s.pwr with mrstLow := false, mrstRise := s.clk.world } })

/-- The object writes that command the module take any of the three paths. TICK_TABLE_SWITCH, MODULE_RESET, CONFIG_DEFAULTS, TIER_MODE_REQUEST and UNIT_TAKE_OUT, sent by window, by the Beadline manager or by an OBJ_WRITE command, register the write of their object for the next tick. That the write is noted for the next tick follows log entry 8 -/
def Obligations.ObjectWriteRowsStamped : Prop :=
  ∀ (s : State) (p : Port) (fn : Fin 64) (seq : BitVec 16) (cid : Nat) (unit : BitVec 16) (c : Cmd),
    (∀ r ∈ objRow (.win p fn) unit, s.bar4 p fn = true → (s.window (winKey p fn)).pending = false →
      exec r.1 s = .next (s.windowAsked p fn 1 (objFields r.2.1 r.2.2.1 0 r.2.2.2.1) (leBytes r.2.2.2.1 r.2.2.2.2)))
    ∧ (∀ r ∈ objRow (.manager seq) unit, s.up = true → s.bdl.state ≠ 0 →
      exec r.1 s = .next (s.ordered 2 seq.toNat (.odWrite r.2.1 r.2.2.1 0 0 (leBytes r.2.2.2.1 r.2.2.2.2) seq.toNat)))
    ∧ (∀ r ∈ objRow (.cmd cid) unit, s.ready? cid Op.objWrite = some c → c.field 32 2 = r.2.1 → c.field 34 1 = r.2.2.1 →
      exec r.1 s = .next (s.registered c 0 (leBytes r.2.2.2.1 r.2.2.2.2)))

/-- What a doorbell does in its tick. A doorbell write to a queue that is not active or not the function's, at or above the depth, or with a CQ head outside the device's range is ignored and counted; a good one moves that queue's tail or head and nothing else -/
def Obligations.DoorbellEffect : Prop :=
  ∀ (s : State) (p : Port) (fn : Fin 64) (q v : Nat),
    ((∀ x, s.sq? q = some x → x.state ≠ .active ∨ x.port ≠ p ∨ x.fn ≠ fn ∨ x.depth ≤ v) →
      s.applyTail p fn q v = s.badDoorbell p)
    ∧ ((∀ c, s.cq? q = some c → c.port ≠ p ∨ c.fn ≠ fn ∨ c.depth ≤ v ∨ c.held < (v + c.depth - c.head) % c.depth) →
      s.applyHead p fn q v = s.badDoorbell p)
    ∧ (∀ x, s.sq? q = some x → x.state = .active → x.port = p → x.fn = fn → v < x.depth →
      ∃ t, s.applyTail p fn q v = t ∧ t = { s with sqs := t.sqs } ∧ (t.sq? q).map (fun y => y.tail) = some v)
    ∧ (∀ c, s.cq? q = some c → c.port = p → c.fn = fn → v < c.depth → (v + c.depth - c.head) % c.depth ≤ c.held →
      ∃ t, s.applyHead p fn q v = t ∧ t = { s with cqs := t.cqs } ∧ t.cq? q = some { c with head := v })

/-- NOP completes with one entry in its completion queue. NOP without a wait, and the end of a waiting NOP, write one 32-byte entry at the write index of the completion queue, advance the queue and free the command; a waiting NOP takes its place and waits -/
def Obligations.NopCompletes : Prop :=
  ∀ (s : State) (cid : Nat) (c : Cmd) (q : Sq) (k : Cq),
    s.cmd? cid = some c → c.silent = false → c.restarted = false → c.flags = Flags.none →
    s.sq? c.sq = some q → q.state = .active → s.cq? q.cq = some k →
    (c.stage = .fetched → c.opcode = Op.nop → bit (c.field 32 1) 0 = false → c.fetchTick < s.now →
      exec (.nop cid) s = .next (s.completed c q k
        ⟨Status.success, 0, c.stamp, (s.port c.port).evCount % 256, (s.port c.port).pending.toNat, 0⟩))
    ∧ (c.stage = .fetched → c.opcode = Op.nop → bit (c.field 32 1) 0 = true →
      exec (.nop cid) s = .next { s with
        cmds := mapWhere (fun d => decide (d.cid = cid))
          (fun d => { d with stage := .nopWait d.dw5 (d.fetchTick + d.field 36 4) }) s.cmds })
    ∧ (∀ n limit, c.stage = .nopWait n limit → limit ≤ s.now →
      exec (.nopWaitEnd cid) s = .next (s.completed c q k
        ⟨Status.success, 0, c.stamp, (s.port c.port).evCount % 256, (s.port c.port).pending.toNat, 0⟩))

/-- Fetching an entry reserves its completion slot. ENTRY_FETCH with no free slot is counted and held; with one, the head moves on, a slot is reserved and the command is held or, when its checks fail, completed with the status of the check; RUN and ENCODE_SEARCH also take their sequence entry -/
def Obligations.EntryFetchReserves : Prop :=
  ∀ (s : State) (q : Nat) (entry : Bytes) (x : Sq) (k : Cq),
    s.sq? q = some x → s.cq? x.cq = some k → s.fetches x entry = true →
    (k.free = 0 → x.heldSince = none → exec (.entryFetch q entry) s = .next
      ((s.modPort x.port (fun p => { p with cqFetchHolds := p.cqFetchHolds + 1 })).modSq x.qid
        (fun y => { y with heldSince := some s.now, stallCounted := false })))
    ∧ (k.free ≠ 0 → (fieldAt entry 0 1 ∉ [0x20, 0x21, 0x22] ∨ s.stagingWaits = false) →
        fieldAt entry 0 1 ∉ [Op.run, Op.encodeSearch] →
        ((s.fetched x entry).checkEntry (s.newCmd x entry) = Status.success →
          exec (.entryFetch q entry) s = .next (s.fetched x entry))
        ∧ ((s.fetched x entry).checkEntry (s.newCmd x entry) ≠ Status.success →
          exec (.entryFetch q entry) s = .next ((s.fetched x entry).finish s.nextCid
            ((s.newCmd x entry).checkWords ((s.fetched x entry).checkEntry (s.newCmd x entry))))))
    ∧ (k.free ≠ 0 → fieldAt entry 0 1 ∈ [Op.run, Op.encodeSearch] → ∀ e m n, s.freeEntry? = some e → s.entryFor x = true →
        (s.fetched x entry).cmdSequence (s.newCmd x entry) = some (m, n) →
        (s.fetched x entry).checkEntry (s.newCmd x entry) = Status.success →
        exec (.entryFetch q entry) s = .next ((s.fetched x entry).addSeq e (s.newCmd x entry) m n none false []))

/-- A stalled queue, a failed SQ read and a failed buffer read. CQ_STALL counts an overrun once; SQ_READ_ERROR halts the queue, counts it and writes one entry with command id 0xFFFF; BUFFER_READ_ERROR fails the command with ACCESS_DENIED and counts it -/
def Obligations.QueueErrorsCounted : Prop :=
  (∀ (s : State) (q : Nat) (x : Sq) (k : Cq), s.sq? q = some x →
    (∀ t0, x.heldSince = some t0 → x.stallCounted = false → s.obj 0x2010 2 < s.now - t0 →
      exec (.cqStall q) s = .next { s with
        sqs := mapWhere (fun y => decide (y.qid = q)) (fun y => { y with overruns := y.overruns + 1, stallCounted := true }) s.sqs })
    ∧ (s.cq? x.cq = some k → s.fetches x [] = true → k.free ≠ 0 → ∃ t, exec (.sqReadError q) s = .next t
      ∧ t = { s with sqs := t.sqs, cqs := t.cqs, portA := t.portA, portB := t.portB, mem := t.mem, posted := t.posted }
      ∧ t.sq? q = some { x with state := .halted }
      ∧ (t.port x.port).sqsHalted = (s.port x.port).sqsHalted + 1
      ∧ (x.admin = true → (t.port x.port).admin.halted = true)
      ∧ t.mem = pokeBytes s.mem (hostBase k.port + (k.base + 32 * k.write))
          (completionBytes 0xFFFF x.head x.qid k.phase
            ⟨Status.invalidField, 0, (match x.stamps with | e :: _ => e.2 | [] => s.now), 0, x.head, 1⟩
            (s.port x.port).attn (s.port x.port).evCount s.now)
      ∧ t.cq? x.cq = some { k with
          write := (k.write + 1) % k.depth, phase := if k.write + 1 = k.depth then !k.phase else k.phase
          signal := k.signal || k.ien }))
  ∧ (∀ (s : State) (cid : Nat) (how : ReadError) (c : Cmd), s.cmd? cid = some c → c.stage = .fetched → opIn c.opcode = true → c.inLen ≠ 0 →
    ∃ t, exec (.bufferReadError ⟨cid, how⟩) s = .next t
      ∧ t = (((s.modPort c.port (fun p => p.logAer how)).dropSeqs cid
          (fun _ => true)).fail cid Status.accessDenied)
      ∧ t.cmd? cid = none)

/-- A search that passes its checks waits for admission. SEARCH, SEARCH_BATCH and RERANK of form 0 make one search for each query and change nothing else but the stage and buffer of their command -/
def Obligations.SearchRowsWait : Prop :=
  ∀ (s : State) (cid : Nat) (inbuf : Bytes) (cmd : Cmd) (c : Coll) (p : WalkParams) (n : Nat),
    s.coll? cmd.collByte = some c → s.searchParams { cmd with inbuf := inbuf } c = some p →
    (∀ x ∈ s.queriesOf { cmd with inbuf := inbuf } c p n, x.queryOk c = true) →
    (n = 1 → s.ready? cid Op.search = some cmd → exec (.search cid inbuf) s
        = .next (s.searchesAsked cmd inbuf (s.queriesOf { cmd with inbuf := inbuf } c p n)))
    ∧ (n = cmd.field 60 2 → s.ready? cid Op.searchBatch = some cmd → exec (.searchBatch cid inbuf) s
        = .next (s.searchesAsked cmd inbuf (s.queriesOf { cmd with inbuf := inbuf } c p n)))
    ∧ (n = 1 → cmd.field 51 1 ≠ 1 → s.ready? cid Op.rerank = some cmd → exec (.rerank cid inbuf) s
        = .next (s.searchesAsked cmd inbuf (s.queriesOf { cmd with inbuf := inbuf } c p n)))

/-- A deadline too far ahead fails the command. When the deadline tick given in a command, extended under R48, lies more than search_max_deadline ticks after the admission tick, the search fails with INVALID_FIELD -/
def Obligations.DeadlineTooFar : Prop :=
  ∀ (s : State) (x : Search) (cmd : Cmd) (adm : Tick) (c : Coll) (p : WalkParams),
    s.coll? x.coll = some c → c.state = 2 → s.searchParams cmd c = some p → cmd.field 32 4 ≠ 0 →
    adm + s.obj 0x3100 2 x.part < extendTick (cmd.field 32 4) adm →
    s.judge x cmd adm = .error Status.invalidField

/-- ADMISSION of the first waiting search with a free context begins its walk. The search takes a walker context, notes its admission tick and the entry set of that tick, and begins its attempt. The parameters are resolved again at admission (log entry 48) -/
def Obligations.AdmissionAdmits : Prop :=
  ∀ (s : State) (cid ix : Nat) (x y : Search) (rest : List Search) (cmd : Cmd) (c : Coll), s.up = true →
    s.search? cid ix = some x → s.dueCommits = [] → s.admissible x.part = x :: rest →
    s.contextsUsed x.part < recContexts (s.partRec x.part) → s.cmd? cid = some cmd → x.firstAdm = none → x.began = false →
    (s.modCmd cid (fun d => if ix = 0 then { d with admTick := some s.now } else d)).judge x cmd s.now = .ok y →
    s.coll? y.coll = some c → y.params.mode ≠ 2 → y.isRerank = false →
    exec (.admission cid ix) s = .next
      (let s' := s.modCmd cid (fun d => if ix = 0 then { d with admTick := some s.now } else d)
       let z := { y with
         admTick := s.now, firstAdm := some s.now, began := true, entrySet := c.entrySet, cold := s.isCold c.num
         context := true, ctxSince := s.now, phase := .walking, holdsModel := none }
       (s'.modSearch y.cid y.ix (fun _ => z)).beginAttempt z c)

/-- A round, an expansion on a rod and its reply. ROUND opens at most W expansions within the budget of the walk; EXPANSION_REQUEST makes the reply of one rod; EXPANSION_REPLY records it, and the last reply closes the round. When a request goes out and what becomes of its context follow log entries 33 and 34 -/
def Obligations.WalkRowsStep : Prop :=
  ∀ (s : State) (cid ix node : Nat) (x : Search) (c : Coll), s.search? cid ix = some x → s.coll? x.coll = some c →
    (x.phase = .walking → x.open_ = [] → x.nextRound ≤ s.now → s.now < x.cut →
      exec (.round cid ix) s = .next (s.openRound x c)
      ∧ (s.pickRound x c).1.roundExps ≤ min x.params.w (x.params.h - x.expansions))
    ∧ (∀ e, x.open_.find? (fun e => decide (e.node = node)) = some e → e.stage = .sent → s.chipReads [e.tile] = true →
        s.rodInTime e.tile e.deadline = true →
        ∃ t, exec (.expansionRequest cid ix node) s = .next t
          ∧ t = { s with searches := t.searches, dict := t.dict, shares := t.shares, cache := t.cache }
          ∧ t.searches = mapWhere (fun y => y.is cid ix)
              (fun y => y.setExp node (.formed (x.formReply c node e.gen (s.tileBytes e.tile)))) s.searches)
    ∧ (∀ e r, x.open_.find? (fun e => decide (e.node = node)) = some e → e.stage = .formed (some r) → s.inTime e.deadline = true →
        s.now < x.cut →
        ((∃ e' ∈ x.open_, e'.node ≠ node ∧ ∀ r', e'.stage ≠ .arrived r') →
          exec (.expansionReply cid ix node) s
            = .next (s.modSearch cid ix (fun _ => x.setExp node (.arrived r))))
        ∧ ((∀ e' ∈ x.open_, e'.node ≠ node → ∃ r', e'.stage = .arrived r') →
          exec (.expansionReply cid ix node) s
            = .next ((s.modSearch cid ix (fun _ => x.setExp node (.arrived r))).closeRound (x.setExp node (.arrived r)) c)))

/-- A lost reply, the cut tick and the rescoring cut. REPLY_DEADLINE of a lost reply faults the command; CUT_TICK ends the walk and starts rescoring with what is there; RESCORING_CUT selects with the scores there are -/
def Obligations.SearchTimersAct : Prop :=
  ∀ (s : State) (cid ix : Nat) (x : Search), s.search? cid ix = some x →
    (s.lostReply x = true → (∀ g ∈ s.tags, g.cid = cid → g.ix = ix → s.now ≤ g.deadline) →
      exec (.replyDeadline cid ix) s = .next (s.faultCmd cid false))
    ∧ ((x.phase = .walking ∨ x.phase = .walked) → x.cut ≤ s.now → ∀ c, s.coll? x.coll = some c →
      x.need = .waiting →
      exec (.cutTick cid ix) s = .next
        (let y := { x with phase := .walked, open_ := [], endReason := 2, partialCut := true }
         (({ s with tags := s.tags ++ x.walkTags } : State).modSearch x.cid x.ix (fun _ => y)).startRescore y false))
    ∧ ((x.phase = .rescoring ∨ x.phase = .gathering) → x.deadline ≤ s.now →
      exec (.rescoringCut cid ix) s = .next (s.rescoreCut x))

/-- The scanner passes over the remainder. REMAINDER_PASS_START takes up to 64 waiting searches of one collection; REMAINDER_PASS_END frees the scanner in the next tick and gives each search its hits -/
def Obligations.ScannerRows : Prop :=
  ∀ s : State,
    (∀ n, s.scan = none → s.scanChoice = some n → s.scanFree ≤ s.now →
      ∃ t p, exec .remainderPassStart s = .next t ∧ t = { s with scan := some p, searches := t.searches, dict := t.dict }
        ∧ p.coll = n ∧ p.startTick = s.now ∧ s.now < p.ends ∧ p.searches.length ≤ 64
        ∧ ∀ y ∈ t.searches, y ∈ s.searches ∨ (y.need = .running ∧ (y.cid, y.ix) ∈ p.searches))
    ∧ (∀ p, s.scan = some p → p.ends ≤ s.now → exec .remainderPassEnd s = .next
        (p.searches.foldl (fun t k => t.deliverHits k)
          (({ s with scan := none, scanFree := s.now + 1 } : State).count 0x3100 6 1)))
    ∧ (∀ k x c, s.search? k.1 k.2 = some x → s.coll? x.coll = some c → x.need = .running → s.now < x.cut → x.phase ≠ .walked →
        s.deliverHits k = s.modSearch k.1 k.2 (fun _ =>
          { x with need := .complete, hits := x.remHits c, scanned := (x.considered c).length }))

/-- Vectors are read and scored. VECTOR_READ of a remainder copy returns its bytes through the chip and counts its tiles; VECTOR_REPLY scores the vector in mode 0, holds it for the program that scores it in modes 1 and 2, or faults the command when the tile failed its check -/
def Obligations.VectorRows : Prop :=
  ∀ (s : State) (cid ix slot : Nat) (x : Search) (c : Coll) (r : RankCand) (d : Tick), s.search? cid ix = some x →
    s.coll? x.coll = some c → slot < 4096 → x.rank[slot]? = some r →
    (r.read = .sent d → r.fromRem = true → s.rodsRead r.asked d = true →
      exec (.vectorRead cid ix slot) s = .next
        ((s.countReads cid c.num r.asked.length).modSearch cid ix (fun y => y.setRead slot (.returned d (s.readSlot x c r)))))
    ∧ (∀ b, r.read = .returned d (some b) → s.inTime d = true → s.now < x.deadline → x.params.mode = 0 →
      exec (.vectorReply cid ix slot) s = .next
        (((s.modSearch cid ix (fun _ =>
            { x.setRead slot .arrived with
              flags := x.flags.or (x.scoreSlot c b).2
              rank := (x.setRead slot .arrived).rank.zipIdx.map
                (fun p => if p.2 = slot then { p.1 with score := some (x.scoreSlot c b).1 } else p.1) })).useCmd cid 3 1).maybeSelect
          cid ix))
    ∧ (∀ b, r.read = .returned d (some b) → s.inTime d = true → s.now < x.deadline → x.params.mode ≠ 0 →
      exec (.vectorReply cid ix slot) s = .next ((s.modSearch cid ix (fun y => y.setRead slot .arrived)).maybeSelect cid ix))
    ∧ (r.read = .returned d none → s.inTime d = true → s.now < x.deadline →
      exec (.vectorReply cid ix slot) s = .next (s.checkFault cid))

/-- FETCH writes one record per id and BULK_BUILD takes a batch. FETCH begins with the reads its ids need, waits while one is out, and then writes the records of its ids as of its admission tick and completes with the number found; a BULK_BUILD batch without the finish flag enters its items and asks the programs of their tiles, and one with an item that may not enter fails with its index -/
def Obligations.ItemRows : Prop :=
  ∀ (s : State) (cid : Nat) (inbuf : Bytes) (cmd : Cmd) (c : Coll),
    (s.ready? cid Op.fetch = some cmd → cmd.fetchTick < s.now → s.coll? cmd.collByte = some c → c.state = 2 → c.repair = 0 →
      (cmd.todo = some [] → s.rodsRead cmd.asked (if cmd.asked.isEmpty then 0 else cmd.askTick + s.cobj c.num 0x25) = true →
        exec (.fetch cid inbuf) s = .next (s.endFetch cmd c (cmd.admTick.getD s.now)))
      ∧ (cmd.todo = none → ∀ d, (s.beginFetch { cmd with inbuf := inbuf } c).cmd? cid = some d →
        (d.todo = some [] → d.asked = [] → exec (.fetch cid inbuf) s
          = .next ((s.beginFetch { cmd with inbuf := inbuf } c).endFetch d c (d.admTick.getD s.now)))
        ∧ (d.todo ≠ some [] → exec (.fetch cid inbuf) s = .next (s.beginFetch { cmd with inbuf := inbuf } c)))
      ∧ (∀ (fs : List (BitVec 64 × Fetched)) adm, cmd.asked = [] → cmd.fetchIds.map (fun i => (i, s.fetchOne c adm (cmd.field 32 1) i)) = fs.map (fun p => (p.1, some p.2)) →
        s.rodsOutNow = [] → s.units.lost = [] → (∀ p ∈ fs, p.2.state ≠ 3) →
        ∃ u v, u = s.countReads cmd.cid c.num 0 ∧ v = u.modCmd cmd.cid (fun k => { k with asked := [] })
          ∧ s.endFetch cmd c adm = (v.outWrite cmd cmd.outAddr
              ((fs.map (fun p => fetchRecord c (cmd.field 32 1) p.1 p.2)).flatten)).finish cmd.cid
            ⟨Status.success, 0, adm, (fs.filter (fun p => decide (p.2.state = 1) || decide (p.2.state = 2))).length, 0, 0⟩))
    ∧ (∀ graph f s1 ts k', s.ready? cid Op.bulkBuild = some cmd → s.coll? cmd.collByte = some c → c.state = 1 → s.reckoners ≠ [] →
      { cmd with inbuf := fit cmd.inLen inbuf }.buildFieldsOk c = true → s.buildBusy c.num = false →
      cmd.field 32 1 ≠ 1 → bit (cmd.field 33 1) 0 = false →
      s.buildItems c { cmd with inbuf := fit cmd.inLen inbuf } graph = .ok (s1, f, ts) → s1.coll? c.num = some k' →
      exec (.bulkBuild cid inbuf graph) s = .next
        ((s.askBatch (s1.modCmd cmd.cid (fun d => { d with flags := d.flags.or f, stage := .building false })) c k' cmd.cid ts).endBuild
          cmd.cid))
    ∧ (∀ st ix graph, s.ready? cid Op.bulkBuild = some cmd → s.coll? cmd.collByte = some c → c.state = 1 → s.reckoners ≠ [] →
      { cmd with inbuf := fit cmd.inLen inbuf }.buildFieldsOk c = true → s.buildBusy c.num = false → cmd.field 32 1 ≠ 1 →
      s.buildItems c { cmd with inbuf := fit cmd.inLen inbuf } graph = .error (st, ix) →
      exec (.bulkBuild cid inbuf graph) s = .next (s.finish cmd.cid { cmd.failWords st with dw6 := ix }))

/-- INSERT, UPSERT and DELETE are formed and staged. A mutation forms its item and then waits, and STAGE registers its commit for the next tick; nothing but the command changes -/
def Obligations.MutationRowsStage : Prop :=
  ∀ (s : State) (cid : Nat) (inbuf : Bytes) (c : Cmd) (k : Coll), s.coll? c.collByte = some k → s.reckoners ≠ [] →
    (∀ op i, (op, i) ∈ [(Op.insert, Instr.insert cid inbuf), (Op.upsert, .upsert cid inbuf)] → s.ready? cid op = some c →
      exec i s = .next { s with
        cmds := mapWhere (fun d => decide (d.cid = cid))
          (fun d => { d with
            item := some (k.formItem c.ext (BitVec.ofNat 128 (c.field 40 16)) (c.field 56 1) inbuf).1
            flags := d.flags.or (k.formItem c.ext (BitVec.ofNat 128 (c.field 40 16)) (c.field 56 1) inbuf).2
            stage := .formed }) s.cmds })
    ∧ (s.ready? cid Op.delete = some c → exec (.delete cid) s = .next { s with
        cmds := mapWhere (fun d => decide (d.cid = cid)) (fun d => { d with stage := .formed }) s.cmds })
    ∧ (s.cmd? cid = some c → c.stage = .formed → c.isMutation = true → s.served c = true → s.earlierUnstaged c = false →
        s.rankedAhead c = false → s.stageRoom c = true → exec (.stage cid) s = .next { s with
          cmds := mapWhere (fun d => decide (d.cid = cid)) (fun d => { d with stage := .staged (s.now + 1) }) s.cmds })

/-- The outcome table of the three mutations. DELETE succeeds with 5 or 4; INSERT of a live id fails with INVALID_FIELD and 6; INSERT and UPSERT answer 0 to 3 by the copies replaced, or CAPACITY_FULL and 8 -/
def Obligations.MutationOutcome : Prop :=
  ∀ (s : State) (k : Coll) (ext : BitVec 64) (g : Option Nat) (r : Option RemItem), s.copies k ext = (g, r) →
    (g = none → r = none → s.outcome k Op.delete ext = (Status.success, 5))
    ∧ (g.isSome ∨ r.isSome → s.outcome k Op.delete ext = (Status.success, 4))
    ∧ (g.isSome ∨ r.isSome → s.outcome k Op.insert ext = (Status.invalidField, 6))
    ∧ (g = none → r = none → ∀ op, op = Op.insert ∨ op = Op.upsert →
        s.outcome k op ext = if s.collFull k false then (Status.capacityFull, 8) else (Status.success, 0))
    ∧ (g.isSome ∨ r.isSome → s.outcome k Op.upsert ext = if s.collFull k true then (Status.capacityFull, 8)
        else (Status.success, (if g.isSome then 1 else 0) + (if r.isSome then 2 else 0)))

/-- COMMIT applies the mutation in phase 2. A DELETE of an absent id changes only its command; an INSERT of an absent id appends one journal record and one remainder item with the next sequence number. What a mutation leaves behind before its append follows log entry 51 -/
def Obligations.CommitTakesEffect : Prop :=
  ∀ (s : State) (cid : Nat) (c : Cmd) (k : Coll) (item : Item), s.cmd? cid = some c → s.dueCommits = [c] →
    c.superseded = false → s.coll? c.collByte = some k → k.state = 2 → k.repair = 0 → s.units.fatalCause ≠ 6 →
    (c.opcode = Op.delete → s.copies k c.ext = (none, none) →
      exec (.commit cid) s = .next { s with
        cmds := mapWhere (fun d => decide (d.cid = cid)) (fun d => { d with stage := mutationDone 0 s.now 0 5 none }) s.cmds })
    ∧ (c.opcode = Op.insert → c.item = some item → s.copies k c.ext = (none, none) → s.collFull k false = false →
      ∃ t, exec (.commit cid) s = .next t
        ∧ t = { s with colls := t.colls, dict := t.dict, pwr := t.pwr, wb := t.wb, cmds := t.cmds }
        ∧ t.wb.journal = s.wb.journal
            ++ [mutationRecord k 1 c.ext s.now (some (s.nextSeq k)) item.attrs item.payload]
        ∧ t.cmds = mapWhere (fun d => decide (d.cid = cid))
            (fun d => { d with stage := mutationDone 0 s.now 1 0 (some (s.nextSeq k)) }) s.cmds
        ∧ ∃ k', t.coll? c.collByte = some k' ∧ k'.nextSeq = s.nextSeq k + 1
            ∧ k'.rem = k.rem ++ [⟨item.ext, s.now, none, s.nextSeq k, item.attrs, item.sketch, item.payload, item.slot, none, false⟩])

/-- CARRY asks for a pass, and a pass starts. CARRY queues a request or joins the pass of its collection; PASS_START takes the first request, numbers the pass and fixes the items it folds -/
def Obligations.CarryRowsRequest : Prop :=
  ∀ (s : State) (cid : Nat) (c : Cmd), 
    (s.ready? cid Op.carry = some c → s.collState c.collByte = 2 → s.reckoners ≠ [] → s.carry.pass = none →
      (∀ r ∈ s.carry.queue, r.coll ≠ c.collByte) →
      exec (.carry cid) s = .next { s with
        cmds := mapWhere (fun d => decide (d.cid = cid)) (fun d => { d with stage := .passWait }) s.cmds
        carry := { s.carry with queue := insertBy reqBefore ⟨c.collByte, s.now, [cid]⟩ s.carry.queue } })
    ∧ (∀ p, s.ready? cid Op.carry = some c → s.collState c.collByte = 2 → s.reckoners ≠ [] → s.carry.pass = some p →
      p.coll = c.collByte → exec (.carry cid) s = .next { s with
        cmds := mapWhere (fun d => decide (d.cid = cid)) (fun d => { d with stage := .passWait }) s.cmds
        carry := { s.carry with pass := some { p with waiters := p.waiters ++ [cid] } } })
    ∧ (∀ r rest k, s.carry.pass = none → s.carry.queue = r :: rest → s.carryServed = true → r.tick < s.now →
      s.dueCommits = [] → s.coll? r.coll = some k → s.reckoners ≠ [] → (∀ p ∈ s.carry.suspended, p.coll ≠ r.coll) →
      (s.newPass k r.waiters).folded ≠ [] →
      ∃ t, exec .passStart s = .next t
        ∧ t = { s with carry := t.carry, dict := t.dict, wb := t.wb }
        ∧ t.carry = { s.carry with queue := rest, pass := some (s.newPass k r.waiters) }
        ∧ (s.newPass k r.waiters).number = s.cobj k.num 0x57 + 1 ∧ (s.newPass k r.waiters).start = s.now
        ∧ (s.newPass k r.waiters).seqLimit = k.nextSeq)

/-- The steps of a carry pass. PLAN, with the reads it needs granted, closes the plan and the pass goes on to write; SEGMENT_REWRITE, with its grant and its reads, makes the first segment to do ready at the place it takes; DIRECTORY_SWITCH, in a tick after the new tiles are durable, puts the entry of the rewritten segment first in the directory with its switch tick. The place a rewritten segment takes, the tiles it writes and the reads that gather until a step may go are the model's choice (log entries 9, 39 and 80) -/
def Obligations.CarryRowsWork : Prop :=
  ∀ (s : State) (p : Pass) (k : Coll), s.carry.pass = some p → s.coll? p.coll = some k →
    (p.planClosed = false → s.carryServed = true → s.reckoners ≠ [] → s.planReads k p ≤ s.carry.credit →
      ∀ q s', State.planItems k s (p.readable s k) (p.readable s k).folded = (some q, s') →
        ∃ t, exec .plan s = .next t ∧ t = s'.spend.closePlan k q
          ∧ ∃ r, t.carry.pass = some r ∧ r.planClosed = true ∧ r.phase = .writing ∧ r.folded = q.folded)
    ∧ (∀ g rest place b, p.todo = g :: rest → p.planClosed = true → p.rewrite = none → s.rewriteGranted p = true →
      s.carryWrites = true → s.carryServed = true → s.reckoners ≠ [] → s.rewriteNeed k p g ≤ s.carry.credit →
      s.segmentChecks k g = true → s.placeFor k g place = some b →
        ∃ t, exec (.segmentRewrite place) s = .next t ∧ t = (s.rewriteSegment k p g b).spend
          ∧ ∃ r w, t.carry.pass = some r ∧ r.rewrite = some w ∧ w.segment = g ∧ w.bNode = b)
    ∧ (∀ w n, p.rewrite = some w → w.written = some n → n < s.now → s.up = true → s.stopped = false →
      (∀ x ∈ s.searches, ¬ (x.coll = p.coll ∧ x.began = true ∧ x.admTick = s.now)) → s.switchRoom p w = true →
        exec .directorySwitch s = .next (s.takeSwitch p w)
          ∧ ∀ k0, s.commitDue.coll? p.coll = some k0 → ∃ k' d, (s.commitDue.switchSegment p w).coll? p.coll = some k'
            ∧ k'.dir = d :: k0.dir ∧ d.segment = w.segment ∧ d.bNode = w.bNode ∧ d.switchTick = s.commitDue.now)

/-- Items and tiles are released once no snapshot can see them. ITEM_RELEASE removes retired items no snapshot sees and nothing else; TILE_RELEASE frees replaced entries, and removes a dropped collection and no other -/
def Obligations.ReleaseRows : Prop :=
  ∀ (s : State) (n : Fin 64),
    (exec (.itemRelease n) s = .next { s with
      colls := mapWhere (fun k => decide (k.num = n.val))
        (fun k => { k with
          rem := k.rem.filter (fun i => match i.retiredTick with
            | some t => decide (s.now ≤ t) || s.snapshotBefore t
            | none => true) }) s.colls })
    ∧ (∀ k, s.coll? n = some k → k.state ≠ 3 → exec (.tileRelease n) s
        = .next ((s.releasable k).foldl (fun t d => t.releaseEntry n d) s))
    ∧ (∀ k, s.coll? n = some k → k.state = 3 → s.snapshotBefore k.dropTick = false →
      (∀ p ∈ k.parts, s.diesBusy p.1 p.2 = false) → exec (.tileRelease n) s = .next (s.removeColl k)
        ∧ (s.removeColl k).coll? n = none ∧ ∀ m, m ≠ n.val → (s.removeColl k).coll? m = s.coll? m)

/-- The tile instructions that compute. Each of MATMUL, XORPOP, EWISE, CURVE, NORM, SOFTNORM, GATHER, ARGMAX and TOPK applies its operation and steps on by its clocks, or charges PROGRAM_FAULT; stepping on moves the pc, and charges clocks to the frame and the partition only. Readings of the arithmetic and of the clocks are those of log entries 20, 26 and 63 -/
def Obligations.TileRowsRun : Prop :=
  (∀ (s : State) (f : Fin 16) (c : FrameCtx) (pkg : ModelPkg) (t : TileInstr), ∀ r ∈ tileRows f,
    s.atInstr f r.2.1 = some (c, pkg, t) → c.wait = .none →
    (∀ s' c', r.2.2.2 s c pkg t = some (s', c') → exec r.1 s = .next (s'.stepOn (c'.afterTile t) t (r.2.2.1 t)))
    ∧ (r.2.2.2 s c pkg t = none →
      exec r.1 s = .next ((s.chargeStep c.handle c.part Status.programFault).stepOn (c.afterTile t) t (r.2.2.1 t))))
  ∧ (∀ (s : State) (c : FrameCtx) (t : TileInstr) (n : Nat),
    ∃ u, s.stepOn c t n = u ∧ u = { s with tensor := u.tensor, shares := u.shares, dict := u.dict }
      ∧ u.tensor.ctxs = (s.setCtx { c with
          pc := c.pc + 1, wait := .none, atSave := t.save, clocks := c.clocks + n
          rotateFree := c.rotateFree || t.save || decide (t.op = TOp.sync) }).tensor.ctxs
      ∧ u.tensor.busy = Sparse.bump s.tensor.busy c.frame n
      ∧ u.shares.usedF = Sparse.bump s.shares.usedF (16 * c.frame + c.part) n
      ∧ u.dict = Sparse.put dictDefault s.dict (objKey 0x5800 3 0) (s.obj 0x5800 3 + 1))

/-- The tile instructions that can wait. ROTATE, STREAM_SWAP, STREAM_REARM, SYNC and END_STEP act when what they wait for is there. That ROTATE waits for a saved receiver is log entry 29 -/
def Obligations.WaitingTileRows : Prop :=
  ∀ (s : State) (f : Fin 16) (c : FrameCtx) (pkg : ModelPkg) (t : TileInstr) (m : Model) (x : Stream),
    (s.atInstr f TOp.rotate = some (c, pkg, t) → (c.wait = .none ∨ c.wait = .rotate) →
      s.rotateReady c (s.nextFrame c.part c.frame) = true →
      exec (.rotate f) s = .next (s.rotate c pkg t (s.nextFrame c.part c.frame)))
    ∧ (s.atInstr f TOp.stream = some (c, pkg, t) → t.sub = 0 → (c.wait = .none ∨ c.wait = .swap t.imm) →
      c.streams[t.imm]? = some x → x.canSwap = true →
      exec (.streamSwap f) s = .next (s.stepOn (c.setStream t.imm (s.swap c pkg t.imm x)) t 0))
    ∧ (s.atInstr f TOp.stream = some (c, pkg, t) → t.sub = 1 → (c.wait = .none ∨ c.wait = .reArm t.imm) →
      c.streams[t.imm]? = some x → x.prog.persistent = true → x.prog.write = false → x.canReArm = true →
      exec (.streamReArm f) s = .next (s.stepOn (c.setStream t.imm (x.prog.arm t.a)) t 0))
    ∧ (s.atInstr f TOp.sync = some (c, pkg, t) → c.wait = .none → exec (.sync f) s = .next
      ((s.setCtx { c with wait := .sync t.imm, atSave := false, rotateFree := true }).passSync c.handle c.part t.imm pkg.prog.code))
    ∧ (s.frameCtx f = some c → s.model? c.handle = some m → s.up = true → c.wait = .none →
      (∀ i, m.pkg.prog.code[c.pc]? = some i → i.op = TOp.end_) →
      exec (.endStep f) s = .next ((s.setObj 0x5800 3 0 (s.obj 0x5800 3 + 1)).endFrame c))

/-- The stream instructions. STREAM_BASE, STREAM_LOOP, STREAM_NEXT, STREAM_ADD and STREAM_END change only the position of their stream; STREAM_EMIT in its turn emits its segments -/
def Obligations.StreamRowsStep : Prop :=
  ∀ (s : State) (f i : Fin 16) (c : FrameCtx) (pkg : ModelPkg) (x : Stream) (t : StreamInstr),
    (∀ r ∈ streamRows f i, s.atStream f i r.2.1 = some (c, pkg, x, t) →
      exec r.1 s = .next (s.setCtx (c.setStream i (r.2.2 x t))))
    ∧ (∀ r s', s.segReady f i = some (c, pkg, x, t, r) → s.takeTurn r = some s' →
      exec (.streamEmit f i) s = .next (s'.emit i t.count c pkg x))

/-- RUN and ENCODE_SEARCH take a sequence; a load and a reload complete. RUN of a resident model adds one sequence and holds the model; ENCODE_SEARCH asks for the sequence of its query; LOAD_COMPLETE puts the tiles into HBM and makes the model resident; RELOAD writes one block again. What a package holds and what RELOAD reads are log entries 23 and 25 -/
def Obligations.ModelRowsRun : Prop :=
  (∀ (s : State) (cid : Nat) (inbuf : Bytes) (c : Cmd) (m : Model) (k : Coll) (p : WalkParams),
    (s.ready? cid Op.run = some c → s.model? (c.field 32 2) = some m → s.hasEntry cid = true →
      m.state = .resident → s.moveBlocks m = false → max 1 m.pkg.prog.framesMin ≤ (s.partFrames c.part).length →
      (∀ q ∈ s.tensor.seqs, q.cid = c.cid → q.mark = .dead) → ∀ e, s.freeEntry? = some e →
      exec (.run cid inbuf) s
        = .next ((s.addSeq e c m (c.field 36 4) none false (fit c.inLen inbuf)).takeHold c m.handle))
    ∧ (s.ready? cid Op.encodeSearch = some c → s.coll? c.collByte = some k → s.model? (c.field 48 2) = some m →
      s.searchParams c k = some p → s.hasEntry cid = true → m.encodes k = true → s.search? cid 0 = none →
      (s.fillQuery (newSearch { c with inbuf := inbuf } k 0 p .encoding) { c with inbuf := inbuf } k).queryOk k = true →
      exec (.encodeSearch cid inbuf) s = .next
        (({ s with
            searches := s.searches ++ [s.fillQuery (newSearch { c with inbuf := inbuf } k 0 p .encoding) { c with inbuf := inbuf } k]
            cmds := mapWhere (fun d => decide (d.cid = cid)) (fun d => { d with inbuf := inbuf }) s.cmds } : State).askSequence
          { c with inbuf := inbuf } m (c.field 54 2) ((fit c.inLen inbuf).take (m.inputLen (c.field 54 2))))))
  ∧ (∀ (s : State) (h : Fin 1024) (m : Model) (g : Grant), s.model? h = some m → m.state = .loading →
    s.grantOf (.modelLoad h) = some g → g.granted = true → g.releasing = false → s.waitingFor h = [] →
    ∃ t, exec (.loadComplete h) s = .next t
      ∧ t = { s with mem := t.mem, pwr := t.pwr, dict := t.dict, tensor := t.tensor }
      ∧ t.mem = (s.pokeTiles m.hbmBase m.tiles).mem
      ∧ t.model? h = some { m with state := .resident, loadGrant := none, lastRelease := s.now })
  ∧ (∀ (s : State) (h : Fin 1024) (b first n : Nat) (m : Model), s.model? h = some m → m.isResident = true →
    b < ((decodeBlocks m.packed.length m.packed).getD []).length →
    blockSpan ((decodeBlocks m.packed.length m.packed).getD []) b = (first, n) →
    exec (.reload h b true) s = .next
      ((s.pokeTiles (m.hbmBase + 4096 * first) ((m.tiles.drop first).take n)).modModel h (fun m => { m with
        reloading := m.reloading.filter (fun x => decide (x ≠ b)) })))

/-- Address translation and tier moves. PRG_RESPONSE, PAGE_REQUEST_TIMEOUT and ATS_TRANSLATION_COMPLETION move the page request of a stream or of a command's buffer on or fail it; ATS_INVALIDATION drops the translations of its range and is counted; MOVE_COMPLETE puts a placement at its new home and completes its command. The context an answer reaches, and the copy of a placement as a whole, are log entries 49 and 58 -/
def Obligations.PageRows : Prop :=
  (∀ (s : State) (f i : Fin 16) (c : FrameCtx) (x : Stream) (t0 : Tick) (pages : List Nat) (pasid : Option Nat) (data : Bytes),
    s.pageStream f i = some (c, x) →
    (x.page = .asked t0 pages pasid → c.saved = false →
      exec (.prgResponse (.frame f) i .success) s = .next (s.setCtx (c.setStream i x.retry))
      ∧ exec (.prgResponse (.frame f) i .invalid) s = .next (s.pageFail c i x)
      ∧ exec (.prgResponse (.frame f) i .failure) s = .next ((s.blockPri c).pageFail c i x)
      ∧ (t0 + s.obj 0x5100 6 ≤ s.now → exec (.pageRequestTimeout (.frame f) i) s = .next (s.pageFail c i x)))
    ∧ (∀ m g r, s.model? c.handle = some m → x.flight.find? (fun g => g.waiting) = some g →
      s.segWho c m.pkg x.prog g.addr = some r → x.page = .translating ∨ x.page = .retranslating → ∀ page,
      (g.pages = [page] → g.refused = [] → exec (.atsTranslationCompletion (.frame f) i true data) s = .next
        (((s.addAtc ⟨r.port.num, r.fn, r.pasid, page, x.prog.write⟩).moveHost c m.pkg x g data).setCtx
          (c.setStream i { x.setWaiting (fun _ => { g with pages := [], waiting := false }) with page := .none })))
      ∧ (g.pages = [page] → x.page = .retranslating → exec (.atsTranslationCompletion (.frame f) i false data) s
        = .next (s.pageFail c i x))
      ∧ (g.pages = [page] → g.refused = [] → x.page = .translating → (s.port r.port).priBlocked.contains r.fn = false →
        s.priRoom r.port r.fn 1 = true → exec (.atsTranslationCompletion (.frame f) i false data) s = .next
          ((s.setCtx (c.setStream i { x.setWaiting (fun _ => { g with pages := [], refused := [page] }) with
            page := .asked s.now [page] r.pasid })).count 0x5100 4 1))))
  ∧ (∀ (s : State) (cid : Nat) (i : Fin 16) (c : Cmd), s.cmd? cid = some c →
    (∀ t0 pages pasid, c.page = .asked t0 pages pasid →
      exec (.prgResponse (.buffer cid) i .success) s = .next (s.modCmd cid (fun d => { d with page := .retranslating }))
      ∧ exec (.prgResponse (.buffer cid) i .invalid) s = .next (s.bufferFail cid)
      ∧ (t0 + s.obj 0x5100 6 ≤ s.now → exec (.pageRequestTimeout (.buffer cid) i) s = .next (s.bufferFail cid)))
    ∧ (c.page = .none ∨ c.page = .translating ∨ c.page = .retranslating →
      ∃ t, exec (.atsTranslationCompletion (.buffer cid) i true []) s = .next t
        ∧ t = { s with tensor := t.tensor, cmds := mapWhere (fun d => decide (d.cid = cid)) (fun d => { d with page := .none }) s.cmds }
        ∧ t.tensor = { s.tensor with atc := t.tensor.atc }
        ∧ ∀ n ∈ c.bufferPages, (⟨c.port.num, c.fn, c.pasid, n, !(c.stage = .fetched && opIn c.opcode)⟩ : AtcEntry) ∈ t.tensor.atc))
  ∧ (∀ (s : State),
    (∀ p fn addr len, s.takes p = true → exec (.atsInvalidation p fn addr len) s = .next
      (({ s with tensor := { s.tensor with atc := s.tensor.atc.filter (fun e =>
          !(decide (e.port = p.num) && decide (e.fn = fn.val) && decide ((hostBase p + addr) / 4096 ≤ e.page)
            && decide (4096 * e.page < hostBase p + addr + len))) } } : State).count 0x5100 7 1))
    ∧ (∀ (id : Fin 4096) l, s.placement? id = some l → s.up = true → l.moving = true → s.obj 0x5000 4 = 0 →
      s.placementHeld l = false → s.programming (.writeBack l.id) = false →
      (∀ bs s1, l.newHome ≠ 2 → s.placementBytes l = (some bs, s1) →
        exec (.moveComplete id) s = .next ((s1.poke l.newBase bs).switchPlacement l))
      ∧ (l.newHome = 2 → l.copied = true → s.programming (.move l.id) = false →
        exec (.moveComplete id) s = .next (s.switchPlacement l))))

/-- Step boundary, save and restore. STEP_BOUNDARY ends a step and deals the next; SAVE writes the context to its slot and frees the frame; RESTORE arms a saved context again. How many steps a sequence takes is log entry 30 -/
def Obligations.StepRows : Prop :=
  ∀ (s : State) (h : Fin 1024) (p f : Fin 16) (m : Model) (c d : FrameCtx), 
    (∀ s' waits, s.model? h = some m → s.up = true → (∀ x ∈ s.stepCtxs h p, x.wait = .ended) →
      max 1 m.pkg.prog.framesMin ≤ ((s.stepEnded m h p).partFrames p).length →
      State.joinAll m p (s.stepEnded m h p) ((s.stepEnded m h p).joinable h p) = (s', waits) →
      exec (.stepBoundary h p) s
        = .next ((if waits then s'.setObj 0x5800 7 0 (s'.obj 0x5800 7 + 1) else s').deal m p)
      ∧ (s.stepEnded m h p).stepCtxs h p = [])
    ∧ (∀ u v, u = s.noteReady → u.frameCtx f = some c → u.model? c.handle = some m → u.choose f = some d → u.up = true →
      c.atPoint = true → u.keeps c d = false → c.streams.any Stream.holdsSave = false →
      v = c.streams.zipIdx.foldl (fun s x => s.strand c x.2 x.1) u →
      exec (.save f) s = .next
        ((((((v.setCtx (v.saveCtx c m.pkg.prog)).chargeClocks c 9216).setRunning f none).count 0x2100 7 1).releaseStep c.handle
          c.part).fillFrame f))
    ∧ (∀ u, u = s.noteReady → u.up = true → u.unitIn (unitFrame f) = true → u.tensor.running.getD f none = none →
      u.choose f = some c → u.model? c.handle = some m → c.saved = true →
      exec (.restore f) s = .next
        (let s' := u.reloadSram f c.savedSram
         let c' := s'.growWrites { c with saved := false, savedSram := [], runSince := s'.now, clocks := c.clocks + 9216 } m.pkg
         (((s'.setCtx c').chargeClocks c' 9216).setRunning f (some (c.handle, c.part))).applyAnswers f))

/-- A streamed tile arrives. STREAM_TILE_ARRIVAL stores the segments of a write stream, or delivers those of a read stream, counts the tile done, takes its segments out of flight and wakes the frame; a tile that cannot be read ends the step with MEDIA_UNCORRECTABLE, and one that fails its check is a bad tensor tile. That a write stream stores the segments when the tile is taken is log entry 57 -/
def Obligations.TileArrives : Prop :=
  ∀ (s : State) (f i : Fin 16) (c : FrameCtx) (m : Model) (x : Stream) (gs : List SegXfer),
    s.frameCtx f = some c → s.model? c.handle = some m → c.streams[i.val]? = some x → x.nextTile = some gs →
    (x.prog.write = true → ∃ t, exec (.streamTileArrival f i) s = .next t
      ∧ t = (((gs.filter (fun g => !s.segHost c m.pkg x.prog g.addr)).foldl (fun s g => s.putSegment c m.pkg x g) s).setCtx
        (c.setStream i x.tileDone)).wake f)
    ∧ (x.prog.write = false → (x.prog.check = false ∨ gs.any m.behindReload = false) →
      (∀ g ∈ gs, s.rodsRead g.asked (if g.asked.isEmpty then 0 else g.issued + s.obj 0x2100 6) = true) →
      (∀ s', State.deliverTile c m.pkg x s gs = .done s' →
        exec (.streamTileArrival f i) s = .next ((s'.setCtx (c.setStream i x.tileDone)).wake f))
      ∧ (State.deliverTile c m.pkg x s gs = .uncorrectable → exec (.streamTileArrival f i) s
        = .next (((s.chargeStep c.handle c.part Status.mediaUncorrectable).stopStream c i x).wake f))
      ∧ (∀ g, State.deliverTile c m.pkg x s gs = .badCheck g → exec (.streamTileArrival f i) s = .next ((s.badTensor c i x g).wake f))
      ∧ (∀ g o, gs = [g] → s.segHost c m.pkg x.prog g.addr = false → tierOf g.addr = some 1 → s.shadowAt g.addr x.prog.segBytes = none →
        x.segPlace c g = some o → x.prog.check = false → exec (.streamTileArrival f i) s
          = .next (((s.poke o (s.peek g.addr x.prog.segBytes)).setCtx (c.setStream i x.tileDone)).wake f)))
    ∧ x.tileDone.tilesDone = x.tilesDone + 1 ∧ x.tileDone.flight = x.flight.filter (fun g => decide (g.tile ≠ x.dueTile))

/-- Power and temperature samples. GUARD keeps 100 samples and sets or clears the guard by their mean; PWR_LIMIT_ACTIVE_CLEAR clears the flag after 100,000 quiet tk; THERMAL_SAMPLE asks for a higher step and THERMAL_STEP_FALL lowers it by one; LOW_INPUT is counted. The mean is over the samples held: log entry 36 -/
def Obligations.PowerRows : Prop :=
  ∀ s : State,
    (∀ v : BitVec 16, s.up = true → ∃ t, exec (.guard v) s = .next t
      ∧ t = { s with pwr := t.pwr, dict := t.dict, portA := t.portA, portB := t.portB, bdl := t.bdl, free := t.free }
      ∧ t.pwr.samples = (v.toNat :: s.pwr.samples).take 100 ∧ t.pwr.energy = s.pwr.energy + 5 * v.toNat
      ∧ (95 * s.effLimit * t.pwr.samples.length < 100 * sumBy id t.pwr.samples → t.pwr.guard = true)
      ∧ (100 * sumBy id t.pwr.samples < 90 * s.effLimit * t.pwr.samples.length → s.pwr.step ≠ 3 → t.pwr.guard = false))
    ∧ (100000 ≤ s.pwr.quiet → exec .pwrLimitActiveClear s = .next (s.setObj 0x6000 0x0C 0 0))
    ∧ (∀ rs : List Int, s.up = true → s.now % 100 = 0 → rs.length = 47 → ∃ t, exec (.thermalSample rs) s = .next t
      ∧ t = { s with pwr := t.pwr } ∧ t.pwr.temps = rs ∧ t.pwr.step = s.pwr.step
      ∧ (s.pwr.step < thermalStepOf rs → t.pwr.riseTo = some (thermalStepOf rs))
      ∧ (thermalStepOf rs ≤ s.pwr.step → t.pwr.riseTo = s.pwr.riseTo))
    ∧ (∀ t0, s.pwr.coolSince = some t0 → s.up = true → s.pwr.step ≠ 0 → s.pwr.step ≠ 4 → t0 + 100000 ≤ s.now →
      ∃ t, exec .thermalStepFall s = .next t ∧ t = { s with pwr := t.pwr } ∧ t.pwr.step = s.pwr.step - 1
        ∧ t.pwr.guard = s.pwr.guard ∧ t.pwr.grants = s.pwr.grants)
    ∧ (s.up = true → exec .lowInput s = .next (s.setObj 0x6000 0x0D 0 (s.obj 0x6000 0x0D + 1)))

/-- The end of a grant. GRANT_RELEASE ends a grant with what its operation did: a program stores its tile and no other, an erase clears the tiles of its range on its die and no other, the program or erase of a block of the system region puts or removes that block, and the program of a remainder journal makes the items of its tile durable. The dies of a block of the system region and the length of a program are the model's choice (log entries 31 and 83) -/
def Obligations.GrantReleaseRow : Prop :=
  ∀ (s : State) (gid : Nat) (g : Grant), s.pwr.grants.find? (fun g => decide (g.gid = gid) && g.granted && !g.releasing) = some g →
    (∀ die coll tile, g.kind = .nand die coll tile → g.cid = none →
      ((∀ k, s.coll? coll = some k → ∀ i ∈ k.rem, i.programmed = true ∨ tile ∉ k.remTiles i.seq) →
        exec (.grantRelease gid) s = .next (s.endGrant gid))
      ∧ (∀ k, s.coll? coll = some k → (∃ i ∈ k.rem, i.programmed = false ∧ tile ∈ k.remTiles i.seq) →
        exec (.grantRelease gid) s = .next ((s.programJournal coll tile).endGrant gid)))
    ∧ (∀ u tile part bs, g.kind = .program u tile part bs →
      (s.tileIn tile = true → ∃ t, exec (.grantRelease gid) s = .next t
        ∧ t = ((s.program tile part bs).endGrant gid).programmed u g.cid
        ∧ (u = .alone → t = { s with flash := t.flash, pwr := t.pwr, dict := t.dict, portA := t.portA, portB := t.portB, bdl := t.bdl }
          ∧ (Sparse.wf (fun _ => Tile.erased) s.flash = true → flashGet t.flash tile = ⟨bs, part, s.obj 0x7010 0 part⟩)
          ∧ ∀ a, a ≠ tile → flashGet t.flash a = flashGet s.flash a))
      ∧ (s.tileIn tile = false → exec (.grantRelease gid) s = .next ((s.endGrant gid).programmed u g.cid)))
    ∧ (∀ die base n, g.kind = .erase die base n → ∃ t, exec (.grantRelease gid) s = .next t
      ∧ t = { s with flash := t.flash, pwr := t.pwr }
      ∧ ∀ a, flashGet t.flash a = if base ≤ a ∧ a < base + n ∧ tileDie a = die then Tile.erased else flashGet s.flash a)
    ∧ (∀ u n bs, g.kind = .block u n bs → exec (.grantRelease gid) s = .next (((s.putBlock u n bs).endGrant gid).blockDone u g.cid))
    ∧ (∀ n, g.kind = .eraseBlock n → exec (.grantRelease gid) s = .next ((s.eraseBlock n).endGrant gid))
    ∧ ∀ x ∈ (s.endGrant gid).pwr.grants, x.gid = gid → x.releasing = true

/-- The input and the rails. COLD_POWER_ON starts boot or holds the dies while MRST# is low; INPUT_LOSS, OVERVOLTAGE and a fault of a holding rail power down, keeping flash; INRUSH_RESTART ends the wait of the ramp; another rail's fault is fatal with cause 3. The hold-up sequence in one step, and flash that reads zero where nothing was written, are the model's choice (log entries 35 and 2) -/
def Obligations.SupplyRows : Prop :=
  ∀ s : State,
    (s.pwr.phase = .off → s.pwr.mrstLow = false → ∃ t, exec .coldPowerOn s = .next t
      ∧ t.pwr = { s.pwr with phase := .on, pwrGood := true, dumpErased := false }
      ∧ t.boot = { s.boot with cause := 1, cold := true, stage := 1, stageStart := s.clk.world }
      ∧ t = { s with pwr := t.pwr, boot := t.boot, dict := t.dict })
    ∧ (s.pwr.phase = .off → s.pwr.mrstLow = true → ∃ t w, exec .coldPowerOn s = .next t
      ∧ t = { s with
          pwr := { s.pwr with phase := .held w, pwrGood := true }
          boot := { s.boot with cause := 1, cold := true } })
    ∧ (s.pwr.phase = .off → exec .inputLoss s = .next { s with pwr := { s.pwr with phase := .rampWait s.clk.world } })
    ∧ (∀ t0, s.pwr.phase = .rampWait t0 → t0 + 100000 ≤ s.clk.world →
      exec .inrushRestart s = .next { s with pwr := { s.pwr with phase := .off } })
    ∧ (s.pwr.phase = .on → ∀ i ∈ [Instr.inputLoss, .overvoltage], ∃ t, exec i s = .next t ∧ t = s.powerDown
      ∧ t.pwr.phase = .off ∧ t.pwr.pwrGood = false ∧ t.clk.counter = 0 ∧ t.flash = s.flash ∧ t.orders = [] ∧ t.cmds = []
      ∧ t.boot.area = s.boot.area)
    ∧ (∀ r : Fin 12, s.pwr.phase = .on → railHoldsUp r = true → ∃ t, exec (.railFault r) s = .next t
      ∧ t.pwr.phase = .off ∧ t.pwr.pwrGood = false ∧ t.clk.counter = 0 ∧ t.flash = s.flash)
    ∧ (∀ r : Fin 12, s.up = true → railHoldsUp r = false → ∃ t, exec (.railFault r) s = .next t
      ∧ t = ({ s with pwr := { s.pwr with
          railFaults := s.pwr.railFaults.set r (s.pwr.railFaults.getD r 0 + 1) } } : State).raiseFatal 3)

/-- Module reset and its release. MODULE_RESET_EFFECT holds the dies in reset with the counter at 0, SRAM and HBM cleared, host memory and flash kept; RESET_RELEASE starts boot at stage 1. What unwritten memory reads is the model's choice (log entry 2) -/
def Obligations.ResetRows : Prop :=
  ∀ (s : State) (t0 : Nat),
    (∀ rails, s.pwr.phase = .holdup t0 rails → ∃ t, exec .moduleResetEffect s = .next t ∧ t.pwr.phase = .held s.clk.world
      ∧ t.clk = { Clock.reset with world := s.clk.world } ∧ t.flash = s.flash ∧ t.boot.stage = 0
      ∧ t.boot.area = s.boot.area ∧ t.boot.locks = 0
      ∧ (∀ a, a < 0x8000000000000000 → t.byte a = 0) ∧ (∀ a, 0x8000000000000000 ≤ a → t.byte a = s.byte a))
    ∧ (s.pwr.phase = .held t0 → s.pwr.mrstLow = false → t0 + 1000 ≤ s.clk.world → s.pwr.mrstRise + 1000 ≤ s.clk.world →
      ∃ t, exec .resetRelease s = .next t ∧ t = { s with pwr := t.pwr, boot := t.boot, dict := t.dict }
        ∧ t.pwr = { s.pwr with phase := .on, dumpErased := false } ∧ t.boot = { s.boot with stage := 1, stageStart := s.clk.world })

/-- Boot stages and the availability of the full index. BOOT_STAGE does the work of the stage in progress and goes on; an unreadable boot area or a management start that takes too long ends in recovery; failed HBM is fatal; FULL_INDEX_AVAILABILITY notes its tick. That a stage ends when its row is taken is the model's choice (log entry 13) -/
def Obligations.BootRows : Prop :=
  (∀ (s : State) (failed : List Nat) (d : StageData), s.up = true → s.boot.ready = false →
    (s.stopped = false →
      (s.boot.stage = 1 → exec (.bootStage (.ok failed) d) s = .next (s.readFingerprint d.fingerprintErrors.toNat))
      ∧ (s.boot.stage = 2 → s.boot.area.isSome = true → exec (.bootStage (.ok failed) d) s = .next s.nextStage)
      ∧ (s.boot.stage = 3 → exec (.bootStage (.ok failed) d) s = .next s.checkImage)
      ∧ (s.boot.stage = 4 → exec (.bootStage (.ok failed) d) s
          = .next ({ s with boot := { s.boot with managementStarted := true } } : State).nextStage)
      ∧ (s.boot.stage = 5 → exec (.bootStage (.ok failed) d) s = .next (s.bringUp failed).nextStage)
      ∧ (s.boot.stage = 6 → exec (.bootStage (.ok failed) d) s = .next (s.applyCapacitance d.capacitance.toNat).nextStage)
      ∧ (s.boot.stage = 7 → exec (.bootStage (.ok failed) d) s = .next (s.restoreDump d.pagesLost d.headerLost).nextStage)
      ∧ (s.boot.stage = 8 → exec (.bootStage (.ok failed) d) s = .next (s.replayConfig false))
      ∧ (s.boot.stage = 9 → exec (.bootStage (.ok failed) d) s = .next s.rebuildTables.nextStage)
      ∧ (s.boot.stage = 10 → exec (.bootStage (.ok failed) d) s = .next s.loadColls.nextStage)
      ∧ (s.boot.stage = 11 → exec (.bootStage (.ok failed) d) s = .next s.tryReady))
    ∧ (s.boot.stage = 2 → exec (.bootStage .bootAreaUnreadable d) s = .next (s.enterRecovery 4))
    ∧ (s.boot.stage = 4 → s.units.fatalCause ≠ 2 → exec (.bootStage .hbmFailed d) s = .next (s.raiseFatal 2))
    ∧ (s.boot.stage = 4 → s.boot.managementStarted = false → s.boot.stageStart + 500000 ≤ s.clk.world →
      exec .managementStartTimeout s = .next (s.enterRecovery 5))
    ∧ (s.boot.stage = 11 → s.obj 0x3000 5 = 1 → s.clk.everLocked = false → s.obj 0x3000 6 ≤ s.now →
      exec .tickSyncWaitLimit s = .next s.tryReady)
    ∧ s.nextStage.boot = { s.boot with stage := s.boot.stage + 1, stageStart := s.clk.world })
  ∧ (∀ s : State, s.up = true → s.boot.ready = true → s.boot.stage = 11 → s.boot.recovery = false → s.boot.identityFailed = false →
    exec .fullIndexAvailability s
      = .next (({ s with boot := { s.boot with stage := 12 } } : State).setObj 0x2001 3 0 s.now))

/-- Firmware is staged and committed. FW_LOAD writes the staging area and completes; FW_COMMIT of an image that passes its check erases and then programs the boot area, with a record of each step in the update journal, and completes with 0. The staged length is the greatest end written, by the model's choice (log entry 60) -/
def Obligations.FirmwareRows : Prop :=
  ∀ (s : State) (cid : Nat) (inbuf : Bytes) (c : Cmd) (fails : Bool),
    (s.ready? cid Op.fwLoad = some c → c.inLen ≠ 0 → ∃ t, exec (.fwLoad cid inbuf) s = .next t
      ∧ t = ((({ s with boot := { s.boot with
            staging := stagePages (c.inLen / 4096) s.boot.staging (c.field 32 4 / 4096) (fit c.inLen inbuf) } } : State).setObj
          0x7000 7 0 (max (s.obj 0x7000 7) (c.field 32 4 + c.inLen))).finish cid ⟨Status.success, 0, c.stamp, 0, 0, 0⟩))
    ∧ (s.ready? cid Op.fwCommit = some c → imageCheck s.boot.staging (min (c.field 32 4) (s.obj 0x7000 7)) = 0 →
      exec (.fwCommit cid fails) s = .next
        ((((s.logUpdate 1).setObj 0x7000 8 0 1).modCmd cid (fun d => { d with stage := .committing false })).askBoot c))
    ∧ (∀ g, s.cmd? cid = some c → c.stage = .committing false → s.grantOf (.bootArea cid) = some g → g.granted = true →
      s.bootRodsIn = true → exec (.fwCommit cid false) s = .next
        ((({ s.logUpdate 2 with boot := { (s.logUpdate 2).boot with area := none, committed := none } } : State).modCmd cid
          (fun d => { d with stage := .committing true })).askBoot c))
    ∧ (∀ g, s.cmd? cid = some c → c.stage = .committing true → s.grantOf (.bootArea cid) = some g → g.granted = true →
      s.bootRodsIn = true → exec (.fwCommit cid false) s = .next
        (((({ ((s.logUpdate 3).logUpdate 4).logUpdate 5 with boot := { (((s.logUpdate 3).logUpdate 4).logUpdate 5).boot with
            area := some (stagedImage s.boot.staging), committed := some (stagedImage s.boot.staging) } } : State).countNand
          (stagedImage s.boot.staging).length).endCommit c 2 Status.success 0)))

/-- Faults are counted, charged and taken to units. INTERNAL_FAULT, ROD_LINK_FAILURE, NO_READY_STATUS, UNIT_OUT, FATAL and LOST_TILE have the effect of their cause; a fatal cause outside the stopped service raises ATTN 15 on both ports. Which commands a unit faults follows log entry 11 -/
def Obligations.FaultRows : Prop :=
  (∀ s : State, s.up = true →
    (∀ cids, exec (.internalFault .hbmCommand cids) s = .next (s.faultAll cids false))
    ∧ (∀ cids n, exec (.internalFault (.checksum n) cids) s
        = .next ((s.setObj 0x4000 5 0 (s.obj 0x4000 5 + 1)).faultAll cids true))
    ∧ (∀ cids, exec (.internalFault .hbmSystem cids) s = .next (s.raiseFatal 5))
    ∧ (∀ cids b p, s.carry.pass = some p → exec (.internalFault (.carryStep b) cids) s = .next (s.faultPass p b))
    ∧ (∀ cids (r : Fin 64) s1 persists, s.noteFault r.val = (persists, s1) → exec (.internalFault (.rod r) cids) s
        = .next (if persists then (s1.faultAll cids false).takeOut r.val 2 else s1.faultAll cids false))
    ∧ (∀ c : Fin 8, exec (.rodLinkFailure c true) s = .next
        ((s.setObj 0x6200 0x10 0 (s.obj 0x6200 0x10 + 1)).faultAll (s.waitingOn (fun t => decide (tileRod t / 8 = c.val))) false))
    ∧ (∀ (d : Fin 128) s1, s.noteFault (64 + d.val) = (false, s1) → exec (.noReadyStatus d) s
        = .next (s1.faultAll (s.waitingOn (fun t => decide (tileDie t = d.val))) false))
    ∧ (∀ u (cause : Fin 10), u ≤ 232 → cause.val ≠ 0 → exec (.unitOut u cause) s = .next (s.takeOut u cause.val))
    ∧ (∀ cause : Fin 8, cause.val ≠ 0 → exec (.fatal cause) s = .next (s.raiseFatal cause.val))
    ∧ (∀ n, (n, true) ∉ s.units.lost → exec (.lostTile n true false) s = .next
        ((({ s with units := { s.units with lost := s.units.lost ++ [(n, true)] } } : State).count 0x6200 0x0B 1).rewriteCopy n)))
  ∧ (∀ (s : State) (cause : Nat), cause ≠ 4 → fatalShown (s.units.fatals ++ [cause]) = 7 →
    ∃ t, s.raiseFatal cause = t ∧ t = { s with units := t.units, portA := t.portA, portB := t.portB, bdl := t.bdl, dict := t.dict }
      ∧ t.units.fatals = s.units.fatals ++ [cause] ∧ t.units.fatalCause = 7
      ∧ t.portA.pending.getLsbD 15 = true ∧ t.portB.pending.getLsbD 15 = true)

/-- Map repair and the return of a unit. MAP_REPAIR retires the buckets out of reach, enters every live node again that can be read and asks the programs of the buckets it changed; RETURN_SCAN brings a rod back into service. A return scan is one step over the nodes of the rod: log entry 56 -/
def Obligations.RepairRows : Prop :=
  ∀ (s : State) (n r : Fin 64) (c : Coll), s.up = true → s.boot.ready = true → s.stopped = false →
    (s.coll? n = some c → s.repairCode c = 2 → s.repairReads c ≤ s.carry.credit → exec (.mapRepair n) s = .next
      (let gone := (c.retiredBuckets ++ s.bucketsOut c).eraseDups
       let s' := s.modColl n (fun c => { c with retiredBuckets := gone })
       let live := (s'.liveNodes c s'.now).filter (fun p => s'.tileIn (nodePlace c p.2.bNode p.1).1)
       let s'' := live.foldl (fun s p => match s.nodeExt c p.2 p.1 with
         | some ext => s.reEnter n ext p.1
         | none => s) s'
       (s''.spend.endRepair n).askBuckets c))
    ∧ (s.unitState (unitRod r) = 3 → s.scanReads r ≤ s.carry.credit → exec (.returnScan r) s = .next
      ((((s.colls.foldl (fun s c => (s.scanColl r c).askBuckets c) s.spend).unitBack (unitRod r)).refreshBuffer).raiseEvent 3))

/-- Power states. POWER_STATE_ENTRY goes one state deeper when idle long enough, with frame SRAM not retained from state 2 on, and POWER_STATE_EXIT starts and ends the exit latency. That entry and exit happen when the row says so is the model's choice (log entry 12) -/
def Obligations.PowerStateRows : Prop :=
  ∀ (s : State) (t0 : Tick),
    (s.ps.idleSince = some t0 → s.up = true → s.boot.ready = true → s.idle = true → s.ps.exitAt = none → s.ps.state + 1 ≤ 3 →
      s.ps.state + 1 ≤ s.obj 0x2020 2 → s.obj 0x2021 0 (s.ps.state + 1) ≠ 0 → t0 + s.obj 0x2021 0 (s.ps.state + 1) ≤ s.now →
      exec .powerStateEntry s = .next
        (({ s with
            ps := { s.ps with state := s.ps.state + 1, idleSince := some s.now }
            mem := if 2 ≤ s.ps.state + 1 then Sparse.keep (fun a => decide (frameBase 16 ≤ a)) s.mem else s.mem } : State).count 0x2023 0 1 (s.ps.state + 1)))
    ∧ (s.ps.exitAt = none → s.up = true → s.ps.state ≠ 0 → s.idle = false →
      exec .powerStateExit s = .next { s with ps := { s.ps with exitAt := some (s.now + s.obj 0x2022 0 s.ps.state) } })
    ∧ (s.ps.exitAt = some t0 → t0 ≤ s.now → exec .powerStateExit s = .next { s with ps := ⟨0, none, none⟩ })

/-- Port registers and links. LINK_TRAINING, VF_ENABLE, TCK_COUNT and HIF_EVT_STATUS change only their port; a read of TCK_COUNT is consistent and is served after the writes its port delivered before it; the read of HIF_EVT_STATUS clears events in read-clear mode only -/
def Obligations.PortRows : Prop :=
  ∀ (s : State) (p : Port), s.takes p = true →
    (∀ info, linkSupported info = true → ∃ t, exec (.linkTraining p info) s = .next t ∧ t = { s with portA := t.portA, portB := t.portB }
      ∧ t.port p = { s.port p with
          linkUp := info.up, rate := if info.up then info.rate.val else 0, width := if info.up then info.width.val else 0
          flit := info.up && info.flit, l0pWidth := if info.up then info.l0pWidth.val else 0
          linkState := if info.up then info.state.val else 0 })
    ∧ (∀ n : Fin 64, s.boot.recovery = false → (s.port p).vfs ≤ n.val → exec (.vfEnable p n) s
        = .next (s.modPort p (fun x => { x with vfs := n.val })))
    ∧ ((∀ o ∈ s.orders, o.rank ≠ portRank p) → ∃ t, exec (.tckCount p false 8) s = .next t
      ∧ t = { s with portA := t.portA, portB := t.portB }
      ∧ t.port p = { s.port p with readData := BitVec.ofNat 64 s.now })
    ∧ (∀ o high size, o ∈ s.orders → o.rank = portRank p →
      exec (.tckCount p high size) s = .next (s.ordered (portRank p) 0 (.tckRead p high size)))
    ∧ ((∀ o ∈ s.orders, o.rank ≠ portRank p) → ∃ t, exec (.tckCount p false 4) s = .next t ∧ t = { s with portA := t.portA, portB := t.portB }
      ∧ t.port p = { s.port p with
          readData := BitVec.ofNat 64 (s.now % 2 ^ 32), tckHigh := BitVec.ofNat 32 (s.now / 2 ^ 32) })
    ∧ ((∀ o ∈ s.orders, o.rank ≠ portRank p) → ∃ t, exec (.tckCount p true 4) s = .next t ∧ t = { s with portA := t.portA, portB := t.portB }
      ∧ t.port p = { s.port p with readData := BitVec.ofNat 64 (s.port p).tckHigh.toNat })
    ∧ (∃ t, exec (.hifEvtStatus p) s = .next t ∧ t = { s with portA := t.portA, portB := t.portB }
      ∧ (t.port p).readData = BitVec.ofNat 64 ((s.port p).pending.toNat + (s.port p).evCount % 65536 * 65536)
      ∧ (t.port p).pending = if s.obj 0x2000 4 = 1 then (s.port p).pending &&& 0x8000#16 else (s.port p).pending)

/-- SPDM requests in order. GET_VERSION, GET_CAPABILITIES, NEGOTIATE_ALGORITHMS, GET_DIGESTS, GET_CERTIFICATE, CHALLENGE, GET_MEASUREMENTS and DOE_DISCOVERY answer when their phase has come. The phases a request needs are log entry 42, and the results of keys have no value in the model (log entry 3) -/
def Obligations.SecurityRows : Prop :=
  ∀ (s : State) (p : Port), s.doeUp p = true →
    exec (.getVersion p) s = .next (s.setSpdm p { s.spdm p with phase := 1, reply := .versions [0x12, 0x13] })
    ∧ (1 ≤ (s.spdm p).phase → exec (.getCapabilities p) s
        = .next (s.setSpdm p { s.spdm p with phase := 2, reply := .capabilities true true true true }))
    ∧ (∀ a h, 2 ≤ (s.spdm p).phase → chooseAsym a.toNat ≠ 0 → chooseHash h.toNat ≠ 0 → exec (.negotiateAlgorithms p a h) s
        = .next (s.setSpdm p ⟨3, chooseAsym a.toNat, .algorithms (chooseAsym a.toNat) (chooseHash h.toNat)⟩))
    ∧ (3 ≤ (s.spdm p).phase → exec (.getDigests p) s
        = .next (s.setSpdm p { s.spdm p with phase := 3, reply := .digests (sha256 Config.certChain) }))
    ∧ (∀ off len, 3 ≤ (s.spdm p).phase → off < Config.certChain.length → exec (.getCertificate p 0 off len) s
        = .next (s.setSpdm p { s.spdm p with
          phase := 3
          reply := .certificate 0 (slice Config.certChain off len)
            (Config.certChain.length - off - (slice Config.certChain off len).length) }))
    ∧ (∀ nonce, 3 ≤ (s.spdm p).phase → s.boot.identityFailed = false → exec (.challenge p 0 nonce) s
        = .next (s.setSpdm p { s.spdm p with
          phase := 3
          reply := .challengeAuth 0 (sha256 Config.certChain) (Config.identitySign (sha256 Config.certChain ++ nonce)) }))
    ∧ (∀ ix nonce, exec (.getMeasurements p ix nonce) s = .next (s.ordered (portRank p) 0 (.measure p ix.toNat nonce)))
    ∧ exec (.doeDiscovery p 0) s = .next (s.setSpdm p { s.spdm p with reply := .doeTypes 0 1 })
    ∧ exec (.doeDiscovery p 1) s = .next (s.setSpdm p { s.spdm p with reply := .doeTypes 1 0 })

/-- The debug connector. IDCODE reads 0x06402001; DEBUG_ACCESS reads zero while debug is not active and is refused by name while it is, because its effect is not in the manual; TEST_LOGIC_RESET selects the port -/
def Obligations.DebugRows : Prop :=
  ∀ (s : State), s.powered = true →
    exec .idcode s = .next { s with boot := { s.boot with tdo := 0x06402001#32 } }
    ∧ (s.obj 0x7000 4 ≠ 1 → exec .debugAccess s = .next { s with boot := { s.boot with tdo := 0#32 } })
    ∧ (s.obj 0x7000 4 = 1 → exec .debugAccess s = .refused .debugAccessUnspecified)
    ∧ (∀ b, exec (.testLogicReset b) s = .next { s with boot := { s.boot with dbgSel := b } })

/-- Bad frames are discarded and counted. A frame with a code violation, of a wrong length or of a reserved type or destination is counted dropped, one whose CRC fails is counted as a CRC error, and neither does anything else -/
def Obligations.FrameDiscarded : Prop :=
  ∀ (s : State) (fr : BdlFrame) (n m : Nat), s.up = true → s.bdl.linkOf fr.dir = true →
    ∀ r ∈ [(Instr.frameForward fr, fr.type), (.syncFrame fr n m, 0x01), (.odRead fr, 0x10), (.odWrite fr, 0x11),
        (.heartbeat fr, 0x30)], fr.type = r.2 →
      (fr.violation = true ∨ 64 < fr.payload.length → exec r.1 s = .next (s.count 0x1100 0x10 1))
      ∧ (fr.violation = false → fr.payload.length ≤ 64 → crc16 (frameBytes fr) ≠ fr.crc →
          exec r.1 s = .next (s.count 0x1100 0x0F 1))
      ∧ (fr.violation = false → fr.payload.length ≤ 64 → crc16 (frameBytes fr) = fr.crc → frameKnown fr = false →
          exec r.1 s = .next (s.count 0x1100 0x10 1))

/-- Object requests of other stations are discarded. An OD_READ or OD_WRITE that is received whole and whose source is not 0 is counted as dropped, answered by nothing, and changes nothing else -/
def Obligations.ForeignOdDiscarded : Prop :=
  ∀ (s : State) (fr : BdlFrame), s.hears fr → fr.source ≠ 0 →
    (fr.type = 0x10 → exec (.odRead fr) s = .next (s.heard.count 0x1100 0x10 1))
    ∧ (fr.type = 0x11 → exec (.odWrite fr) s = .next (s.heard.count 0x1100 0x10 1))

/-- Object access by the manager. The first segment of an OD_READ and the last of an OD_WRITE register one access for the next tick; later read segments return their part of the value; a transfer with no segment for 10,000 tk is dropped. The byte order of a value and a read of 0 bytes follow log entry 19 -/
def Obligations.OdRows : Prop :=
  (∀ (s : State) (fr : BdlFrame) (r : OdReq), s.managersFrame fr → s.bdl.state ≠ 0 → odReq fr.payload = r → r.ok = true →
    (fr.type = 0x10 → r.first = true → r.offset = 0 → exec (.odRead fr) s = .next
      (({ s.acted fr with bdl := { (s.acted fr).bdl with xfer := none } } : State).ordered 2 fr.seq.toNat
        (.odRead r.index r.sub r.arg r.count fr.seq.toNat)))
    ∧ (fr.type = 0x11 → r.first = true → r.last = true → r.offset = 0 → r.data.length = r.count →
        exec (.odWrite fr) s = .next
          (({ s.acted fr with bdl := { (s.acted fr).bdl with xfer := none } } : State).ordered 2 fr.seq.toNat
            (.odWrite r.index r.sub r.arg 0 r.data fr.seq.toNat)))
    ∧ (∀ x, s.bdl.xfer = some x → x.write = true → x.index = r.index → x.sub = r.sub → x.arg = r.arg → x.next = r.offset →
        fr.type = 0x11 → r.first = false → r.last = true → r.data.length = r.count →
        exec (.odWrite fr) s = .next
          (({ s.acted fr with bdl := { (s.acted fr).bdl with xfer := none } } : State).ordered 2 fr.seq.toNat
            (.odWrite r.index r.sub r.arg r.offset (x.data ++ r.data) fr.seq.toNat)))
    ∧ (∀ x, s.bdl.xfer = some x → x.write = false → x.index = r.index → x.sub = r.sub → x.arg = r.arg → x.next = r.offset →
        r.offset < x.data.length → fr.type = 0x10 → r.first = false →
        exec (.odRead fr) s = .next
          (({ s.acted fr with bdl := { (s.acted fr).bdl with xfer := some { x with
              next := r.offset + (slice x.data r.offset (readCount r.count)).length, lastTick := s.now } } } : State).answer
            (s.now + 1) r.index r.sub Status.success r.arg r.offset (slice x.data r.offset (readCount r.count)))))
  ∧ (∀ (s : State) (x : OdXfer), s.bdl.xfer = some x →
    (x.lastTick + 10000 ≤ s.now → exec .odTransferTimeout s = .next { s with bdl := { s.bdl with xfer := none } })
    ∧ (s.now < x.lastTick + 10000 → exec .odTransferTimeout s = .next s))

/-- Node control. ASSIGN, RELEASE, START, STOP and RESET register their effect for the next tick; in that tick ASSIGN takes the id, RELEASE gives it back, and START and STOP switch between operational and stopped. The handing on of the assign follows log entry 18 -/
def Obligations.NodeControlRows : Prop :=
  ∀ (s : State) (fr : BdlFrame),
    (s.managersFrame fr → fr.type = 0x40 →
      (beNat (slice fr.payload 0 1) = 1 → fr.dest = 0xFE → 1 ≤ beNat (slice fr.payload 2 1) →
        beNat (slice fr.payload 2 1) ≤ 31 → exec (.assign fr) s
          = .next ((s.heard.markSeen fr).ordered 2 fr.seq.toNat (.nodeCtrl 1 (beNat (slice fr.payload 2 1)))))
      ∧ (beNat (slice fr.payload 0 1) = 2 → exec (.release fr) s = .next ((s.acted fr).ordered 2 fr.seq.toNat (.nodeCtrl 2 0)))
      ∧ (beNat (slice fr.payload 0 1) = 3 → exec (.start fr) s = .next ((s.acted fr).ordered 2 fr.seq.toNat (.nodeCtrl 3 0)))
      ∧ (beNat (slice fr.payload 0 1) = 4 → exec (.stop fr) s = .next ((s.acted fr).ordered 2 fr.seq.toNat (.nodeCtrl 4 0)))
      ∧ (beNat (slice fr.payload 0 1) = 5 → beNat (slice fr.payload 1 1) = 0xA5 → exec (.reset fr) s = .next
        ((s.acted fr).ordered 1 0 (.moduleReset 3))))
    ∧ (∀ o : Order, s.bdl.manager = false →
      (∀ id, o.body = .nodeCtrl 1 id → s.bdl.state = 0 → s.applyOrder o
        = ({ s with bdl := { s.bdl with nodeId := id, state := 1 } } : State).raiseEvent 6)
      ∧ (o.body = .nodeCtrl 2 0 → s.bdl.state ≠ 0 → s.applyOrder o
        = ({ s with bdl := { s.bdl with nodeId := 0xFF, state := 0 } } : State).raiseEvent 6)
      ∧ (o.body = .nodeCtrl 3 0 → s.bdl.state = 1 → s.applyOrder o = { s with bdl := { s.bdl with state := 2 } })
      ∧ (o.body = .nodeCtrl 4 0 → s.bdl.state = 2 → s.applyOrder o = ({ s with bdl := { s.bdl with
            state := 1, events := [], lostSince := s.bdl.lostSince + s.bdl.events.length } } : State).count 0x1100 0x12
          s.bdl.events.length))

/-- Links and ring state. LINK_UP and LINK_DOWN change one link; each change of ring state raises ATTN 6 on both ports, and a wrap is counted -/
def Obligations.RingLinks : Prop :=
  ∀ (s : State), s.up = true →
    (∀ dir, s.boot.recovery = false → 1000 ≤ s.now → ∃ t, exec (.linkUp dir) s = .next t ∧ s.onlyStation t ∧ t.clk = s.clk
      ∧ t.bdl.upLink = (s.bdl.upLink || decide (dir = .up)) ∧ t.bdl.downLink = (s.bdl.downLink || decide (dir = .down))
      ∧ (t.bdl.ring ≠ s.bdl.ring → t.portA.pending.getLsbD 6 = true ∧ t.portB.pending.getLsbD 6 = true)
      ∧ (t.bdl.ring = s.bdl.ring → t = { s with bdl := t.bdl }))
    ∧ (∀ dir, ∃ t, exec (.linkDown dir) s = .next t ∧ s.onlyStation t ∧ t.clk = s.clk
      ∧ t.bdl.upLink = (s.bdl.upLink && decide (dir ≠ .up)) ∧ t.bdl.downLink = (s.bdl.downLink && decide (dir ≠ .down))
      ∧ (t.bdl.ring ≠ s.bdl.ring → t.portA.pending.getLsbD 6 = true ∧ t.portB.pending.getLsbD 6 = true)
      ∧ (s.bdl.ring = 0 → t.obj 0x1100 0x14 = s.obj 0x1100 0x14 + 1))

/-- SYNC frames. A SYNC is forwarded with its correction and its offset is registered for the next tick and applied there; a manager that hears a lower tag than its own gives up its role in the next tick; SYNC_LOSS falls back to free running; the manager sends SYNC at its interval. Which offsets count and what an own SYNC carries follow log entry 16 -/
def Obligations.SyncRows : Prop :=
  ∀ (s : State) (fr : BdlFrame) (localNs residence : Nat),
    (s.hears fr → fr.type = 0x01 → s.bdl.manager = true → exec (.syncFrame fr localNs residence) s = .next
      (s.heard.ordered 2 fr.seq.toNat (.rivalTag (beNat (slice fr.payload 16 4)))))
    ∧ (∀ (o : Order) tag, o.body = .rivalTag tag → s.bdl.manager = true → tag < s.obj 0x1100 4 → s.applyOrder o
      = (({ s with bdl := { s.bdl with manager := false, nodeId := 0xFF, state := 0, assignSent := none } } : State).count
          0x1100 0x13 1).raiseEvent 6)
    ∧ (s.hears fr → fr.type = 0x01 → s.bdl.manager = false → s.isNew fr = true → fr.payload.length = 20 →
      exec (.syncFrame fr localNs residence) s = .next
        (let p := fr.payload
         let onward := beNat (slice p 12 4) + s.hopDelay fr.dir + residence
         let t := (s.heard.forward fr (patch p 12 (beBytes 4 onward))).markSeen fr
         let offset : Int := (beNat (slice p 0 8) * 1000 + beNat (slice p 8 2) + beNat (slice p 12 4) + s.hopDelay fr.dir : Nat)
           - ((s.now : Int) * 1000 + localNs)
         t.ordered 2 fr.seq.toNat (.sync offset (beNat (slice p 10 2)))))
    ∧ (∀ (o : Order) offset interval, o.body = .sync offset interval → s.bdl.manager = false →
      s.applyOrder o = ({ s with clk := { s.clk with syncInterval := interval } } : State).applySync (1000 * s.now) offset)
    ∧ (s.syncLost = true → exec .syncLoss s = .next
        ((({ s with clk := { s.clk with slewNs := 0, lastOffset := none } } : State).tickSource 0).raiseEvent 8))
    ∧ (s.up = true → s.bdl.manager = true → s.now % s.obj 0x1100 6 = 0 → s.clk.lastSync ≠ s.now →
        exec .syncSend s = .next (({ s with clk := { s.clk with lastSync := s.now } } : State).send 0x01 0xFF
          (beBytes 8 s.now ++ beBytes 2 0 ++ beBytes 2 (s.obj 0x1100 6) ++ beBytes 4 0 ++ beBytes 4 (s.obj 0x1100 4))))

/-- What an offset does to the counter. The first lock before READY steps the counter forward in one move; after READY it is never stepped: an offset within the limit is slewed, a greater one ends the alignment with ATTN 8, and a jump of the offset is rejected and counted. That the first lock never steps the counter backward is log entry 16 -/
def Obligations.OffsetApplied : Prop :=
  ∀ (s : State) (arrival offset : Int), s.clk.freeRun = false → Sparse.wf dictDefault s.dict = true →
    (s.obj 0x3000 2 = 0 → s.clk.everLocked = false → s.boot.ready = false → (s.now : Int) ≤ (arrival + round10 offset) / 1000 →
      (s.applySync arrival offset).clk.counter = ((arrival + round10 offset) / 1000).toNat)
    ∧ (s.obj 0x3000 2 = 0 → s.boot.ready = true → 1000 * s.obj 0x3000 4 < offset.natAbs →
      ∃ t, s.applySync arrival offset = t ∧ s.onlyStation t ∧ t.clk = { s.clk with freeRun := true, slewNs := 0 }
        ∧ t.obj 0x3000 2 = 0 ∧ t.portA.pending.getLsbD 8 = true ∧ t.portB.pending.getLsbD 8 = true)
    ∧ (s.obj 0x3000 2 = 0 → s.boot.ready = true → offset.natAbs ≤ 1000 * s.obj 0x3000 4 →
      ∃ t, s.applySync arrival offset = t ∧ t = { s with clk := t.clk, dict := t.dict }
        ∧ t.clk.slewNs = (if 5 < offset.natAbs then offset else 0) ∧ t.clk.counter = s.clk.counter
        ∧ t.obj 0x3000 2 = (if 5 < offset.natAbs then 2 else 1))
    ∧ (∀ o, s.obj 0x3000 2 ≠ 0 → s.clk.lastOffset = some o → 1000 < (offset - o).natAbs →
      ∃ t, s.applySync arrival offset = t ∧ t = { s with dict := t.dict }
        ∧ t.obj 0x1100 0x11 = s.obj 0x1100 0x11 + 1)

/-- Hop delays. DELAY_MEASUREMENT sends one request on its hop, DELAY_REQ is answered on the same hop, and DELAY_RESP adds a sample; a hop slower than 1,000 ns is treated as down -/
def Obligations.DelayRows : Prop :=
  ∀ (s : State) (fr : BdlFrame) (turnaround : BitVec 32) (ns sent q : Nat),
    (s.up = true → s.bdl.upLink = true → s.bdl.forward = [] → 8 ≤ s.bdl.delayUp.length →
      s.bdl.lastMeasUp + s.obj 0x1100 8 ≤ s.now → ∃ t, exec (.delayMeasurement .up ns) s = .next t
        ∧ t = { s with bdl := t.bdl, dict := t.dict }
        ∧ t.bdl = { s.bdl with
            tx := s.ownFrame 0x02 0xFD [] false true :: s.bdl.tx, txSeq := s.bdl.txSeq + 1
            reqUp := some (s.bdl.txSeq % 65536, ns), lastMeasUp := s.now })
    ∧ (∀ f, f = s.ownFrame 0x03 0xFD (beBytes 4 turnaround.toNat ++ beBytes 2 fr.seq.toNat) (decide (fr.dir = .down))
          (decide (fr.dir = .up)) →
      s.hears fr → fr.type = 0x02 → fr.dest = 0xFD → ∃ t, exec (.delayReq fr turnaround) s = .next t
        ∧ t = { s with bdl := t.bdl, dict := t.dict }
        ∧ (s.bdl.forward = [] → t.bdl = { s.bdl with tx := f :: s.bdl.tx, txSeq := s.bdl.txSeq + 1 })
        ∧ (s.bdl.forward ≠ [] → t.bdl = { s.bdl with own := s.bdl.own ++ [f], txSeq := s.bdl.txSeq + 1 }))
    ∧ (s.hears fr → fr.type = 0x03 → fr.dest = 0xFD → fr.dir = .up → s.bdl.reqUp = some (q, sent) →
        beNat (slice fr.payload 4 2) = q →
        let l := addSample s.bdl.delayUp (ns - sent - beNat (slice fr.payload 0 4))
        (meanDelay l ≤ 1000 → exec (.delayResp fr ns) s = .next
          { s.heard with bdl := { s.bdl with reqUp := none, delayUp := l } })
        ∧ (1000 < meanDelay l → exec (.delayResp fr ns) s = .next
          (({ s.heard with bdl := { s.bdl with reqUp := none, delayUp := l } } : State).linkDown .up)))

/-- Frames forwarded and sent. FRAME_FORWARD passes a frame on or, with four waiting, drops and counts it; EVENT_QUEUE_SEND, REPORT and HEARTBEAT_SEND send or queue one frame; HEARTBEAT of the manager renews its liveness in the next tick and its loss raises ATTN 6 once. One frame leaves in a tick, by the model's choice (log entry 17), and ATTN 6 is raised as log entry 37 says -/
def Obligations.FramesSent : Prop :=
  (∀ (s : State) (fr : BdlFrame), s.hears fr → s.bdl.manager = false → fr.type ≠ 0x01 → fr.dest ≠ 0xFD →
    s.isFor fr = false ∨ fr.dest = 0xFF →
    (s.bdl.forward.length < 4 → ∃ t, exec (.frameForward fr) s = .next t ∧ t = { s with bdl := t.bdl, dict := t.dict }
      ∧ ∃ d u, s.bdl.pairs (decide (fr.dir = .up)) = (d, u)
      ∧ t.bdl = { s.bdl with forward := s.bdl.forward ++
          [⟨d, u, fr.type.toNat, fr.source.toNat, fr.dest.toNat, fr.seq.toNat, fr.payload, s.now⟩] })
    ∧ (4 ≤ s.bdl.forward.length → exec (.frameForward fr) s = .next (s.heard.count 0x1100 0x10 1)))
  ∧ (∀ (s : State) (e : BdlEvent) (es : List BdlEvent) (row : Fin 8),
    (s.bdl.events = e :: es → s.mayOriginate = true → s.bdl.state = 2 → s.bdl.manager = false →
      exec .eventQueueSend s = .next
        ((({ s with bdl := { s.bdl with events := es, lostSince := 0, evSeq := s.bdl.evSeq + 1 } } : State).send 0x20 0
          (eventBytes { e with seq := s.bdl.evSeq % 65536 } s.bdl.lostSince)).noteOrigin))
    ∧ (s.reportDue row.val = true → exec (.report row) s = .next
        (({ s with bdl := { s.bdl with reportLast := s.bdl.reportLast.set row.val s.now } } : State).queueEvent
          ⟨1, 0, 0, s.now, recField (s.obj 0x1120 0 row.val) 0 2, recField (s.obj 0x1120 0 row.val) 2 1,
            recField (s.obj 0x1120 0 row.val) 4 4,
            leBytes (recField (s.obj 0x1120 0 row.val) 3 1)
              (s.readObj (recField (s.obj 0x1120 0 row.val) 0 2) (recField (s.obj 0x1120 0 row.val) 2 1)
                (recField (s.obj 0x1120 0 row.val) 4 4))⟩)))
  ∧ (∀ (s : State) (fr : BdlFrame),
    (s.heartbeatDue = true → s.bdl.manager = false → exec .heartbeatSend s = .next
      ((({ s with bdl := { s.bdl with lastHeartbeat := s.now } } : State).send 0x30 0 s.heartbeatBytes).noteOrigin))
    ∧ (s.managersFrame fr → fr.type = 0x30 → fr.dest = 0xFF → exec (.heartbeat fr) s = .next
        ((s.acted fr).ordered 2 fr.seq.toNat .managerSeen))
    ∧ (∀ o : Order, o.body = .managerSeen → s.applyOrder o
        = { s with bdl := { s.bdl with managerSeen := s.now, managerLost := false } })
    ∧ (s.up = true → s.bdl.manager = false → s.bdl.managerLost = false → s.bdl.managerSeen + 3 * s.obj 0x1100 9 ≤ s.now →
        exec .managerHeartbeatLoss s = .next (({ s with bdl := { s.bdl with managerLost := true } } : State).raiseEvent 6)))

/-- A tick advances the counter by one. A tick without a module reset advances the counter and time by one, and lasts 99, 100 or 101 periods, a period other than 100 at most once in 16 ticks; in a module that is not in service only time passes. The length of a tick in periods and what TICK does at its end are the model's choice (log entries 6 and 8) -/
def Obligations.TickAdvances : Prop :=
  ∀ s : State,
    (s.up = true → s.endTick.advance.phaseOne.1 = true → ∃ t, exec .tick s = .next t ∧ t.clk.counter = s.clk.counter + 1
      ∧ t.clk.world = s.clk.world + 1 ∧ t.clk.period ∈ [99, 100, 101])
    ∧ (s.up = false → (∀ since r, s.pwr.phase = .holdup since r → s.clk.world < since + 8020) →
      exec .tick s = .next { s with clk := { s.clk with world := s.clk.world + 1 } })
    ∧ (s.clk.advance.period ≠ 100 → 15 ≤ s.clk.sinceAdjust ∧ s.clk.advance.sinceAdjust = 0)

/-- Tick symbols at the channel chips, and the exchange of the tick-table banks. The symbol of a tick advances the copy of its chip; one that disagrees is counted and the copy takes the next whole value; a chip without symbols for 4 tk is stopped; the banks exchange only at a multiple of 4,096 after the tick of the request. The copy judges reply deadlines (log entry 50); what a symbol that disagrees does until the reload is log entry 67; where no read of the tick could show the exchange it waits for its row (log entry 61) -/
def Obligations.TickSymbolRows : Prop :=
  (∀ (s : State) (chip : Fin 8) (n : Tick) (c : ChipClock), s.clk.chips[chip.val]? = some c → s.up = true →
    (s.clk.sent = some n → c.lastSymbol < n → n % 4096 ≠ 0 → ∃ t, exec (.tickSymbol chip (BitVec.ofNat 12 n) none) s = .next t
      ∧ t.clk.skewMax ≤ max s.clk.skewMax 20
      ∧ s.chipChanged t chip { c with
          count := c.count + 1, lastSymbol := s.now, stopped := false
          reload := c.reload || decide ((c.count + 1) % 4096 ≠ n % 4096) }
      ∧ (c.reload = true ∨ (c.count + 1) % 4096 = n % 4096 → t.dict = s.dict)
      ∧ (c.reload = false → (c.count + 1) % 4096 ≠ n % 4096 →
        t.dict = Sparse.put dictDefault s.dict (objKey 0x3000 8 0) (s.obj 0x3000 8 + 1)))
    ∧ (s.clk.sent = some n → c.lastSymbol < n → n % 4096 = 0 →
      ∃ t, exec (.tickSymbol chip (BitVec.ofNat 12 n) (some (BitVec.ofNat 64 n))) s = .next t
      ∧ s.chipChanged t chip { c with
          count := if c.reload || decide ((c.count + 1) % 4096 ≠ 0) then n % 2 ^ 64 else c.count + 1
          lastSymbol := s.now, reload := false, stopped := false }
      ∧ (c.reload = false → (c.count + 1) % 4096 ≠ 0 →
        t.dict = Sparse.put dictDefault s.dict (objKey 0x3000 8 0) (s.obj 0x3000 8 + 1)))
    ∧ (c.lastSymbol + 4 ≤ s.now → ∃ t, exec (.tickSymbolTimeout chip) s = .next t
      ∧ s.chipChanged t chip { c with stopped := true } ∧ t.dict = s.dict))
  ∧ (∀ s : State,
    (s.table.pending = true → s.now % 4096 = 0 → s.table.asked < s.now → exec .bankExchange s = .next
      { s with table := { s.table with active := !s.table.active, pending := false, status := 0, switchTick := s.now } })
    ∧ (s.table.pending = false ∨ s.now % 4096 ≠ 0 ∨ s.now ≤ s.table.asked → exec .bankExchange s = .next s))

/-- The tick object reads the counter. The value read from object 0x3000:01 is the counter in the tick in which the read is sampled -/
def Obligations.TickRead : Prop :=
  ∀ s : State, s.readObj 0x3000 1 0 = s.clk.counter

/-- Every command answers a next state. In every state every command answers a next state, but for DEBUG_ACCESS while debug is active, whose effect the manual does not give. That a command whose condition does not hold answers a next state is the model's choice (log entries 7 and 64) -/
def Obligations.EveryCommandAnswers : Prop :=
  ∀ (i : Instr) (s : State),
    (∃ t, exec i s = .next t)
    ∨ (i = .debugAccess ∧ s.powered = true ∧ s.obj 0x7000 4 = 1 ∧ exec i s = .refused .debugAccessUnspecified)

/-- The module after reset. The counter is 0, no queue, command, order or collection exists, registers have their reset values, the station is unassigned with both links down, and boot is at stage 1. The values the model chose for reset (log entries 2, 4 and 6) are not named here -/
def Obligations.ResetState : Prop :=
  State.reset.pending = [] ∧ State.reset.clk.counter = 0 ∧ State.reset.orders = [] ∧ State.reset.cmds = []
    ∧ State.reset.sqs = [] ∧ State.reset.cqs = [] ∧ State.reset.colls = [] ∧ State.reset.boot.stage = 1
    ∧ State.reset.boot.ready = false ∧ State.reset.boot.locks = 0
    ∧ (∀ p : Port, (State.reset.port p).pending = 0#16 ∧ (State.reset.port p).evCount = 0
      ∧ (State.reset.port p).admin.en = false ∧ (State.reset.port p).wrFails = 0)
    ∧ State.reset.bdl.nodeId = 0xFF ∧ State.reset.bdl.state = 0 ∧ State.reset.bdl.ring = 3
    ∧ State.reset.obj 0x3000 2 = 0 ∧ State.reset.obj 0x2000 4 = 0

/-- The invariant holds at reset. Memory and the object dictionary are in canonical form, a tick lasts 99, 100 or 101 periods, there are eight channel chips, and the counter is 0 while the module is off or held in reset -/
def Obligations.InvariantAtReset : Prop :=
  State.reset.Inv

/-- Every step keeps the invariant. From every state that meets the invariant, whatever command is at the front of the queue, the next state meets it -/
def Obligations.InvariantKept : Prop :=
  ∀ s t : State, s.Inv → step s = .next t → t.Inv
end

