-- ==== Sys2Proof/Laws/State.lean ====
section
/-! SUPPORT. Laws of State: what each shared update leaves unchanged, field by field, and what it changes. -/
namespace Sys2Proof.Machine

/-! ### State.order -/

@[simp] theorem State.order_orders (s : State) (rank sub : Nat) (body : OrderBody) :
    (s.order rank sub body).orders = s.orders ++ [⟨s.now + 1, rank, sub, s.receipt, body⟩] := rfl
@[simp] theorem State.order_receipt (s : State) (rank sub : Nat) (body : OrderBody) :
    (s.order rank sub body).receipt = s.receipt + 1 := rfl
@[simp] theorem State.order_pending (s : State) (rank sub : Nat) (body : OrderBody) : (s.order rank sub body).pending = s.pending := rfl
@[simp] theorem State.order_clk (s : State) (rank sub : Nat) (body : OrderBody) : (s.order rank sub body).clk = s.clk := rfl
@[simp] theorem State.order_dict (s : State) (rank sub : Nat) (body : OrderBody) : (s.order rank sub body).dict = s.dict := rfl
@[simp] theorem State.order_portA (s : State) (rank sub : Nat) (body : OrderBody) : (s.order rank sub body).portA = s.portA := rfl
@[simp] theorem State.order_portB (s : State) (rank sub : Nat) (body : OrderBody) : (s.order rank sub body).portB = s.portB := rfl
@[simp] theorem State.order_sqs (s : State) (rank sub : Nat) (body : OrderBody) : (s.order rank sub body).sqs = s.sqs := rfl
@[simp] theorem State.order_cqs (s : State) (rank sub : Nat) (body : OrderBody) : (s.order rank sub body).cqs = s.cqs := rfl
@[simp] theorem State.order_msix (s : State) (rank sub : Nat) (body : OrderBody) : (s.order rank sub body).msix = s.msix := rfl
@[simp] theorem State.order_wins (s : State) (rank sub : Nat) (body : OrderBody) : (s.order rank sub body).wins = s.wins := rfl
@[simp] theorem State.order_boxes (s : State) (rank sub : Nat) (body : OrderBody) : (s.order rank sub body).boxes = s.boxes := rfl
@[simp] theorem State.order_cmds (s : State) (rank sub : Nat) (body : OrderBody) : (s.order rank sub body).cmds = s.cmds := rfl
@[simp] theorem State.order_nextCid (s : State) (rank sub : Nat) (body : OrderBody) : (s.order rank sub body).nextCid = s.nextCid := rfl
@[simp] theorem State.order_colls (s : State) (rank sub : Nat) (body : OrderBody) : (s.order rank sub body).colls = s.colls := rfl
@[simp] theorem State.order_chg (s : State) (rank sub : Nat) (body : OrderBody) : (s.order rank sub body).chg = s.chg := rfl
@[simp] theorem State.order_cache (s : State) (rank sub : Nat) (body : OrderBody) : (s.order rank sub body).cache = s.cache := rfl
@[simp] theorem State.order_searches (s : State) (rank sub : Nat) (body : OrderBody) : (s.order rank sub body).searches = s.searches := rfl
@[simp] theorem State.order_scan (s : State) (rank sub : Nat) (body : OrderBody) : (s.order rank sub body).scan = s.scan := rfl
@[simp] theorem State.order_tags (s : State) (rank sub : Nat) (body : OrderBody) : (s.order rank sub body).tags = s.tags := rfl
@[simp] theorem State.order_scanFree (s : State) (rank sub : Nat) (body : OrderBody) : (s.order rank sub body).scanFree = s.scanFree := rfl
@[simp] theorem State.order_wb (s : State) (rank sub : Nat) (body : OrderBody) : (s.order rank sub body).wb = s.wb := rfl
@[simp] theorem State.order_carry (s : State) (rank sub : Nat) (body : OrderBody) : (s.order rank sub body).carry = s.carry := rfl
@[simp] theorem State.order_tensor (s : State) (rank sub : Nat) (body : OrderBody) : (s.order rank sub body).tensor = s.tensor := rfl
@[simp] theorem State.order_shares (s : State) (rank sub : Nat) (body : OrderBody) : (s.order rank sub body).shares = s.shares := rfl
@[simp] theorem State.order_pwr (s : State) (rank sub : Nat) (body : OrderBody) : (s.order rank sub body).pwr = s.pwr := rfl
@[simp] theorem State.order_units (s : State) (rank sub : Nat) (body : OrderBody) : (s.order rank sub body).units = s.units := rfl
@[simp] theorem State.order_bdl (s : State) (rank sub : Nat) (body : OrderBody) : (s.order rank sub body).bdl = s.bdl := rfl
@[simp] theorem State.order_boot (s : State) (rank sub : Nat) (body : OrderBody) : (s.order rank sub body).boot = s.boot := rfl
@[simp] theorem State.order_table (s : State) (rank sub : Nat) (body : OrderBody) : (s.order rank sub body).table = s.table := rfl
@[simp] theorem State.order_ps (s : State) (rank sub : Nat) (body : OrderBody) : (s.order rank sub body).ps = s.ps := rfl
@[simp] theorem State.order_mem (s : State) (rank sub : Nat) (body : OrderBody) : (s.order rank sub body).mem = s.mem := rfl
@[simp] theorem State.order_flash (s : State) (rank sub : Nat) (body : OrderBody) : (s.order rank sub body).flash = s.flash := rfl
@[simp] theorem State.order_free (s : State) (rank sub : Nat) (body : OrderBody) : (s.order rank sub body).free = s.free := rfl

@[simp] theorem State.order_sys (s : State) (rank sub : Nat) (body : OrderBody) : (s.order rank sub body).sys = s.sys := rfl
@[simp] theorem State.order_posted (s : State) (rank sub : Nat) (body : OrderBody) : (s.order rank sub body).posted = s.posted := rfl

/-! ### State.orderCmd -/

@[simp] theorem State.orderCmd_pending (s : State) (c : Cmd) (place : Nat) : (s.orderCmd c place).pending = s.pending := rfl
@[simp] theorem State.orderCmd_clk (s : State) (c : Cmd) (place : Nat) : (s.orderCmd c place).clk = s.clk := rfl
@[simp] theorem State.orderCmd_dict (s : State) (c : Cmd) (place : Nat) : (s.orderCmd c place).dict = s.dict := rfl
@[simp] theorem State.orderCmd_portA (s : State) (c : Cmd) (place : Nat) : (s.orderCmd c place).portA = s.portA := rfl
@[simp] theorem State.orderCmd_portB (s : State) (c : Cmd) (place : Nat) : (s.orderCmd c place).portB = s.portB := rfl
@[simp] theorem State.orderCmd_sqs (s : State) (c : Cmd) (place : Nat) : (s.orderCmd c place).sqs = s.sqs := rfl
@[simp] theorem State.orderCmd_cqs (s : State) (c : Cmd) (place : Nat) : (s.orderCmd c place).cqs = s.cqs := rfl
@[simp] theorem State.orderCmd_msix (s : State) (c : Cmd) (place : Nat) : (s.orderCmd c place).msix = s.msix := rfl
@[simp] theorem State.orderCmd_wins (s : State) (c : Cmd) (place : Nat) : (s.orderCmd c place).wins = s.wins := rfl
@[simp] theorem State.orderCmd_boxes (s : State) (c : Cmd) (place : Nat) : (s.orderCmd c place).boxes = s.boxes := rfl
@[simp] theorem State.orderCmd_nextCid (s : State) (c : Cmd) (place : Nat) : (s.orderCmd c place).nextCid = s.nextCid := rfl
@[simp] theorem State.orderCmd_colls (s : State) (c : Cmd) (place : Nat) : (s.orderCmd c place).colls = s.colls := rfl
@[simp] theorem State.orderCmd_chg (s : State) (c : Cmd) (place : Nat) : (s.orderCmd c place).chg = s.chg := rfl
@[simp] theorem State.orderCmd_cache (s : State) (c : Cmd) (place : Nat) : (s.orderCmd c place).cache = s.cache := rfl
@[simp] theorem State.orderCmd_searches (s : State) (c : Cmd) (place : Nat) : (s.orderCmd c place).searches = s.searches := rfl
@[simp] theorem State.orderCmd_scan (s : State) (c : Cmd) (place : Nat) : (s.orderCmd c place).scan = s.scan := rfl
@[simp] theorem State.orderCmd_tags (s : State) (c : Cmd) (place : Nat) : (s.orderCmd c place).tags = s.tags := rfl
@[simp] theorem State.orderCmd_scanFree (s : State) (c : Cmd) (place : Nat) : (s.orderCmd c place).scanFree = s.scanFree := rfl
@[simp] theorem State.orderCmd_wb (s : State) (c : Cmd) (place : Nat) : (s.orderCmd c place).wb = s.wb := rfl
@[simp] theorem State.orderCmd_carry (s : State) (c : Cmd) (place : Nat) : (s.orderCmd c place).carry = s.carry := rfl
@[simp] theorem State.orderCmd_tensor (s : State) (c : Cmd) (place : Nat) : (s.orderCmd c place).tensor = s.tensor := rfl
@[simp] theorem State.orderCmd_shares (s : State) (c : Cmd) (place : Nat) : (s.orderCmd c place).shares = s.shares := rfl
@[simp] theorem State.orderCmd_pwr (s : State) (c : Cmd) (place : Nat) : (s.orderCmd c place).pwr = s.pwr := rfl
@[simp] theorem State.orderCmd_units (s : State) (c : Cmd) (place : Nat) : (s.orderCmd c place).units = s.units := rfl
@[simp] theorem State.orderCmd_bdl (s : State) (c : Cmd) (place : Nat) : (s.orderCmd c place).bdl = s.bdl := rfl
@[simp] theorem State.orderCmd_boot (s : State) (c : Cmd) (place : Nat) : (s.orderCmd c place).boot = s.boot := rfl
@[simp] theorem State.orderCmd_table (s : State) (c : Cmd) (place : Nat) : (s.orderCmd c place).table = s.table := rfl
@[simp] theorem State.orderCmd_ps (s : State) (c : Cmd) (place : Nat) : (s.orderCmd c place).ps = s.ps := rfl
@[simp] theorem State.orderCmd_mem (s : State) (c : Cmd) (place : Nat) : (s.orderCmd c place).mem = s.mem := rfl
@[simp] theorem State.orderCmd_flash (s : State) (c : Cmd) (place : Nat) : (s.orderCmd c place).flash = s.flash := rfl
@[simp] theorem State.orderCmd_free (s : State) (c : Cmd) (place : Nat) : (s.orderCmd c place).free = s.free := rfl

@[simp] theorem State.orderCmd_sys (s : State) (c : Cmd) (place : Nat) : (s.orderCmd c place).sys = s.sys := rfl
@[simp] theorem State.orderCmd_posted (s : State) (c : Cmd) (place : Nat) : (s.orderCmd c place).posted = s.posted := rfl

/-! ### State.modSq -/

@[simp] theorem State.modSq_sqs (s : State) (q : Nat) (f : Sq → Sq) :
    (s.modSq q f).sqs = mapWhere (fun x => decide (x.qid = q)) f s.sqs := rfl
@[simp] theorem State.modSq_pending (s : State) (q : Nat) (f : Sq → Sq) : (s.modSq q f).pending = s.pending := rfl
@[simp] theorem State.modSq_clk (s : State) (q : Nat) (f : Sq → Sq) : (s.modSq q f).clk = s.clk := rfl
@[simp] theorem State.modSq_orders (s : State) (q : Nat) (f : Sq → Sq) : (s.modSq q f).orders = s.orders := rfl
@[simp] theorem State.modSq_receipt (s : State) (q : Nat) (f : Sq → Sq) : (s.modSq q f).receipt = s.receipt := rfl
@[simp] theorem State.modSq_dict (s : State) (q : Nat) (f : Sq → Sq) : (s.modSq q f).dict = s.dict := rfl
@[simp] theorem State.modSq_portA (s : State) (q : Nat) (f : Sq → Sq) : (s.modSq q f).portA = s.portA := rfl
@[simp] theorem State.modSq_portB (s : State) (q : Nat) (f : Sq → Sq) : (s.modSq q f).portB = s.portB := rfl
@[simp] theorem State.modSq_cqs (s : State) (q : Nat) (f : Sq → Sq) : (s.modSq q f).cqs = s.cqs := rfl
@[simp] theorem State.modSq_msix (s : State) (q : Nat) (f : Sq → Sq) : (s.modSq q f).msix = s.msix := rfl
@[simp] theorem State.modSq_wins (s : State) (q : Nat) (f : Sq → Sq) : (s.modSq q f).wins = s.wins := rfl
@[simp] theorem State.modSq_boxes (s : State) (q : Nat) (f : Sq → Sq) : (s.modSq q f).boxes = s.boxes := rfl
@[simp] theorem State.modSq_cmds (s : State) (q : Nat) (f : Sq → Sq) : (s.modSq q f).cmds = s.cmds := rfl
@[simp] theorem State.modSq_nextCid (s : State) (q : Nat) (f : Sq → Sq) : (s.modSq q f).nextCid = s.nextCid := rfl
@[simp] theorem State.modSq_colls (s : State) (q : Nat) (f : Sq → Sq) : (s.modSq q f).colls = s.colls := rfl
@[simp] theorem State.modSq_chg (s : State) (q : Nat) (f : Sq → Sq) : (s.modSq q f).chg = s.chg := rfl
@[simp] theorem State.modSq_cache (s : State) (q : Nat) (f : Sq → Sq) : (s.modSq q f).cache = s.cache := rfl
@[simp] theorem State.modSq_searches (s : State) (q : Nat) (f : Sq → Sq) : (s.modSq q f).searches = s.searches := rfl
@[simp] theorem State.modSq_scan (s : State) (q : Nat) (f : Sq → Sq) : (s.modSq q f).scan = s.scan := rfl
@[simp] theorem State.modSq_tags (s : State) (q : Nat) (f : Sq → Sq) : (s.modSq q f).tags = s.tags := rfl
@[simp] theorem State.modSq_scanFree (s : State) (q : Nat) (f : Sq → Sq) : (s.modSq q f).scanFree = s.scanFree := rfl
@[simp] theorem State.modSq_wb (s : State) (q : Nat) (f : Sq → Sq) : (s.modSq q f).wb = s.wb := rfl
@[simp] theorem State.modSq_carry (s : State) (q : Nat) (f : Sq → Sq) : (s.modSq q f).carry = s.carry := rfl
@[simp] theorem State.modSq_tensor (s : State) (q : Nat) (f : Sq → Sq) : (s.modSq q f).tensor = s.tensor := rfl
@[simp] theorem State.modSq_shares (s : State) (q : Nat) (f : Sq → Sq) : (s.modSq q f).shares = s.shares := rfl
@[simp] theorem State.modSq_pwr (s : State) (q : Nat) (f : Sq → Sq) : (s.modSq q f).pwr = s.pwr := rfl
@[simp] theorem State.modSq_units (s : State) (q : Nat) (f : Sq → Sq) : (s.modSq q f).units = s.units := rfl
@[simp] theorem State.modSq_bdl (s : State) (q : Nat) (f : Sq → Sq) : (s.modSq q f).bdl = s.bdl := rfl
@[simp] theorem State.modSq_boot (s : State) (q : Nat) (f : Sq → Sq) : (s.modSq q f).boot = s.boot := rfl
@[simp] theorem State.modSq_table (s : State) (q : Nat) (f : Sq → Sq) : (s.modSq q f).table = s.table := rfl
@[simp] theorem State.modSq_ps (s : State) (q : Nat) (f : Sq → Sq) : (s.modSq q f).ps = s.ps := rfl
@[simp] theorem State.modSq_mem (s : State) (q : Nat) (f : Sq → Sq) : (s.modSq q f).mem = s.mem := rfl
@[simp] theorem State.modSq_flash (s : State) (q : Nat) (f : Sq → Sq) : (s.modSq q f).flash = s.flash := rfl
@[simp] theorem State.modSq_free (s : State) (q : Nat) (f : Sq → Sq) : (s.modSq q f).free = s.free := rfl

@[simp] theorem State.modSq_sys (s : State) (q : Nat) (f : Sq → Sq) : (s.modSq q f).sys = s.sys := rfl
@[simp] theorem State.modSq_posted (s : State) (q : Nat) (f : Sq → Sq) : (s.modSq q f).posted = s.posted := rfl

/-! ### State.modCq -/

@[simp] theorem State.modCq_cqs (s : State) (q : Nat) (f : Cq → Cq) :
    (s.modCq q f).cqs = mapWhere (fun x => decide (x.qid = q)) f s.cqs := rfl
@[simp] theorem State.modCq_pending (s : State) (q : Nat) (f : Cq → Cq) : (s.modCq q f).pending = s.pending := rfl
@[simp] theorem State.modCq_clk (s : State) (q : Nat) (f : Cq → Cq) : (s.modCq q f).clk = s.clk := rfl
@[simp] theorem State.modCq_orders (s : State) (q : Nat) (f : Cq → Cq) : (s.modCq q f).orders = s.orders := rfl
@[simp] theorem State.modCq_receipt (s : State) (q : Nat) (f : Cq → Cq) : (s.modCq q f).receipt = s.receipt := rfl
@[simp] theorem State.modCq_dict (s : State) (q : Nat) (f : Cq → Cq) : (s.modCq q f).dict = s.dict := rfl
@[simp] theorem State.modCq_portA (s : State) (q : Nat) (f : Cq → Cq) : (s.modCq q f).portA = s.portA := rfl
@[simp] theorem State.modCq_portB (s : State) (q : Nat) (f : Cq → Cq) : (s.modCq q f).portB = s.portB := rfl
@[simp] theorem State.modCq_sqs (s : State) (q : Nat) (f : Cq → Cq) : (s.modCq q f).sqs = s.sqs := rfl
@[simp] theorem State.modCq_msix (s : State) (q : Nat) (f : Cq → Cq) : (s.modCq q f).msix = s.msix := rfl
@[simp] theorem State.modCq_wins (s : State) (q : Nat) (f : Cq → Cq) : (s.modCq q f).wins = s.wins := rfl
@[simp] theorem State.modCq_boxes (s : State) (q : Nat) (f : Cq → Cq) : (s.modCq q f).boxes = s.boxes := rfl
@[simp] theorem State.modCq_cmds (s : State) (q : Nat) (f : Cq → Cq) : (s.modCq q f).cmds = s.cmds := rfl
@[simp] theorem State.modCq_nextCid (s : State) (q : Nat) (f : Cq → Cq) : (s.modCq q f).nextCid = s.nextCid := rfl
@[simp] theorem State.modCq_colls (s : State) (q : Nat) (f : Cq → Cq) : (s.modCq q f).colls = s.colls := rfl
@[simp] theorem State.modCq_chg (s : State) (q : Nat) (f : Cq → Cq) : (s.modCq q f).chg = s.chg := rfl
@[simp] theorem State.modCq_cache (s : State) (q : Nat) (f : Cq → Cq) : (s.modCq q f).cache = s.cache := rfl
@[simp] theorem State.modCq_searches (s : State) (q : Nat) (f : Cq → Cq) : (s.modCq q f).searches = s.searches := rfl
@[simp] theorem State.modCq_scan (s : State) (q : Nat) (f : Cq → Cq) : (s.modCq q f).scan = s.scan := rfl
@[simp] theorem State.modCq_tags (s : State) (q : Nat) (f : Cq → Cq) : (s.modCq q f).tags = s.tags := rfl
@[simp] theorem State.modCq_scanFree (s : State) (q : Nat) (f : Cq → Cq) : (s.modCq q f).scanFree = s.scanFree := rfl
@[simp] theorem State.modCq_wb (s : State) (q : Nat) (f : Cq → Cq) : (s.modCq q f).wb = s.wb := rfl
@[simp] theorem State.modCq_carry (s : State) (q : Nat) (f : Cq → Cq) : (s.modCq q f).carry = s.carry := rfl
@[simp] theorem State.modCq_tensor (s : State) (q : Nat) (f : Cq → Cq) : (s.modCq q f).tensor = s.tensor := rfl
@[simp] theorem State.modCq_shares (s : State) (q : Nat) (f : Cq → Cq) : (s.modCq q f).shares = s.shares := rfl
@[simp] theorem State.modCq_pwr (s : State) (q : Nat) (f : Cq → Cq) : (s.modCq q f).pwr = s.pwr := rfl
@[simp] theorem State.modCq_units (s : State) (q : Nat) (f : Cq → Cq) : (s.modCq q f).units = s.units := rfl
@[simp] theorem State.modCq_bdl (s : State) (q : Nat) (f : Cq → Cq) : (s.modCq q f).bdl = s.bdl := rfl
@[simp] theorem State.modCq_boot (s : State) (q : Nat) (f : Cq → Cq) : (s.modCq q f).boot = s.boot := rfl
@[simp] theorem State.modCq_table (s : State) (q : Nat) (f : Cq → Cq) : (s.modCq q f).table = s.table := rfl
@[simp] theorem State.modCq_ps (s : State) (q : Nat) (f : Cq → Cq) : (s.modCq q f).ps = s.ps := rfl
@[simp] theorem State.modCq_mem (s : State) (q : Nat) (f : Cq → Cq) : (s.modCq q f).mem = s.mem := rfl
@[simp] theorem State.modCq_flash (s : State) (q : Nat) (f : Cq → Cq) : (s.modCq q f).flash = s.flash := rfl
@[simp] theorem State.modCq_free (s : State) (q : Nat) (f : Cq → Cq) : (s.modCq q f).free = s.free := rfl

@[simp] theorem State.modCq_sys (s : State) (q : Nat) (f : Cq → Cq) : (s.modCq q f).sys = s.sys := rfl
@[simp] theorem State.modCq_posted (s : State) (q : Nat) (f : Cq → Cq) : (s.modCq q f).posted = s.posted := rfl

/-! ### State.modCmd -/

@[simp] theorem State.modCmd_cmds (s : State) (n : Nat) (f : Cmd → Cmd) :
    (s.modCmd n f).cmds = mapWhere (fun c => decide (c.cid = n)) f s.cmds := rfl
@[simp] theorem State.modCmd_pending (s : State) (n : Nat) (f : Cmd → Cmd) : (s.modCmd n f).pending = s.pending := rfl
@[simp] theorem State.modCmd_clk (s : State) (n : Nat) (f : Cmd → Cmd) : (s.modCmd n f).clk = s.clk := rfl
@[simp] theorem State.modCmd_orders (s : State) (n : Nat) (f : Cmd → Cmd) : (s.modCmd n f).orders = s.orders := rfl
@[simp] theorem State.modCmd_receipt (s : State) (n : Nat) (f : Cmd → Cmd) : (s.modCmd n f).receipt = s.receipt := rfl
@[simp] theorem State.modCmd_dict (s : State) (n : Nat) (f : Cmd → Cmd) : (s.modCmd n f).dict = s.dict := rfl
@[simp] theorem State.modCmd_portA (s : State) (n : Nat) (f : Cmd → Cmd) : (s.modCmd n f).portA = s.portA := rfl
@[simp] theorem State.modCmd_portB (s : State) (n : Nat) (f : Cmd → Cmd) : (s.modCmd n f).portB = s.portB := rfl
@[simp] theorem State.modCmd_sqs (s : State) (n : Nat) (f : Cmd → Cmd) : (s.modCmd n f).sqs = s.sqs := rfl
@[simp] theorem State.modCmd_cqs (s : State) (n : Nat) (f : Cmd → Cmd) : (s.modCmd n f).cqs = s.cqs := rfl
@[simp] theorem State.modCmd_msix (s : State) (n : Nat) (f : Cmd → Cmd) : (s.modCmd n f).msix = s.msix := rfl
@[simp] theorem State.modCmd_wins (s : State) (n : Nat) (f : Cmd → Cmd) : (s.modCmd n f).wins = s.wins := rfl
@[simp] theorem State.modCmd_boxes (s : State) (n : Nat) (f : Cmd → Cmd) : (s.modCmd n f).boxes = s.boxes := rfl
@[simp] theorem State.modCmd_nextCid (s : State) (n : Nat) (f : Cmd → Cmd) : (s.modCmd n f).nextCid = s.nextCid := rfl
@[simp] theorem State.modCmd_colls (s : State) (n : Nat) (f : Cmd → Cmd) : (s.modCmd n f).colls = s.colls := rfl
@[simp] theorem State.modCmd_chg (s : State) (n : Nat) (f : Cmd → Cmd) : (s.modCmd n f).chg = s.chg := rfl
@[simp] theorem State.modCmd_cache (s : State) (n : Nat) (f : Cmd → Cmd) : (s.modCmd n f).cache = s.cache := rfl
@[simp] theorem State.modCmd_searches (s : State) (n : Nat) (f : Cmd → Cmd) : (s.modCmd n f).searches = s.searches := rfl
@[simp] theorem State.modCmd_scan (s : State) (n : Nat) (f : Cmd → Cmd) : (s.modCmd n f).scan = s.scan := rfl
@[simp] theorem State.modCmd_tags (s : State) (n : Nat) (f : Cmd → Cmd) : (s.modCmd n f).tags = s.tags := rfl
@[simp] theorem State.modCmd_scanFree (s : State) (n : Nat) (f : Cmd → Cmd) : (s.modCmd n f).scanFree = s.scanFree := rfl
@[simp] theorem State.modCmd_wb (s : State) (n : Nat) (f : Cmd → Cmd) : (s.modCmd n f).wb = s.wb := rfl
@[simp] theorem State.modCmd_carry (s : State) (n : Nat) (f : Cmd → Cmd) : (s.modCmd n f).carry = s.carry := rfl
@[simp] theorem State.modCmd_tensor (s : State) (n : Nat) (f : Cmd → Cmd) : (s.modCmd n f).tensor = s.tensor := rfl
@[simp] theorem State.modCmd_shares (s : State) (n : Nat) (f : Cmd → Cmd) : (s.modCmd n f).shares = s.shares := rfl
@[simp] theorem State.modCmd_pwr (s : State) (n : Nat) (f : Cmd → Cmd) : (s.modCmd n f).pwr = s.pwr := rfl
@[simp] theorem State.modCmd_units (s : State) (n : Nat) (f : Cmd → Cmd) : (s.modCmd n f).units = s.units := rfl
@[simp] theorem State.modCmd_bdl (s : State) (n : Nat) (f : Cmd → Cmd) : (s.modCmd n f).bdl = s.bdl := rfl
@[simp] theorem State.modCmd_boot (s : State) (n : Nat) (f : Cmd → Cmd) : (s.modCmd n f).boot = s.boot := rfl
@[simp] theorem State.modCmd_table (s : State) (n : Nat) (f : Cmd → Cmd) : (s.modCmd n f).table = s.table := rfl
@[simp] theorem State.modCmd_ps (s : State) (n : Nat) (f : Cmd → Cmd) : (s.modCmd n f).ps = s.ps := rfl
@[simp] theorem State.modCmd_mem (s : State) (n : Nat) (f : Cmd → Cmd) : (s.modCmd n f).mem = s.mem := rfl
@[simp] theorem State.modCmd_flash (s : State) (n : Nat) (f : Cmd → Cmd) : (s.modCmd n f).flash = s.flash := rfl
@[simp] theorem State.modCmd_free (s : State) (n : Nat) (f : Cmd → Cmd) : (s.modCmd n f).free = s.free := rfl

@[simp] theorem State.modCmd_sys (s : State) (n : Nat) (f : Cmd → Cmd) : (s.modCmd n f).sys = s.sys := rfl
@[simp] theorem State.modCmd_posted (s : State) (n : Nat) (f : Cmd → Cmd) : (s.modCmd n f).posted = s.posted := rfl

/-! ### State.modColl -/

@[simp] theorem State.modColl_colls (s : State) (n : Nat) (f : Coll → Coll) :
    (s.modColl n f).colls = mapWhere (fun c => decide (c.num = n)) f s.colls := rfl
@[simp] theorem State.modColl_pending (s : State) (n : Nat) (f : Coll → Coll) : (s.modColl n f).pending = s.pending := rfl
@[simp] theorem State.modColl_clk (s : State) (n : Nat) (f : Coll → Coll) : (s.modColl n f).clk = s.clk := rfl
@[simp] theorem State.modColl_orders (s : State) (n : Nat) (f : Coll → Coll) : (s.modColl n f).orders = s.orders := rfl
@[simp] theorem State.modColl_receipt (s : State) (n : Nat) (f : Coll → Coll) : (s.modColl n f).receipt = s.receipt := rfl
@[simp] theorem State.modColl_dict (s : State) (n : Nat) (f : Coll → Coll) : (s.modColl n f).dict = s.dict := rfl
@[simp] theorem State.modColl_portA (s : State) (n : Nat) (f : Coll → Coll) : (s.modColl n f).portA = s.portA := rfl
@[simp] theorem State.modColl_portB (s : State) (n : Nat) (f : Coll → Coll) : (s.modColl n f).portB = s.portB := rfl
@[simp] theorem State.modColl_sqs (s : State) (n : Nat) (f : Coll → Coll) : (s.modColl n f).sqs = s.sqs := rfl
@[simp] theorem State.modColl_cqs (s : State) (n : Nat) (f : Coll → Coll) : (s.modColl n f).cqs = s.cqs := rfl
@[simp] theorem State.modColl_msix (s : State) (n : Nat) (f : Coll → Coll) : (s.modColl n f).msix = s.msix := rfl
@[simp] theorem State.modColl_wins (s : State) (n : Nat) (f : Coll → Coll) : (s.modColl n f).wins = s.wins := rfl
@[simp] theorem State.modColl_boxes (s : State) (n : Nat) (f : Coll → Coll) : (s.modColl n f).boxes = s.boxes := rfl
@[simp] theorem State.modColl_cmds (s : State) (n : Nat) (f : Coll → Coll) : (s.modColl n f).cmds = s.cmds := rfl
@[simp] theorem State.modColl_nextCid (s : State) (n : Nat) (f : Coll → Coll) : (s.modColl n f).nextCid = s.nextCid := rfl
@[simp] theorem State.modColl_chg (s : State) (n : Nat) (f : Coll → Coll) : (s.modColl n f).chg = s.chg := rfl
@[simp] theorem State.modColl_cache (s : State) (n : Nat) (f : Coll → Coll) : (s.modColl n f).cache = s.cache := rfl
@[simp] theorem State.modColl_searches (s : State) (n : Nat) (f : Coll → Coll) : (s.modColl n f).searches = s.searches := rfl
@[simp] theorem State.modColl_scan (s : State) (n : Nat) (f : Coll → Coll) : (s.modColl n f).scan = s.scan := rfl
@[simp] theorem State.modColl_tags (s : State) (n : Nat) (f : Coll → Coll) : (s.modColl n f).tags = s.tags := rfl
@[simp] theorem State.modColl_scanFree (s : State) (n : Nat) (f : Coll → Coll) : (s.modColl n f).scanFree = s.scanFree := rfl
@[simp] theorem State.modColl_wb (s : State) (n : Nat) (f : Coll → Coll) : (s.modColl n f).wb = s.wb := rfl
@[simp] theorem State.modColl_carry (s : State) (n : Nat) (f : Coll → Coll) : (s.modColl n f).carry = s.carry := rfl
@[simp] theorem State.modColl_tensor (s : State) (n : Nat) (f : Coll → Coll) : (s.modColl n f).tensor = s.tensor := rfl
@[simp] theorem State.modColl_shares (s : State) (n : Nat) (f : Coll → Coll) : (s.modColl n f).shares = s.shares := rfl
@[simp] theorem State.modColl_pwr (s : State) (n : Nat) (f : Coll → Coll) : (s.modColl n f).pwr = s.pwr := rfl
@[simp] theorem State.modColl_units (s : State) (n : Nat) (f : Coll → Coll) : (s.modColl n f).units = s.units := rfl
@[simp] theorem State.modColl_bdl (s : State) (n : Nat) (f : Coll → Coll) : (s.modColl n f).bdl = s.bdl := rfl
@[simp] theorem State.modColl_boot (s : State) (n : Nat) (f : Coll → Coll) : (s.modColl n f).boot = s.boot := rfl
@[simp] theorem State.modColl_table (s : State) (n : Nat) (f : Coll → Coll) : (s.modColl n f).table = s.table := rfl
@[simp] theorem State.modColl_ps (s : State) (n : Nat) (f : Coll → Coll) : (s.modColl n f).ps = s.ps := rfl
@[simp] theorem State.modColl_mem (s : State) (n : Nat) (f : Coll → Coll) : (s.modColl n f).mem = s.mem := rfl
@[simp] theorem State.modColl_flash (s : State) (n : Nat) (f : Coll → Coll) : (s.modColl n f).flash = s.flash := rfl
@[simp] theorem State.modColl_free (s : State) (n : Nat) (f : Coll → Coll) : (s.modColl n f).free = s.free := rfl

@[simp] theorem State.modColl_sys (s : State) (n : Nat) (f : Coll → Coll) : (s.modColl n f).sys = s.sys := rfl
@[simp] theorem State.modColl_posted (s : State) (n : Nat) (f : Coll → Coll) : (s.modColl n f).posted = s.posted := rfl

/-! ### State.modSearch -/

@[simp] theorem State.modSearch_searches (s : State) (n i : Nat) (f : Search → Search) :
    (s.modSearch n i f).searches = mapWhere (fun x => x.is n i) f s.searches := rfl
@[simp] theorem State.modSearch_pending (s : State) (n i : Nat) (f : Search → Search) : (s.modSearch n i f).pending = s.pending := rfl
@[simp] theorem State.modSearch_clk (s : State) (n i : Nat) (f : Search → Search) : (s.modSearch n i f).clk = s.clk := rfl
@[simp] theorem State.modSearch_orders (s : State) (n i : Nat) (f : Search → Search) : (s.modSearch n i f).orders = s.orders := rfl
@[simp] theorem State.modSearch_receipt (s : State) (n i : Nat) (f : Search → Search) : (s.modSearch n i f).receipt = s.receipt := rfl
@[simp] theorem State.modSearch_dict (s : State) (n i : Nat) (f : Search → Search) : (s.modSearch n i f).dict = s.dict := rfl
@[simp] theorem State.modSearch_portA (s : State) (n i : Nat) (f : Search → Search) : (s.modSearch n i f).portA = s.portA := rfl
@[simp] theorem State.modSearch_portB (s : State) (n i : Nat) (f : Search → Search) : (s.modSearch n i f).portB = s.portB := rfl
@[simp] theorem State.modSearch_sqs (s : State) (n i : Nat) (f : Search → Search) : (s.modSearch n i f).sqs = s.sqs := rfl
@[simp] theorem State.modSearch_cqs (s : State) (n i : Nat) (f : Search → Search) : (s.modSearch n i f).cqs = s.cqs := rfl
@[simp] theorem State.modSearch_msix (s : State) (n i : Nat) (f : Search → Search) : (s.modSearch n i f).msix = s.msix := rfl
@[simp] theorem State.modSearch_wins (s : State) (n i : Nat) (f : Search → Search) : (s.modSearch n i f).wins = s.wins := rfl
@[simp] theorem State.modSearch_boxes (s : State) (n i : Nat) (f : Search → Search) : (s.modSearch n i f).boxes = s.boxes := rfl
@[simp] theorem State.modSearch_cmds (s : State) (n i : Nat) (f : Search → Search) : (s.modSearch n i f).cmds = s.cmds := rfl
@[simp] theorem State.modSearch_nextCid (s : State) (n i : Nat) (f : Search → Search) : (s.modSearch n i f).nextCid = s.nextCid := rfl
@[simp] theorem State.modSearch_colls (s : State) (n i : Nat) (f : Search → Search) : (s.modSearch n i f).colls = s.colls := rfl
@[simp] theorem State.modSearch_chg (s : State) (n i : Nat) (f : Search → Search) : (s.modSearch n i f).chg = s.chg := rfl
@[simp] theorem State.modSearch_cache (s : State) (n i : Nat) (f : Search → Search) : (s.modSearch n i f).cache = s.cache := rfl
@[simp] theorem State.modSearch_scan (s : State) (n i : Nat) (f : Search → Search) : (s.modSearch n i f).scan = s.scan := rfl
@[simp] theorem State.modSearch_tags (s : State) (n i : Nat) (f : Search → Search) : (s.modSearch n i f).tags = s.tags := rfl
@[simp] theorem State.modSearch_scanFree (s : State) (n i : Nat) (f : Search → Search) : (s.modSearch n i f).scanFree = s.scanFree := rfl
@[simp] theorem State.modSearch_wb (s : State) (n i : Nat) (f : Search → Search) : (s.modSearch n i f).wb = s.wb := rfl
@[simp] theorem State.modSearch_carry (s : State) (n i : Nat) (f : Search → Search) : (s.modSearch n i f).carry = s.carry := rfl
@[simp] theorem State.modSearch_tensor (s : State) (n i : Nat) (f : Search → Search) : (s.modSearch n i f).tensor = s.tensor := rfl
@[simp] theorem State.modSearch_shares (s : State) (n i : Nat) (f : Search → Search) : (s.modSearch n i f).shares = s.shares := rfl
@[simp] theorem State.modSearch_pwr (s : State) (n i : Nat) (f : Search → Search) : (s.modSearch n i f).pwr = s.pwr := rfl
@[simp] theorem State.modSearch_units (s : State) (n i : Nat) (f : Search → Search) : (s.modSearch n i f).units = s.units := rfl
@[simp] theorem State.modSearch_bdl (s : State) (n i : Nat) (f : Search → Search) : (s.modSearch n i f).bdl = s.bdl := rfl
@[simp] theorem State.modSearch_boot (s : State) (n i : Nat) (f : Search → Search) : (s.modSearch n i f).boot = s.boot := rfl
@[simp] theorem State.modSearch_table (s : State) (n i : Nat) (f : Search → Search) : (s.modSearch n i f).table = s.table := rfl
@[simp] theorem State.modSearch_ps (s : State) (n i : Nat) (f : Search → Search) : (s.modSearch n i f).ps = s.ps := rfl
@[simp] theorem State.modSearch_mem (s : State) (n i : Nat) (f : Search → Search) : (s.modSearch n i f).mem = s.mem := rfl
@[simp] theorem State.modSearch_flash (s : State) (n i : Nat) (f : Search → Search) : (s.modSearch n i f).flash = s.flash := rfl
@[simp] theorem State.modSearch_free (s : State) (n i : Nat) (f : Search → Search) : (s.modSearch n i f).free = s.free := rfl

@[simp] theorem State.modSearch_sys (s : State) (n i : Nat) (f : Search → Search) : (s.modSearch n i f).sys = s.sys := rfl
@[simp] theorem State.modSearch_posted (s : State) (n i : Nat) (f : Search → Search) : (s.modSearch n i f).posted = s.posted := rfl

/-! ### State.modModel -/

@[simp] theorem State.modModel_pending (s : State) (h : Nat) (f : Model → Model) : (s.modModel h f).pending = s.pending := rfl
@[simp] theorem State.modModel_clk (s : State) (h : Nat) (f : Model → Model) : (s.modModel h f).clk = s.clk := rfl
@[simp] theorem State.modModel_orders (s : State) (h : Nat) (f : Model → Model) : (s.modModel h f).orders = s.orders := rfl
@[simp] theorem State.modModel_receipt (s : State) (h : Nat) (f : Model → Model) : (s.modModel h f).receipt = s.receipt := rfl
@[simp] theorem State.modModel_dict (s : State) (h : Nat) (f : Model → Model) : (s.modModel h f).dict = s.dict := rfl
@[simp] theorem State.modModel_portA (s : State) (h : Nat) (f : Model → Model) : (s.modModel h f).portA = s.portA := rfl
@[simp] theorem State.modModel_portB (s : State) (h : Nat) (f : Model → Model) : (s.modModel h f).portB = s.portB := rfl
@[simp] theorem State.modModel_sqs (s : State) (h : Nat) (f : Model → Model) : (s.modModel h f).sqs = s.sqs := rfl
@[simp] theorem State.modModel_cqs (s : State) (h : Nat) (f : Model → Model) : (s.modModel h f).cqs = s.cqs := rfl
@[simp] theorem State.modModel_msix (s : State) (h : Nat) (f : Model → Model) : (s.modModel h f).msix = s.msix := rfl
@[simp] theorem State.modModel_wins (s : State) (h : Nat) (f : Model → Model) : (s.modModel h f).wins = s.wins := rfl
@[simp] theorem State.modModel_boxes (s : State) (h : Nat) (f : Model → Model) : (s.modModel h f).boxes = s.boxes := rfl
@[simp] theorem State.modModel_cmds (s : State) (h : Nat) (f : Model → Model) : (s.modModel h f).cmds = s.cmds := rfl
@[simp] theorem State.modModel_nextCid (s : State) (h : Nat) (f : Model → Model) : (s.modModel h f).nextCid = s.nextCid := rfl
@[simp] theorem State.modModel_colls (s : State) (h : Nat) (f : Model → Model) : (s.modModel h f).colls = s.colls := rfl
@[simp] theorem State.modModel_chg (s : State) (h : Nat) (f : Model → Model) : (s.modModel h f).chg = s.chg := rfl
@[simp] theorem State.modModel_cache (s : State) (h : Nat) (f : Model → Model) : (s.modModel h f).cache = s.cache := rfl
@[simp] theorem State.modModel_searches (s : State) (h : Nat) (f : Model → Model) : (s.modModel h f).searches = s.searches := rfl
@[simp] theorem State.modModel_scan (s : State) (h : Nat) (f : Model → Model) : (s.modModel h f).scan = s.scan := rfl
@[simp] theorem State.modModel_tags (s : State) (h : Nat) (f : Model → Model) : (s.modModel h f).tags = s.tags := rfl
@[simp] theorem State.modModel_scanFree (s : State) (h : Nat) (f : Model → Model) : (s.modModel h f).scanFree = s.scanFree := rfl
@[simp] theorem State.modModel_wb (s : State) (h : Nat) (f : Model → Model) : (s.modModel h f).wb = s.wb := rfl
@[simp] theorem State.modModel_carry (s : State) (h : Nat) (f : Model → Model) : (s.modModel h f).carry = s.carry := rfl
@[simp] theorem State.modModel_shares (s : State) (h : Nat) (f : Model → Model) : (s.modModel h f).shares = s.shares := rfl
@[simp] theorem State.modModel_pwr (s : State) (h : Nat) (f : Model → Model) : (s.modModel h f).pwr = s.pwr := rfl
@[simp] theorem State.modModel_units (s : State) (h : Nat) (f : Model → Model) : (s.modModel h f).units = s.units := rfl
@[simp] theorem State.modModel_bdl (s : State) (h : Nat) (f : Model → Model) : (s.modModel h f).bdl = s.bdl := rfl
@[simp] theorem State.modModel_boot (s : State) (h : Nat) (f : Model → Model) : (s.modModel h f).boot = s.boot := rfl
@[simp] theorem State.modModel_table (s : State) (h : Nat) (f : Model → Model) : (s.modModel h f).table = s.table := rfl
@[simp] theorem State.modModel_ps (s : State) (h : Nat) (f : Model → Model) : (s.modModel h f).ps = s.ps := rfl
@[simp] theorem State.modModel_mem (s : State) (h : Nat) (f : Model → Model) : (s.modModel h f).mem = s.mem := rfl
@[simp] theorem State.modModel_flash (s : State) (h : Nat) (f : Model → Model) : (s.modModel h f).flash = s.flash := rfl
@[simp] theorem State.modModel_free (s : State) (h : Nat) (f : Model → Model) : (s.modModel h f).free = s.free := rfl

@[simp] theorem State.modModel_sys (s : State) (h : Nat) (f : Model → Model) : (s.modModel h f).sys = s.sys := rfl
@[simp] theorem State.modModel_posted (s : State) (h : Nat) (f : Model → Model) : (s.modModel h f).posted = s.posted := rfl

/-! ### State.modPlacement -/

@[simp] theorem State.modPlacement_pending (s : State) (i : Nat) (f : Placement → Placement) : (s.modPlacement i f).pending = s.pending := rfl
@[simp] theorem State.modPlacement_clk (s : State) (i : Nat) (f : Placement → Placement) : (s.modPlacement i f).clk = s.clk := rfl
@[simp] theorem State.modPlacement_orders (s : State) (i : Nat) (f : Placement → Placement) : (s.modPlacement i f).orders = s.orders := rfl
@[simp] theorem State.modPlacement_receipt (s : State) (i : Nat) (f : Placement → Placement) : (s.modPlacement i f).receipt = s.receipt := rfl
@[simp] theorem State.modPlacement_dict (s : State) (i : Nat) (f : Placement → Placement) : (s.modPlacement i f).dict = s.dict := rfl
@[simp] theorem State.modPlacement_portA (s : State) (i : Nat) (f : Placement → Placement) : (s.modPlacement i f).portA = s.portA := rfl
@[simp] theorem State.modPlacement_portB (s : State) (i : Nat) (f : Placement → Placement) : (s.modPlacement i f).portB = s.portB := rfl
@[simp] theorem State.modPlacement_sqs (s : State) (i : Nat) (f : Placement → Placement) : (s.modPlacement i f).sqs = s.sqs := rfl
@[simp] theorem State.modPlacement_cqs (s : State) (i : Nat) (f : Placement → Placement) : (s.modPlacement i f).cqs = s.cqs := rfl
@[simp] theorem State.modPlacement_msix (s : State) (i : Nat) (f : Placement → Placement) : (s.modPlacement i f).msix = s.msix := rfl
@[simp] theorem State.modPlacement_wins (s : State) (i : Nat) (f : Placement → Placement) : (s.modPlacement i f).wins = s.wins := rfl
@[simp] theorem State.modPlacement_boxes (s : State) (i : Nat) (f : Placement → Placement) : (s.modPlacement i f).boxes = s.boxes := rfl
@[simp] theorem State.modPlacement_cmds (s : State) (i : Nat) (f : Placement → Placement) : (s.modPlacement i f).cmds = s.cmds := rfl
@[simp] theorem State.modPlacement_nextCid (s : State) (i : Nat) (f : Placement → Placement) : (s.modPlacement i f).nextCid = s.nextCid := rfl
@[simp] theorem State.modPlacement_colls (s : State) (i : Nat) (f : Placement → Placement) : (s.modPlacement i f).colls = s.colls := rfl
@[simp] theorem State.modPlacement_chg (s : State) (i : Nat) (f : Placement → Placement) : (s.modPlacement i f).chg = s.chg := rfl
@[simp] theorem State.modPlacement_cache (s : State) (i : Nat) (f : Placement → Placement) : (s.modPlacement i f).cache = s.cache := rfl
@[simp] theorem State.modPlacement_searches (s : State) (i : Nat) (f : Placement → Placement) : (s.modPlacement i f).searches = s.searches := rfl
@[simp] theorem State.modPlacement_scan (s : State) (i : Nat) (f : Placement → Placement) : (s.modPlacement i f).scan = s.scan := rfl
@[simp] theorem State.modPlacement_tags (s : State) (i : Nat) (f : Placement → Placement) : (s.modPlacement i f).tags = s.tags := rfl
@[simp] theorem State.modPlacement_scanFree (s : State) (i : Nat) (f : Placement → Placement) : (s.modPlacement i f).scanFree = s.scanFree := rfl
@[simp] theorem State.modPlacement_wb (s : State) (i : Nat) (f : Placement → Placement) : (s.modPlacement i f).wb = s.wb := rfl
@[simp] theorem State.modPlacement_carry (s : State) (i : Nat) (f : Placement → Placement) : (s.modPlacement i f).carry = s.carry := rfl
@[simp] theorem State.modPlacement_shares (s : State) (i : Nat) (f : Placement → Placement) : (s.modPlacement i f).shares = s.shares := rfl
@[simp] theorem State.modPlacement_pwr (s : State) (i : Nat) (f : Placement → Placement) : (s.modPlacement i f).pwr = s.pwr := rfl
@[simp] theorem State.modPlacement_units (s : State) (i : Nat) (f : Placement → Placement) : (s.modPlacement i f).units = s.units := rfl
@[simp] theorem State.modPlacement_bdl (s : State) (i : Nat) (f : Placement → Placement) : (s.modPlacement i f).bdl = s.bdl := rfl
@[simp] theorem State.modPlacement_boot (s : State) (i : Nat) (f : Placement → Placement) : (s.modPlacement i f).boot = s.boot := rfl
@[simp] theorem State.modPlacement_table (s : State) (i : Nat) (f : Placement → Placement) : (s.modPlacement i f).table = s.table := rfl
@[simp] theorem State.modPlacement_ps (s : State) (i : Nat) (f : Placement → Placement) : (s.modPlacement i f).ps = s.ps := rfl
@[simp] theorem State.modPlacement_mem (s : State) (i : Nat) (f : Placement → Placement) : (s.modPlacement i f).mem = s.mem := rfl
@[simp] theorem State.modPlacement_flash (s : State) (i : Nat) (f : Placement → Placement) : (s.modPlacement i f).flash = s.flash := rfl
@[simp] theorem State.modPlacement_free (s : State) (i : Nat) (f : Placement → Placement) : (s.modPlacement i f).free = s.free := rfl

@[simp] theorem State.modPlacement_sys (s : State) (i : Nat) (f : Placement → Placement) : (s.modPlacement i f).sys = s.sys := rfl
@[simp] theorem State.modPlacement_posted (s : State) (i : Nat) (f : Placement → Placement) : (s.modPlacement i f).posted = s.posted := rfl

/-! ### State.setCtx -/

@[simp] theorem State.setCtx_pending (s : State) (c : FrameCtx) : (s.setCtx c).pending = s.pending := rfl
@[simp] theorem State.setCtx_clk (s : State) (c : FrameCtx) : (s.setCtx c).clk = s.clk := rfl
@[simp] theorem State.setCtx_orders (s : State) (c : FrameCtx) : (s.setCtx c).orders = s.orders := rfl
@[simp] theorem State.setCtx_receipt (s : State) (c : FrameCtx) : (s.setCtx c).receipt = s.receipt := rfl
@[simp] theorem State.setCtx_dict (s : State) (c : FrameCtx) : (s.setCtx c).dict = s.dict := rfl
@[simp] theorem State.setCtx_portA (s : State) (c : FrameCtx) : (s.setCtx c).portA = s.portA := rfl
@[simp] theorem State.setCtx_portB (s : State) (c : FrameCtx) : (s.setCtx c).portB = s.portB := rfl
@[simp] theorem State.setCtx_sqs (s : State) (c : FrameCtx) : (s.setCtx c).sqs = s.sqs := rfl
@[simp] theorem State.setCtx_cqs (s : State) (c : FrameCtx) : (s.setCtx c).cqs = s.cqs := rfl
@[simp] theorem State.setCtx_msix (s : State) (c : FrameCtx) : (s.setCtx c).msix = s.msix := rfl
@[simp] theorem State.setCtx_wins (s : State) (c : FrameCtx) : (s.setCtx c).wins = s.wins := rfl
@[simp] theorem State.setCtx_boxes (s : State) (c : FrameCtx) : (s.setCtx c).boxes = s.boxes := rfl
@[simp] theorem State.setCtx_cmds (s : State) (c : FrameCtx) : (s.setCtx c).cmds = s.cmds := rfl
@[simp] theorem State.setCtx_nextCid (s : State) (c : FrameCtx) : (s.setCtx c).nextCid = s.nextCid := rfl
@[simp] theorem State.setCtx_colls (s : State) (c : FrameCtx) : (s.setCtx c).colls = s.colls := rfl
@[simp] theorem State.setCtx_chg (s : State) (c : FrameCtx) : (s.setCtx c).chg = s.chg := rfl
@[simp] theorem State.setCtx_cache (s : State) (c : FrameCtx) : (s.setCtx c).cache = s.cache := rfl
@[simp] theorem State.setCtx_searches (s : State) (c : FrameCtx) : (s.setCtx c).searches = s.searches := rfl
@[simp] theorem State.setCtx_scan (s : State) (c : FrameCtx) : (s.setCtx c).scan = s.scan := rfl
@[simp] theorem State.setCtx_tags (s : State) (c : FrameCtx) : (s.setCtx c).tags = s.tags := rfl
@[simp] theorem State.setCtx_scanFree (s : State) (c : FrameCtx) : (s.setCtx c).scanFree = s.scanFree := rfl
@[simp] theorem State.setCtx_wb (s : State) (c : FrameCtx) : (s.setCtx c).wb = s.wb := rfl
@[simp] theorem State.setCtx_carry (s : State) (c : FrameCtx) : (s.setCtx c).carry = s.carry := rfl
@[simp] theorem State.setCtx_shares (s : State) (c : FrameCtx) : (s.setCtx c).shares = s.shares := rfl
@[simp] theorem State.setCtx_pwr (s : State) (c : FrameCtx) : (s.setCtx c).pwr = s.pwr := rfl
@[simp] theorem State.setCtx_units (s : State) (c : FrameCtx) : (s.setCtx c).units = s.units := rfl
@[simp] theorem State.setCtx_bdl (s : State) (c : FrameCtx) : (s.setCtx c).bdl = s.bdl := rfl
@[simp] theorem State.setCtx_boot (s : State) (c : FrameCtx) : (s.setCtx c).boot = s.boot := rfl
@[simp] theorem State.setCtx_table (s : State) (c : FrameCtx) : (s.setCtx c).table = s.table := rfl
@[simp] theorem State.setCtx_ps (s : State) (c : FrameCtx) : (s.setCtx c).ps = s.ps := rfl
@[simp] theorem State.setCtx_mem (s : State) (c : FrameCtx) : (s.setCtx c).mem = s.mem := rfl
@[simp] theorem State.setCtx_flash (s : State) (c : FrameCtx) : (s.setCtx c).flash = s.flash := rfl
@[simp] theorem State.setCtx_free (s : State) (c : FrameCtx) : (s.setCtx c).free = s.free := rfl

@[simp] theorem State.setCtx_sys (s : State) (c : FrameCtx) : (s.setCtx c).sys = s.sys := rfl
@[simp] theorem State.setCtx_posted (s : State) (c : FrameCtx) : (s.setCtx c).posted = s.posted := rfl

/-! ### State.setObj -/

@[simp] theorem State.setObj_dict (s : State) (index sub arg v : Nat) :
    (s.setObj index sub arg v).dict = Sparse.put dictDefault s.dict (objKey index sub arg) v := rfl
@[simp] theorem State.setObj_pending (s : State) (index sub arg v : Nat) : (s.setObj index sub arg v).pending = s.pending := rfl
@[simp] theorem State.setObj_clk (s : State) (index sub arg v : Nat) : (s.setObj index sub arg v).clk = s.clk := rfl
@[simp] theorem State.setObj_orders (s : State) (index sub arg v : Nat) : (s.setObj index sub arg v).orders = s.orders := rfl
@[simp] theorem State.setObj_receipt (s : State) (index sub arg v : Nat) : (s.setObj index sub arg v).receipt = s.receipt := rfl
@[simp] theorem State.setObj_portA (s : State) (index sub arg v : Nat) : (s.setObj index sub arg v).portA = s.portA := rfl
@[simp] theorem State.setObj_portB (s : State) (index sub arg v : Nat) : (s.setObj index sub arg v).portB = s.portB := rfl
@[simp] theorem State.setObj_sqs (s : State) (index sub arg v : Nat) : (s.setObj index sub arg v).sqs = s.sqs := rfl
@[simp] theorem State.setObj_cqs (s : State) (index sub arg v : Nat) : (s.setObj index sub arg v).cqs = s.cqs := rfl
@[simp] theorem State.setObj_msix (s : State) (index sub arg v : Nat) : (s.setObj index sub arg v).msix = s.msix := rfl
@[simp] theorem State.setObj_wins (s : State) (index sub arg v : Nat) : (s.setObj index sub arg v).wins = s.wins := rfl
@[simp] theorem State.setObj_boxes (s : State) (index sub arg v : Nat) : (s.setObj index sub arg v).boxes = s.boxes := rfl
@[simp] theorem State.setObj_cmds (s : State) (index sub arg v : Nat) : (s.setObj index sub arg v).cmds = s.cmds := rfl
@[simp] theorem State.setObj_nextCid (s : State) (index sub arg v : Nat) : (s.setObj index sub arg v).nextCid = s.nextCid := rfl
@[simp] theorem State.setObj_colls (s : State) (index sub arg v : Nat) : (s.setObj index sub arg v).colls = s.colls := rfl
@[simp] theorem State.setObj_chg (s : State) (index sub arg v : Nat) : (s.setObj index sub arg v).chg = s.chg := rfl
@[simp] theorem State.setObj_cache (s : State) (index sub arg v : Nat) : (s.setObj index sub arg v).cache = s.cache := rfl
@[simp] theorem State.setObj_searches (s : State) (index sub arg v : Nat) : (s.setObj index sub arg v).searches = s.searches := rfl
@[simp] theorem State.setObj_scan (s : State) (index sub arg v : Nat) : (s.setObj index sub arg v).scan = s.scan := rfl
@[simp] theorem State.setObj_tags (s : State) (index sub arg v : Nat) : (s.setObj index sub arg v).tags = s.tags := rfl
@[simp] theorem State.setObj_scanFree (s : State) (index sub arg v : Nat) : (s.setObj index sub arg v).scanFree = s.scanFree := rfl
@[simp] theorem State.setObj_wb (s : State) (index sub arg v : Nat) : (s.setObj index sub arg v).wb = s.wb := rfl
@[simp] theorem State.setObj_carry (s : State) (index sub arg v : Nat) : (s.setObj index sub arg v).carry = s.carry := rfl
@[simp] theorem State.setObj_tensor (s : State) (index sub arg v : Nat) : (s.setObj index sub arg v).tensor = s.tensor := rfl
@[simp] theorem State.setObj_shares (s : State) (index sub arg v : Nat) : (s.setObj index sub arg v).shares = s.shares := rfl
@[simp] theorem State.setObj_pwr (s : State) (index sub arg v : Nat) : (s.setObj index sub arg v).pwr = s.pwr := rfl
@[simp] theorem State.setObj_units (s : State) (index sub arg v : Nat) : (s.setObj index sub arg v).units = s.units := rfl
@[simp] theorem State.setObj_bdl (s : State) (index sub arg v : Nat) : (s.setObj index sub arg v).bdl = s.bdl := rfl
@[simp] theorem State.setObj_boot (s : State) (index sub arg v : Nat) : (s.setObj index sub arg v).boot = s.boot := rfl
@[simp] theorem State.setObj_table (s : State) (index sub arg v : Nat) : (s.setObj index sub arg v).table = s.table := rfl
@[simp] theorem State.setObj_ps (s : State) (index sub arg v : Nat) : (s.setObj index sub arg v).ps = s.ps := rfl
@[simp] theorem State.setObj_mem (s : State) (index sub arg v : Nat) : (s.setObj index sub arg v).mem = s.mem := rfl
@[simp] theorem State.setObj_flash (s : State) (index sub arg v : Nat) : (s.setObj index sub arg v).flash = s.flash := rfl
@[simp] theorem State.setObj_free (s : State) (index sub arg v : Nat) : (s.setObj index sub arg v).free = s.free := rfl

@[simp] theorem State.setObj_sys (s : State) (index sub arg v : Nat) : (s.setObj index sub arg v).sys = s.sys := rfl
@[simp] theorem State.setObj_posted (s : State) (index sub arg v : Nat) : (s.setObj index sub arg v).posted = s.posted := rfl

/-! ### State.count -/

@[simp] theorem State.count_pending (s : State) (index sub n arg : Nat) : (s.count index sub n arg).pending = s.pending := rfl
@[simp] theorem State.count_clk (s : State) (index sub n arg : Nat) : (s.count index sub n arg).clk = s.clk := rfl
@[simp] theorem State.count_orders (s : State) (index sub n arg : Nat) : (s.count index sub n arg).orders = s.orders := rfl
@[simp] theorem State.count_receipt (s : State) (index sub n arg : Nat) : (s.count index sub n arg).receipt = s.receipt := rfl
@[simp] theorem State.count_portA (s : State) (index sub n arg : Nat) : (s.count index sub n arg).portA = s.portA := rfl
@[simp] theorem State.count_portB (s : State) (index sub n arg : Nat) : (s.count index sub n arg).portB = s.portB := rfl
@[simp] theorem State.count_sqs (s : State) (index sub n arg : Nat) : (s.count index sub n arg).sqs = s.sqs := rfl
@[simp] theorem State.count_cqs (s : State) (index sub n arg : Nat) : (s.count index sub n arg).cqs = s.cqs := rfl
@[simp] theorem State.count_msix (s : State) (index sub n arg : Nat) : (s.count index sub n arg).msix = s.msix := rfl
@[simp] theorem State.count_wins (s : State) (index sub n arg : Nat) : (s.count index sub n arg).wins = s.wins := rfl
@[simp] theorem State.count_boxes (s : State) (index sub n arg : Nat) : (s.count index sub n arg).boxes = s.boxes := rfl
@[simp] theorem State.count_cmds (s : State) (index sub n arg : Nat) : (s.count index sub n arg).cmds = s.cmds := rfl
@[simp] theorem State.count_nextCid (s : State) (index sub n arg : Nat) : (s.count index sub n arg).nextCid = s.nextCid := rfl
@[simp] theorem State.count_colls (s : State) (index sub n arg : Nat) : (s.count index sub n arg).colls = s.colls := rfl
@[simp] theorem State.count_chg (s : State) (index sub n arg : Nat) : (s.count index sub n arg).chg = s.chg := rfl
@[simp] theorem State.count_cache (s : State) (index sub n arg : Nat) : (s.count index sub n arg).cache = s.cache := rfl
@[simp] theorem State.count_searches (s : State) (index sub n arg : Nat) : (s.count index sub n arg).searches = s.searches := rfl
@[simp] theorem State.count_scan (s : State) (index sub n arg : Nat) : (s.count index sub n arg).scan = s.scan := rfl
@[simp] theorem State.count_tags (s : State) (index sub n arg : Nat) : (s.count index sub n arg).tags = s.tags := rfl
@[simp] theorem State.count_scanFree (s : State) (index sub n arg : Nat) : (s.count index sub n arg).scanFree = s.scanFree := rfl
@[simp] theorem State.count_wb (s : State) (index sub n arg : Nat) : (s.count index sub n arg).wb = s.wb := rfl
@[simp] theorem State.count_carry (s : State) (index sub n arg : Nat) : (s.count index sub n arg).carry = s.carry := rfl
@[simp] theorem State.count_tensor (s : State) (index sub n arg : Nat) : (s.count index sub n arg).tensor = s.tensor := rfl
@[simp] theorem State.count_shares (s : State) (index sub n arg : Nat) : (s.count index sub n arg).shares = s.shares := rfl
@[simp] theorem State.count_pwr (s : State) (index sub n arg : Nat) : (s.count index sub n arg).pwr = s.pwr := rfl
@[simp] theorem State.count_units (s : State) (index sub n arg : Nat) : (s.count index sub n arg).units = s.units := rfl
@[simp] theorem State.count_bdl (s : State) (index sub n arg : Nat) : (s.count index sub n arg).bdl = s.bdl := rfl
@[simp] theorem State.count_boot (s : State) (index sub n arg : Nat) : (s.count index sub n arg).boot = s.boot := rfl
@[simp] theorem State.count_table (s : State) (index sub n arg : Nat) : (s.count index sub n arg).table = s.table := rfl
@[simp] theorem State.count_ps (s : State) (index sub n arg : Nat) : (s.count index sub n arg).ps = s.ps := rfl
@[simp] theorem State.count_mem (s : State) (index sub n arg : Nat) : (s.count index sub n arg).mem = s.mem := rfl
@[simp] theorem State.count_flash (s : State) (index sub n arg : Nat) : (s.count index sub n arg).flash = s.flash := rfl
@[simp] theorem State.count_free (s : State) (index sub n arg : Nat) : (s.count index sub n arg).free = s.free := rfl

@[simp] theorem State.count_sys (s : State) (index sub n arg : Nat) : (s.count index sub n arg).sys = s.sys := rfl
@[simp] theorem State.count_posted (s : State) (index sub n arg : Nat) : (s.count index sub n arg).posted = s.posted := rfl

/-! ### State.poke -/

@[simp] theorem State.poke_mem (s : State) (a : Nat) (bs : Bytes) :
    (s.poke a bs).mem = pokeBytes s.mem a bs := rfl
@[simp] theorem State.poke_pending (s : State) (a : Nat) (bs : Bytes) : (s.poke a bs).pending = s.pending := rfl
@[simp] theorem State.poke_clk (s : State) (a : Nat) (bs : Bytes) : (s.poke a bs).clk = s.clk := rfl
@[simp] theorem State.poke_orders (s : State) (a : Nat) (bs : Bytes) : (s.poke a bs).orders = s.orders := rfl
@[simp] theorem State.poke_receipt (s : State) (a : Nat) (bs : Bytes) : (s.poke a bs).receipt = s.receipt := rfl
@[simp] theorem State.poke_dict (s : State) (a : Nat) (bs : Bytes) : (s.poke a bs).dict = s.dict := rfl
@[simp] theorem State.poke_portA (s : State) (a : Nat) (bs : Bytes) : (s.poke a bs).portA = s.portA := rfl
@[simp] theorem State.poke_portB (s : State) (a : Nat) (bs : Bytes) : (s.poke a bs).portB = s.portB := rfl
@[simp] theorem State.poke_sqs (s : State) (a : Nat) (bs : Bytes) : (s.poke a bs).sqs = s.sqs := rfl
@[simp] theorem State.poke_cqs (s : State) (a : Nat) (bs : Bytes) : (s.poke a bs).cqs = s.cqs := rfl
@[simp] theorem State.poke_msix (s : State) (a : Nat) (bs : Bytes) : (s.poke a bs).msix = s.msix := rfl
@[simp] theorem State.poke_wins (s : State) (a : Nat) (bs : Bytes) : (s.poke a bs).wins = s.wins := rfl
@[simp] theorem State.poke_boxes (s : State) (a : Nat) (bs : Bytes) : (s.poke a bs).boxes = s.boxes := rfl
@[simp] theorem State.poke_cmds (s : State) (a : Nat) (bs : Bytes) : (s.poke a bs).cmds = s.cmds := rfl
@[simp] theorem State.poke_nextCid (s : State) (a : Nat) (bs : Bytes) : (s.poke a bs).nextCid = s.nextCid := rfl
@[simp] theorem State.poke_colls (s : State) (a : Nat) (bs : Bytes) : (s.poke a bs).colls = s.colls := rfl
@[simp] theorem State.poke_chg (s : State) (a : Nat) (bs : Bytes) : (s.poke a bs).chg = s.chg := rfl
@[simp] theorem State.poke_cache (s : State) (a : Nat) (bs : Bytes) : (s.poke a bs).cache = s.cache := rfl
@[simp] theorem State.poke_searches (s : State) (a : Nat) (bs : Bytes) : (s.poke a bs).searches = s.searches := rfl
@[simp] theorem State.poke_scan (s : State) (a : Nat) (bs : Bytes) : (s.poke a bs).scan = s.scan := rfl
@[simp] theorem State.poke_tags (s : State) (a : Nat) (bs : Bytes) : (s.poke a bs).tags = s.tags := rfl
@[simp] theorem State.poke_scanFree (s : State) (a : Nat) (bs : Bytes) : (s.poke a bs).scanFree = s.scanFree := rfl
@[simp] theorem State.poke_wb (s : State) (a : Nat) (bs : Bytes) : (s.poke a bs).wb = s.wb := rfl
@[simp] theorem State.poke_carry (s : State) (a : Nat) (bs : Bytes) : (s.poke a bs).carry = s.carry := rfl
@[simp] theorem State.poke_tensor (s : State) (a : Nat) (bs : Bytes) : (s.poke a bs).tensor = s.tensor := rfl
@[simp] theorem State.poke_shares (s : State) (a : Nat) (bs : Bytes) : (s.poke a bs).shares = s.shares := rfl
@[simp] theorem State.poke_pwr (s : State) (a : Nat) (bs : Bytes) : (s.poke a bs).pwr = s.pwr := rfl
@[simp] theorem State.poke_units (s : State) (a : Nat) (bs : Bytes) : (s.poke a bs).units = s.units := rfl
@[simp] theorem State.poke_bdl (s : State) (a : Nat) (bs : Bytes) : (s.poke a bs).bdl = s.bdl := rfl
@[simp] theorem State.poke_boot (s : State) (a : Nat) (bs : Bytes) : (s.poke a bs).boot = s.boot := rfl
@[simp] theorem State.poke_table (s : State) (a : Nat) (bs : Bytes) : (s.poke a bs).table = s.table := rfl
@[simp] theorem State.poke_ps (s : State) (a : Nat) (bs : Bytes) : (s.poke a bs).ps = s.ps := rfl
@[simp] theorem State.poke_flash (s : State) (a : Nat) (bs : Bytes) : (s.poke a bs).flash = s.flash := rfl
@[simp] theorem State.poke_free (s : State) (a : Nat) (bs : Bytes) : (s.poke a bs).free = s.free := rfl

@[simp] theorem State.poke_sys (s : State) (a : Nat) (bs : Bytes) : (s.poke a bs).sys = s.sys := rfl
@[simp] theorem State.poke_posted (s : State) (a : Nat) (bs : Bytes) : (s.poke a bs).posted = s.posted := rfl

/-! ### State.hostWrite -/

@[simp] theorem State.hostWrite_mem (s : State) (p : Port) (fn : Nat) (o : Bool) (h : Nat) (bs : Bytes) :
    (s.hostWrite p fn o h bs).mem = pokeBytes s.mem (hostBase p + h) bs := rfl
@[simp] theorem State.hostWrite_pending (s : State) (p : Port) (fn : Nat) (o : Bool) (h : Nat) (bs : Bytes) : (s.hostWrite p fn o h bs).pending = s.pending := rfl
@[simp] theorem State.hostWrite_clk (s : State) (p : Port) (fn : Nat) (o : Bool) (h : Nat) (bs : Bytes) : (s.hostWrite p fn o h bs).clk = s.clk := rfl
@[simp] theorem State.hostWrite_orders (s : State) (p : Port) (fn : Nat) (o : Bool) (h : Nat) (bs : Bytes) : (s.hostWrite p fn o h bs).orders = s.orders := rfl
@[simp] theorem State.hostWrite_receipt (s : State) (p : Port) (fn : Nat) (o : Bool) (h : Nat) (bs : Bytes) : (s.hostWrite p fn o h bs).receipt = s.receipt := rfl
@[simp] theorem State.hostWrite_dict (s : State) (p : Port) (fn : Nat) (o : Bool) (h : Nat) (bs : Bytes) : (s.hostWrite p fn o h bs).dict = s.dict := rfl
@[simp] theorem State.hostWrite_portA (s : State) (p : Port) (fn : Nat) (o : Bool) (h : Nat) (bs : Bytes) : (s.hostWrite p fn o h bs).portA = s.portA := rfl
@[simp] theorem State.hostWrite_portB (s : State) (p : Port) (fn : Nat) (o : Bool) (h : Nat) (bs : Bytes) : (s.hostWrite p fn o h bs).portB = s.portB := rfl
@[simp] theorem State.hostWrite_sqs (s : State) (p : Port) (fn : Nat) (o : Bool) (h : Nat) (bs : Bytes) : (s.hostWrite p fn o h bs).sqs = s.sqs := rfl
@[simp] theorem State.hostWrite_cqs (s : State) (p : Port) (fn : Nat) (o : Bool) (h : Nat) (bs : Bytes) : (s.hostWrite p fn o h bs).cqs = s.cqs := rfl
@[simp] theorem State.hostWrite_msix (s : State) (p : Port) (fn : Nat) (o : Bool) (h : Nat) (bs : Bytes) : (s.hostWrite p fn o h bs).msix = s.msix := rfl
@[simp] theorem State.hostWrite_wins (s : State) (p : Port) (fn : Nat) (o : Bool) (h : Nat) (bs : Bytes) : (s.hostWrite p fn o h bs).wins = s.wins := rfl
@[simp] theorem State.hostWrite_boxes (s : State) (p : Port) (fn : Nat) (o : Bool) (h : Nat) (bs : Bytes) : (s.hostWrite p fn o h bs).boxes = s.boxes := rfl
@[simp] theorem State.hostWrite_cmds (s : State) (p : Port) (fn : Nat) (o : Bool) (h : Nat) (bs : Bytes) : (s.hostWrite p fn o h bs).cmds = s.cmds := rfl
@[simp] theorem State.hostWrite_nextCid (s : State) (p : Port) (fn : Nat) (o : Bool) (h : Nat) (bs : Bytes) : (s.hostWrite p fn o h bs).nextCid = s.nextCid := rfl
@[simp] theorem State.hostWrite_colls (s : State) (p : Port) (fn : Nat) (o : Bool) (h : Nat) (bs : Bytes) : (s.hostWrite p fn o h bs).colls = s.colls := rfl
@[simp] theorem State.hostWrite_chg (s : State) (p : Port) (fn : Nat) (o : Bool) (h : Nat) (bs : Bytes) : (s.hostWrite p fn o h bs).chg = s.chg := rfl
@[simp] theorem State.hostWrite_cache (s : State) (p : Port) (fn : Nat) (o : Bool) (h : Nat) (bs : Bytes) : (s.hostWrite p fn o h bs).cache = s.cache := rfl
@[simp] theorem State.hostWrite_searches (s : State) (p : Port) (fn : Nat) (o : Bool) (h : Nat) (bs : Bytes) : (s.hostWrite p fn o h bs).searches = s.searches := rfl
@[simp] theorem State.hostWrite_scan (s : State) (p : Port) (fn : Nat) (o : Bool) (h : Nat) (bs : Bytes) : (s.hostWrite p fn o h bs).scan = s.scan := rfl
@[simp] theorem State.hostWrite_tags (s : State) (p : Port) (fn : Nat) (o : Bool) (h : Nat) (bs : Bytes) : (s.hostWrite p fn o h bs).tags = s.tags := rfl
@[simp] theorem State.hostWrite_scanFree (s : State) (p : Port) (fn : Nat) (o : Bool) (h : Nat) (bs : Bytes) : (s.hostWrite p fn o h bs).scanFree = s.scanFree := rfl
@[simp] theorem State.hostWrite_wb (s : State) (p : Port) (fn : Nat) (o : Bool) (h : Nat) (bs : Bytes) : (s.hostWrite p fn o h bs).wb = s.wb := rfl
@[simp] theorem State.hostWrite_carry (s : State) (p : Port) (fn : Nat) (o : Bool) (h : Nat) (bs : Bytes) : (s.hostWrite p fn o h bs).carry = s.carry := rfl
@[simp] theorem State.hostWrite_tensor (s : State) (p : Port) (fn : Nat) (o : Bool) (h : Nat) (bs : Bytes) : (s.hostWrite p fn o h bs).tensor = s.tensor := rfl
@[simp] theorem State.hostWrite_shares (s : State) (p : Port) (fn : Nat) (o : Bool) (h : Nat) (bs : Bytes) : (s.hostWrite p fn o h bs).shares = s.shares := rfl
@[simp] theorem State.hostWrite_pwr (s : State) (p : Port) (fn : Nat) (o : Bool) (h : Nat) (bs : Bytes) : (s.hostWrite p fn o h bs).pwr = s.pwr := rfl
@[simp] theorem State.hostWrite_units (s : State) (p : Port) (fn : Nat) (o : Bool) (h : Nat) (bs : Bytes) : (s.hostWrite p fn o h bs).units = s.units := rfl
@[simp] theorem State.hostWrite_bdl (s : State) (p : Port) (fn : Nat) (o : Bool) (h : Nat) (bs : Bytes) : (s.hostWrite p fn o h bs).bdl = s.bdl := rfl
@[simp] theorem State.hostWrite_boot (s : State) (p : Port) (fn : Nat) (o : Bool) (h : Nat) (bs : Bytes) : (s.hostWrite p fn o h bs).boot = s.boot := rfl
@[simp] theorem State.hostWrite_table (s : State) (p : Port) (fn : Nat) (o : Bool) (h : Nat) (bs : Bytes) : (s.hostWrite p fn o h bs).table = s.table := rfl
@[simp] theorem State.hostWrite_ps (s : State) (p : Port) (fn : Nat) (o : Bool) (h : Nat) (bs : Bytes) : (s.hostWrite p fn o h bs).ps = s.ps := rfl
@[simp] theorem State.hostWrite_flash (s : State) (p : Port) (fn : Nat) (o : Bool) (h : Nat) (bs : Bytes) : (s.hostWrite p fn o h bs).flash = s.flash := rfl
@[simp] theorem State.hostWrite_free (s : State) (p : Port) (fn : Nat) (o : Bool) (h : Nat) (bs : Bytes) : (s.hostWrite p fn o h bs).free = s.free := rfl

@[simp] theorem State.hostWrite_sys (s : State) (p : Port) (fn : Nat) (o : Bool) (h : Nat) (bs : Bytes) : (s.hostWrite p fn o h bs).sys = s.sys := rfl
@[simp] theorem State.hostWrite_posted (s : State) (p : Port) (fn : Nat) (o : Bool) (h : Nat) (bs : Bytes) : (s.hostWrite p fn o h bs).posted =
    s.posted ++ [⟨p, fn, h, bs.length, o && (s.port p).relaxed.getLsbD fn⟩] := rfl

/-! ### State.askGrant -/

@[simp] theorem State.askGrant_pending (s : State) (k : GrantKind) (m : Bool) (u : Nat) (cid : Option Nat) : (s.askGrant k m u cid).pending = s.pending := rfl
@[simp] theorem State.askGrant_clk (s : State) (k : GrantKind) (m : Bool) (u : Nat) (cid : Option Nat) : (s.askGrant k m u cid).clk = s.clk := rfl
@[simp] theorem State.askGrant_orders (s : State) (k : GrantKind) (m : Bool) (u : Nat) (cid : Option Nat) : (s.askGrant k m u cid).orders = s.orders := rfl
@[simp] theorem State.askGrant_receipt (s : State) (k : GrantKind) (m : Bool) (u : Nat) (cid : Option Nat) : (s.askGrant k m u cid).receipt = s.receipt := rfl
@[simp] theorem State.askGrant_dict (s : State) (k : GrantKind) (m : Bool) (u : Nat) (cid : Option Nat) : (s.askGrant k m u cid).dict = s.dict := rfl
@[simp] theorem State.askGrant_portA (s : State) (k : GrantKind) (m : Bool) (u : Nat) (cid : Option Nat) : (s.askGrant k m u cid).portA = s.portA := rfl
@[simp] theorem State.askGrant_portB (s : State) (k : GrantKind) (m : Bool) (u : Nat) (cid : Option Nat) : (s.askGrant k m u cid).portB = s.portB := rfl
@[simp] theorem State.askGrant_sqs (s : State) (k : GrantKind) (m : Bool) (u : Nat) (cid : Option Nat) : (s.askGrant k m u cid).sqs = s.sqs := rfl
@[simp] theorem State.askGrant_cqs (s : State) (k : GrantKind) (m : Bool) (u : Nat) (cid : Option Nat) : (s.askGrant k m u cid).cqs = s.cqs := rfl
@[simp] theorem State.askGrant_msix (s : State) (k : GrantKind) (m : Bool) (u : Nat) (cid : Option Nat) : (s.askGrant k m u cid).msix = s.msix := rfl
@[simp] theorem State.askGrant_wins (s : State) (k : GrantKind) (m : Bool) (u : Nat) (cid : Option Nat) : (s.askGrant k m u cid).wins = s.wins := rfl
@[simp] theorem State.askGrant_boxes (s : State) (k : GrantKind) (m : Bool) (u : Nat) (cid : Option Nat) : (s.askGrant k m u cid).boxes = s.boxes := rfl
@[simp] theorem State.askGrant_cmds (s : State) (k : GrantKind) (m : Bool) (u : Nat) (cid : Option Nat) : (s.askGrant k m u cid).cmds = s.cmds := rfl
@[simp] theorem State.askGrant_nextCid (s : State) (k : GrantKind) (m : Bool) (u : Nat) (cid : Option Nat) : (s.askGrant k m u cid).nextCid = s.nextCid := rfl
@[simp] theorem State.askGrant_colls (s : State) (k : GrantKind) (m : Bool) (u : Nat) (cid : Option Nat) : (s.askGrant k m u cid).colls = s.colls := rfl
@[simp] theorem State.askGrant_chg (s : State) (k : GrantKind) (m : Bool) (u : Nat) (cid : Option Nat) : (s.askGrant k m u cid).chg = s.chg := rfl
@[simp] theorem State.askGrant_cache (s : State) (k : GrantKind) (m : Bool) (u : Nat) (cid : Option Nat) : (s.askGrant k m u cid).cache = s.cache := rfl
@[simp] theorem State.askGrant_searches (s : State) (k : GrantKind) (m : Bool) (u : Nat) (cid : Option Nat) : (s.askGrant k m u cid).searches = s.searches := rfl
@[simp] theorem State.askGrant_scan (s : State) (k : GrantKind) (m : Bool) (u : Nat) (cid : Option Nat) : (s.askGrant k m u cid).scan = s.scan := rfl
@[simp] theorem State.askGrant_tags (s : State) (k : GrantKind) (m : Bool) (u : Nat) (cid : Option Nat) : (s.askGrant k m u cid).tags = s.tags := rfl
@[simp] theorem State.askGrant_scanFree (s : State) (k : GrantKind) (m : Bool) (u : Nat) (cid : Option Nat) : (s.askGrant k m u cid).scanFree = s.scanFree := rfl
@[simp] theorem State.askGrant_wb (s : State) (k : GrantKind) (m : Bool) (u : Nat) (cid : Option Nat) : (s.askGrant k m u cid).wb = s.wb := rfl
@[simp] theorem State.askGrant_carry (s : State) (k : GrantKind) (m : Bool) (u : Nat) (cid : Option Nat) : (s.askGrant k m u cid).carry = s.carry := rfl
@[simp] theorem State.askGrant_tensor (s : State) (k : GrantKind) (m : Bool) (u : Nat) (cid : Option Nat) : (s.askGrant k m u cid).tensor = s.tensor := rfl
@[simp] theorem State.askGrant_shares (s : State) (k : GrantKind) (m : Bool) (u : Nat) (cid : Option Nat) : (s.askGrant k m u cid).shares = s.shares := rfl
@[simp] theorem State.askGrant_units (s : State) (k : GrantKind) (m : Bool) (u : Nat) (cid : Option Nat) : (s.askGrant k m u cid).units = s.units := rfl
@[simp] theorem State.askGrant_bdl (s : State) (k : GrantKind) (m : Bool) (u : Nat) (cid : Option Nat) : (s.askGrant k m u cid).bdl = s.bdl := rfl
@[simp] theorem State.askGrant_boot (s : State) (k : GrantKind) (m : Bool) (u : Nat) (cid : Option Nat) : (s.askGrant k m u cid).boot = s.boot := rfl
@[simp] theorem State.askGrant_table (s : State) (k : GrantKind) (m : Bool) (u : Nat) (cid : Option Nat) : (s.askGrant k m u cid).table = s.table := rfl
@[simp] theorem State.askGrant_ps (s : State) (k : GrantKind) (m : Bool) (u : Nat) (cid : Option Nat) : (s.askGrant k m u cid).ps = s.ps := rfl
@[simp] theorem State.askGrant_mem (s : State) (k : GrantKind) (m : Bool) (u : Nat) (cid : Option Nat) : (s.askGrant k m u cid).mem = s.mem := rfl
@[simp] theorem State.askGrant_flash (s : State) (k : GrantKind) (m : Bool) (u : Nat) (cid : Option Nat) : (s.askGrant k m u cid).flash = s.flash := rfl
@[simp] theorem State.askGrant_free (s : State) (k : GrantKind) (m : Bool) (u : Nat) (cid : Option Nat) : (s.askGrant k m u cid).free = s.free := rfl

@[simp] theorem State.askGrant_sys (s : State) (k : GrantKind) (m : Bool) (u : Nat) (cid : Option Nat) : (s.askGrant k m u cid).sys = s.sys := rfl
@[simp] theorem State.askGrant_posted (s : State) (k : GrantKind) (m : Bool) (u : Nat) (cid : Option Nat) : (s.askGrant k m u cid).posted = s.posted := rfl

/-! ### State.endGrant -/

@[simp] theorem State.endGrant_pending (s : State) (g : Nat) : (s.endGrant g).pending = s.pending := rfl
@[simp] theorem State.endGrant_clk (s : State) (g : Nat) : (s.endGrant g).clk = s.clk := rfl
@[simp] theorem State.endGrant_orders (s : State) (g : Nat) : (s.endGrant g).orders = s.orders := rfl
@[simp] theorem State.endGrant_receipt (s : State) (g : Nat) : (s.endGrant g).receipt = s.receipt := rfl
@[simp] theorem State.endGrant_dict (s : State) (g : Nat) : (s.endGrant g).dict = s.dict := rfl
@[simp] theorem State.endGrant_portA (s : State) (g : Nat) : (s.endGrant g).portA = s.portA := rfl
@[simp] theorem State.endGrant_portB (s : State) (g : Nat) : (s.endGrant g).portB = s.portB := rfl
@[simp] theorem State.endGrant_sqs (s : State) (g : Nat) : (s.endGrant g).sqs = s.sqs := rfl
@[simp] theorem State.endGrant_cqs (s : State) (g : Nat) : (s.endGrant g).cqs = s.cqs := rfl
@[simp] theorem State.endGrant_msix (s : State) (g : Nat) : (s.endGrant g).msix = s.msix := rfl
@[simp] theorem State.endGrant_wins (s : State) (g : Nat) : (s.endGrant g).wins = s.wins := rfl
@[simp] theorem State.endGrant_boxes (s : State) (g : Nat) : (s.endGrant g).boxes = s.boxes := rfl
@[simp] theorem State.endGrant_cmds (s : State) (g : Nat) : (s.endGrant g).cmds = s.cmds := rfl
@[simp] theorem State.endGrant_nextCid (s : State) (g : Nat) : (s.endGrant g).nextCid = s.nextCid := rfl
@[simp] theorem State.endGrant_colls (s : State) (g : Nat) : (s.endGrant g).colls = s.colls := rfl
@[simp] theorem State.endGrant_chg (s : State) (g : Nat) : (s.endGrant g).chg = s.chg := rfl
@[simp] theorem State.endGrant_cache (s : State) (g : Nat) : (s.endGrant g).cache = s.cache := rfl
@[simp] theorem State.endGrant_searches (s : State) (g : Nat) : (s.endGrant g).searches = s.searches := rfl
@[simp] theorem State.endGrant_scan (s : State) (g : Nat) : (s.endGrant g).scan = s.scan := rfl
@[simp] theorem State.endGrant_tags (s : State) (g : Nat) : (s.endGrant g).tags = s.tags := rfl
@[simp] theorem State.endGrant_scanFree (s : State) (g : Nat) : (s.endGrant g).scanFree = s.scanFree := rfl
@[simp] theorem State.endGrant_wb (s : State) (g : Nat) : (s.endGrant g).wb = s.wb := rfl
@[simp] theorem State.endGrant_carry (s : State) (g : Nat) : (s.endGrant g).carry = s.carry := rfl
@[simp] theorem State.endGrant_tensor (s : State) (g : Nat) : (s.endGrant g).tensor = s.tensor := rfl
@[simp] theorem State.endGrant_shares (s : State) (g : Nat) : (s.endGrant g).shares = s.shares := rfl
@[simp] theorem State.endGrant_units (s : State) (g : Nat) : (s.endGrant g).units = s.units := rfl
@[simp] theorem State.endGrant_bdl (s : State) (g : Nat) : (s.endGrant g).bdl = s.bdl := rfl
@[simp] theorem State.endGrant_boot (s : State) (g : Nat) : (s.endGrant g).boot = s.boot := rfl
@[simp] theorem State.endGrant_table (s : State) (g : Nat) : (s.endGrant g).table = s.table := rfl
@[simp] theorem State.endGrant_ps (s : State) (g : Nat) : (s.endGrant g).ps = s.ps := rfl
@[simp] theorem State.endGrant_mem (s : State) (g : Nat) : (s.endGrant g).mem = s.mem := rfl
@[simp] theorem State.endGrant_flash (s : State) (g : Nat) : (s.endGrant g).flash = s.flash := rfl
@[simp] theorem State.endGrant_free (s : State) (g : Nat) : (s.endGrant g).free = s.free := rfl

@[simp] theorem State.endGrant_sys (s : State) (g : Nat) : (s.endGrant g).sys = s.sys := rfl
@[simp] theorem State.endGrant_posted (s : State) (g : Nat) : (s.endGrant g).posted = s.posted := rfl

/-! ### State.writeEntry -/

@[simp] theorem State.writeEntry_pending (s : State) (c : Cq) (bs : Bytes) (noint : Bool) : (s.writeEntry c bs noint).pending = s.pending := rfl
@[simp] theorem State.writeEntry_clk (s : State) (c : Cq) (bs : Bytes) (noint : Bool) : (s.writeEntry c bs noint).clk = s.clk := rfl
@[simp] theorem State.writeEntry_orders (s : State) (c : Cq) (bs : Bytes) (noint : Bool) : (s.writeEntry c bs noint).orders = s.orders := rfl
@[simp] theorem State.writeEntry_receipt (s : State) (c : Cq) (bs : Bytes) (noint : Bool) : (s.writeEntry c bs noint).receipt = s.receipt := rfl
@[simp] theorem State.writeEntry_dict (s : State) (c : Cq) (bs : Bytes) (noint : Bool) : (s.writeEntry c bs noint).dict = s.dict := rfl
@[simp] theorem State.writeEntry_portA (s : State) (c : Cq) (bs : Bytes) (noint : Bool) : (s.writeEntry c bs noint).portA = s.portA := rfl
@[simp] theorem State.writeEntry_portB (s : State) (c : Cq) (bs : Bytes) (noint : Bool) : (s.writeEntry c bs noint).portB = s.portB := rfl
@[simp] theorem State.writeEntry_sqs (s : State) (c : Cq) (bs : Bytes) (noint : Bool) : (s.writeEntry c bs noint).sqs = s.sqs := rfl
@[simp] theorem State.writeEntry_msix (s : State) (c : Cq) (bs : Bytes) (noint : Bool) : (s.writeEntry c bs noint).msix = s.msix := rfl
@[simp] theorem State.writeEntry_wins (s : State) (c : Cq) (bs : Bytes) (noint : Bool) : (s.writeEntry c bs noint).wins = s.wins := rfl
@[simp] theorem State.writeEntry_boxes (s : State) (c : Cq) (bs : Bytes) (noint : Bool) : (s.writeEntry c bs noint).boxes = s.boxes := rfl
@[simp] theorem State.writeEntry_cmds (s : State) (c : Cq) (bs : Bytes) (noint : Bool) : (s.writeEntry c bs noint).cmds = s.cmds := rfl
@[simp] theorem State.writeEntry_nextCid (s : State) (c : Cq) (bs : Bytes) (noint : Bool) : (s.writeEntry c bs noint).nextCid = s.nextCid := rfl
@[simp] theorem State.writeEntry_colls (s : State) (c : Cq) (bs : Bytes) (noint : Bool) : (s.writeEntry c bs noint).colls = s.colls := rfl
@[simp] theorem State.writeEntry_chg (s : State) (c : Cq) (bs : Bytes) (noint : Bool) : (s.writeEntry c bs noint).chg = s.chg := rfl
@[simp] theorem State.writeEntry_cache (s : State) (c : Cq) (bs : Bytes) (noint : Bool) : (s.writeEntry c bs noint).cache = s.cache := rfl
@[simp] theorem State.writeEntry_searches (s : State) (c : Cq) (bs : Bytes) (noint : Bool) : (s.writeEntry c bs noint).searches = s.searches := rfl
@[simp] theorem State.writeEntry_scan (s : State) (c : Cq) (bs : Bytes) (noint : Bool) : (s.writeEntry c bs noint).scan = s.scan := rfl
@[simp] theorem State.writeEntry_tags (s : State) (c : Cq) (bs : Bytes) (noint : Bool) : (s.writeEntry c bs noint).tags = s.tags := rfl
@[simp] theorem State.writeEntry_scanFree (s : State) (c : Cq) (bs : Bytes) (noint : Bool) : (s.writeEntry c bs noint).scanFree = s.scanFree := rfl
@[simp] theorem State.writeEntry_wb (s : State) (c : Cq) (bs : Bytes) (noint : Bool) : (s.writeEntry c bs noint).wb = s.wb := rfl
@[simp] theorem State.writeEntry_carry (s : State) (c : Cq) (bs : Bytes) (noint : Bool) : (s.writeEntry c bs noint).carry = s.carry := rfl
@[simp] theorem State.writeEntry_tensor (s : State) (c : Cq) (bs : Bytes) (noint : Bool) : (s.writeEntry c bs noint).tensor = s.tensor := rfl
@[simp] theorem State.writeEntry_shares (s : State) (c : Cq) (bs : Bytes) (noint : Bool) : (s.writeEntry c bs noint).shares = s.shares := rfl
@[simp] theorem State.writeEntry_pwr (s : State) (c : Cq) (bs : Bytes) (noint : Bool) : (s.writeEntry c bs noint).pwr = s.pwr := rfl
@[simp] theorem State.writeEntry_units (s : State) (c : Cq) (bs : Bytes) (noint : Bool) : (s.writeEntry c bs noint).units = s.units := rfl
@[simp] theorem State.writeEntry_bdl (s : State) (c : Cq) (bs : Bytes) (noint : Bool) : (s.writeEntry c bs noint).bdl = s.bdl := rfl
@[simp] theorem State.writeEntry_boot (s : State) (c : Cq) (bs : Bytes) (noint : Bool) : (s.writeEntry c bs noint).boot = s.boot := rfl
@[simp] theorem State.writeEntry_table (s : State) (c : Cq) (bs : Bytes) (noint : Bool) : (s.writeEntry c bs noint).table = s.table := rfl
@[simp] theorem State.writeEntry_ps (s : State) (c : Cq) (bs : Bytes) (noint : Bool) : (s.writeEntry c bs noint).ps = s.ps := rfl
@[simp] theorem State.writeEntry_flash (s : State) (c : Cq) (bs : Bytes) (noint : Bool) : (s.writeEntry c bs noint).flash = s.flash := rfl
@[simp] theorem State.writeEntry_free (s : State) (c : Cq) (bs : Bytes) (noint : Bool) : (s.writeEntry c bs noint).free = s.free := rfl

@[simp] theorem State.writeEntry_sys (s : State) (c : Cq) (bs : Bytes) (noint : Bool) : (s.writeEntry c bs noint).sys = s.sys := rfl

/-! ### State.accountJob -/

@[simp] theorem State.accountJob_pending (s : State) (c : Cmd) : (s.accountJob c).pending = s.pending := rfl
@[simp] theorem State.accountJob_clk (s : State) (c : Cmd) : (s.accountJob c).clk = s.clk := rfl
@[simp] theorem State.accountJob_orders (s : State) (c : Cmd) : (s.accountJob c).orders = s.orders := rfl
@[simp] theorem State.accountJob_receipt (s : State) (c : Cmd) : (s.accountJob c).receipt = s.receipt := rfl
@[simp] theorem State.accountJob_dict (s : State) (c : Cmd) : (s.accountJob c).dict = s.dict := rfl
@[simp] theorem State.accountJob_portA (s : State) (c : Cmd) : (s.accountJob c).portA = s.portA := rfl
@[simp] theorem State.accountJob_portB (s : State) (c : Cmd) : (s.accountJob c).portB = s.portB := rfl
@[simp] theorem State.accountJob_sqs (s : State) (c : Cmd) : (s.accountJob c).sqs = s.sqs := rfl
@[simp] theorem State.accountJob_cqs (s : State) (c : Cmd) : (s.accountJob c).cqs = s.cqs := rfl
@[simp] theorem State.accountJob_msix (s : State) (c : Cmd) : (s.accountJob c).msix = s.msix := rfl
@[simp] theorem State.accountJob_wins (s : State) (c : Cmd) : (s.accountJob c).wins = s.wins := rfl
@[simp] theorem State.accountJob_boxes (s : State) (c : Cmd) : (s.accountJob c).boxes = s.boxes := rfl
@[simp] theorem State.accountJob_cmds (s : State) (c : Cmd) : (s.accountJob c).cmds = s.cmds := rfl
@[simp] theorem State.accountJob_nextCid (s : State) (c : Cmd) : (s.accountJob c).nextCid = s.nextCid := rfl
@[simp] theorem State.accountJob_colls (s : State) (c : Cmd) : (s.accountJob c).colls = s.colls := rfl
@[simp] theorem State.accountJob_chg (s : State) (c : Cmd) : (s.accountJob c).chg = s.chg := rfl
@[simp] theorem State.accountJob_cache (s : State) (c : Cmd) : (s.accountJob c).cache = s.cache := rfl
@[simp] theorem State.accountJob_searches (s : State) (c : Cmd) : (s.accountJob c).searches = s.searches := rfl
@[simp] theorem State.accountJob_scan (s : State) (c : Cmd) : (s.accountJob c).scan = s.scan := rfl
@[simp] theorem State.accountJob_tags (s : State) (c : Cmd) : (s.accountJob c).tags = s.tags := rfl
@[simp] theorem State.accountJob_scanFree (s : State) (c : Cmd) : (s.accountJob c).scanFree = s.scanFree := rfl
@[simp] theorem State.accountJob_wb (s : State) (c : Cmd) : (s.accountJob c).wb = s.wb := rfl
@[simp] theorem State.accountJob_carry (s : State) (c : Cmd) : (s.accountJob c).carry = s.carry := rfl
@[simp] theorem State.accountJob_tensor (s : State) (c : Cmd) : (s.accountJob c).tensor = s.tensor := rfl
@[simp] theorem State.accountJob_pwr (s : State) (c : Cmd) : (s.accountJob c).pwr = s.pwr := rfl
@[simp] theorem State.accountJob_units (s : State) (c : Cmd) : (s.accountJob c).units = s.units := rfl
@[simp] theorem State.accountJob_bdl (s : State) (c : Cmd) : (s.accountJob c).bdl = s.bdl := rfl
@[simp] theorem State.accountJob_boot (s : State) (c : Cmd) : (s.accountJob c).boot = s.boot := rfl
@[simp] theorem State.accountJob_table (s : State) (c : Cmd) : (s.accountJob c).table = s.table := rfl
@[simp] theorem State.accountJob_ps (s : State) (c : Cmd) : (s.accountJob c).ps = s.ps := rfl
@[simp] theorem State.accountJob_mem (s : State) (c : Cmd) : (s.accountJob c).mem = s.mem := rfl
@[simp] theorem State.accountJob_flash (s : State) (c : Cmd) : (s.accountJob c).flash = s.flash := rfl
@[simp] theorem State.accountJob_free (s : State) (c : Cmd) : (s.accountJob c).free = s.free := rfl

@[simp] theorem State.accountJob_sys (s : State) (c : Cmd) : (s.accountJob c).sys = s.sys := rfl
@[simp] theorem State.accountJob_posted (s : State) (c : Cmd) : (s.accountJob c).posted = s.posted := rfl

/-! ### State.putUnit -/

@[simp] theorem State.putUnit_pending (s : State) (r : UnitRec) : (s.putUnit r).pending = s.pending := rfl
@[simp] theorem State.putUnit_clk (s : State) (r : UnitRec) : (s.putUnit r).clk = s.clk := rfl
@[simp] theorem State.putUnit_orders (s : State) (r : UnitRec) : (s.putUnit r).orders = s.orders := rfl
@[simp] theorem State.putUnit_receipt (s : State) (r : UnitRec) : (s.putUnit r).receipt = s.receipt := rfl
@[simp] theorem State.putUnit_dict (s : State) (r : UnitRec) : (s.putUnit r).dict = s.dict := rfl
@[simp] theorem State.putUnit_portA (s : State) (r : UnitRec) : (s.putUnit r).portA = s.portA := rfl
@[simp] theorem State.putUnit_portB (s : State) (r : UnitRec) : (s.putUnit r).portB = s.portB := rfl
@[simp] theorem State.putUnit_sqs (s : State) (r : UnitRec) : (s.putUnit r).sqs = s.sqs := rfl
@[simp] theorem State.putUnit_cqs (s : State) (r : UnitRec) : (s.putUnit r).cqs = s.cqs := rfl
@[simp] theorem State.putUnit_msix (s : State) (r : UnitRec) : (s.putUnit r).msix = s.msix := rfl
@[simp] theorem State.putUnit_wins (s : State) (r : UnitRec) : (s.putUnit r).wins = s.wins := rfl
@[simp] theorem State.putUnit_boxes (s : State) (r : UnitRec) : (s.putUnit r).boxes = s.boxes := rfl
@[simp] theorem State.putUnit_cmds (s : State) (r : UnitRec) : (s.putUnit r).cmds = s.cmds := rfl
@[simp] theorem State.putUnit_nextCid (s : State) (r : UnitRec) : (s.putUnit r).nextCid = s.nextCid := rfl
@[simp] theorem State.putUnit_colls (s : State) (r : UnitRec) : (s.putUnit r).colls = s.colls := rfl
@[simp] theorem State.putUnit_chg (s : State) (r : UnitRec) : (s.putUnit r).chg = s.chg := rfl
@[simp] theorem State.putUnit_cache (s : State) (r : UnitRec) : (s.putUnit r).cache = s.cache := rfl
@[simp] theorem State.putUnit_searches (s : State) (r : UnitRec) : (s.putUnit r).searches = s.searches := rfl
@[simp] theorem State.putUnit_scan (s : State) (r : UnitRec) : (s.putUnit r).scan = s.scan := rfl
@[simp] theorem State.putUnit_tags (s : State) (r : UnitRec) : (s.putUnit r).tags = s.tags := rfl
@[simp] theorem State.putUnit_scanFree (s : State) (r : UnitRec) : (s.putUnit r).scanFree = s.scanFree := rfl
@[simp] theorem State.putUnit_wb (s : State) (r : UnitRec) : (s.putUnit r).wb = s.wb := rfl
@[simp] theorem State.putUnit_carry (s : State) (r : UnitRec) : (s.putUnit r).carry = s.carry := rfl
@[simp] theorem State.putUnit_tensor (s : State) (r : UnitRec) : (s.putUnit r).tensor = s.tensor := rfl
@[simp] theorem State.putUnit_shares (s : State) (r : UnitRec) : (s.putUnit r).shares = s.shares := rfl
@[simp] theorem State.putUnit_pwr (s : State) (r : UnitRec) : (s.putUnit r).pwr = s.pwr := rfl
@[simp] theorem State.putUnit_bdl (s : State) (r : UnitRec) : (s.putUnit r).bdl = s.bdl := rfl
@[simp] theorem State.putUnit_boot (s : State) (r : UnitRec) : (s.putUnit r).boot = s.boot := rfl
@[simp] theorem State.putUnit_table (s : State) (r : UnitRec) : (s.putUnit r).table = s.table := rfl
@[simp] theorem State.putUnit_ps (s : State) (r : UnitRec) : (s.putUnit r).ps = s.ps := rfl
@[simp] theorem State.putUnit_mem (s : State) (r : UnitRec) : (s.putUnit r).mem = s.mem := rfl
@[simp] theorem State.putUnit_flash (s : State) (r : UnitRec) : (s.putUnit r).flash = s.flash := rfl
@[simp] theorem State.putUnit_free (s : State) (r : UnitRec) : (s.putUnit r).free = s.free := rfl

@[simp] theorem State.putUnit_sys (s : State) (r : UnitRec) : (s.putUnit r).sys = s.sys := rfl
@[simp] theorem State.putUnit_posted (s : State) (r : UnitRec) : (s.putUnit r).posted = s.posted := rfl

/-! ### State.refreshBuffer -/

@[simp] theorem State.refreshBuffer_pending (s : State) : (s.refreshBuffer).pending = s.pending := rfl
@[simp] theorem State.refreshBuffer_clk (s : State) : (s.refreshBuffer).clk = s.clk := rfl
@[simp] theorem State.refreshBuffer_orders (s : State) : (s.refreshBuffer).orders = s.orders := rfl
@[simp] theorem State.refreshBuffer_receipt (s : State) : (s.refreshBuffer).receipt = s.receipt := rfl
@[simp] theorem State.refreshBuffer_dict (s : State) : (s.refreshBuffer).dict = s.dict := rfl
@[simp] theorem State.refreshBuffer_portA (s : State) : (s.refreshBuffer).portA = s.portA := rfl
@[simp] theorem State.refreshBuffer_portB (s : State) : (s.refreshBuffer).portB = s.portB := rfl
@[simp] theorem State.refreshBuffer_sqs (s : State) : (s.refreshBuffer).sqs = s.sqs := rfl
@[simp] theorem State.refreshBuffer_cqs (s : State) : (s.refreshBuffer).cqs = s.cqs := rfl
@[simp] theorem State.refreshBuffer_msix (s : State) : (s.refreshBuffer).msix = s.msix := rfl
@[simp] theorem State.refreshBuffer_wins (s : State) : (s.refreshBuffer).wins = s.wins := rfl
@[simp] theorem State.refreshBuffer_boxes (s : State) : (s.refreshBuffer).boxes = s.boxes := rfl
@[simp] theorem State.refreshBuffer_cmds (s : State) : (s.refreshBuffer).cmds = s.cmds := rfl
@[simp] theorem State.refreshBuffer_nextCid (s : State) : (s.refreshBuffer).nextCid = s.nextCid := rfl
@[simp] theorem State.refreshBuffer_colls (s : State) : (s.refreshBuffer).colls = s.colls := rfl
@[simp] theorem State.refreshBuffer_chg (s : State) : (s.refreshBuffer).chg = s.chg := rfl
@[simp] theorem State.refreshBuffer_cache (s : State) : (s.refreshBuffer).cache = s.cache := rfl
@[simp] theorem State.refreshBuffer_searches (s : State) : (s.refreshBuffer).searches = s.searches := rfl
@[simp] theorem State.refreshBuffer_scan (s : State) : (s.refreshBuffer).scan = s.scan := rfl
@[simp] theorem State.refreshBuffer_tags (s : State) : (s.refreshBuffer).tags = s.tags := rfl
@[simp] theorem State.refreshBuffer_scanFree (s : State) : (s.refreshBuffer).scanFree = s.scanFree := rfl
@[simp] theorem State.refreshBuffer_carry (s : State) : (s.refreshBuffer).carry = s.carry := rfl
@[simp] theorem State.refreshBuffer_tensor (s : State) : (s.refreshBuffer).tensor = s.tensor := rfl
@[simp] theorem State.refreshBuffer_shares (s : State) : (s.refreshBuffer).shares = s.shares := rfl
@[simp] theorem State.refreshBuffer_pwr (s : State) : (s.refreshBuffer).pwr = s.pwr := rfl
@[simp] theorem State.refreshBuffer_units (s : State) : (s.refreshBuffer).units = s.units := rfl
@[simp] theorem State.refreshBuffer_bdl (s : State) : (s.refreshBuffer).bdl = s.bdl := rfl
@[simp] theorem State.refreshBuffer_boot (s : State) : (s.refreshBuffer).boot = s.boot := rfl
@[simp] theorem State.refreshBuffer_table (s : State) : (s.refreshBuffer).table = s.table := rfl
@[simp] theorem State.refreshBuffer_ps (s : State) : (s.refreshBuffer).ps = s.ps := rfl
@[simp] theorem State.refreshBuffer_mem (s : State) : (s.refreshBuffer).mem = s.mem := rfl
@[simp] theorem State.refreshBuffer_flash (s : State) : (s.refreshBuffer).flash = s.flash := rfl
@[simp] theorem State.refreshBuffer_free (s : State) : (s.refreshBuffer).free = s.free := rfl

@[simp] theorem State.refreshBuffer_sys (s : State) : (s.refreshBuffer).sys = s.sys := rfl
@[simp] theorem State.refreshBuffer_posted (s : State) : (s.refreshBuffer).posted = s.posted := rfl

/-! ### State.setPass -/

@[simp] theorem State.setPass_carry (s : State) (p : Option Pass) :
    (s.setPass p).carry = { s.carry with pass := p } := rfl
@[simp] theorem State.setPass_pending (s : State) (p : Option Pass) : (s.setPass p).pending = s.pending := rfl
@[simp] theorem State.setPass_clk (s : State) (p : Option Pass) : (s.setPass p).clk = s.clk := rfl
@[simp] theorem State.setPass_orders (s : State) (p : Option Pass) : (s.setPass p).orders = s.orders := rfl
@[simp] theorem State.setPass_receipt (s : State) (p : Option Pass) : (s.setPass p).receipt = s.receipt := rfl
@[simp] theorem State.setPass_dict (s : State) (p : Option Pass) : (s.setPass p).dict = s.dict := rfl
@[simp] theorem State.setPass_portA (s : State) (p : Option Pass) : (s.setPass p).portA = s.portA := rfl
@[simp] theorem State.setPass_portB (s : State) (p : Option Pass) : (s.setPass p).portB = s.portB := rfl
@[simp] theorem State.setPass_sqs (s : State) (p : Option Pass) : (s.setPass p).sqs = s.sqs := rfl
@[simp] theorem State.setPass_cqs (s : State) (p : Option Pass) : (s.setPass p).cqs = s.cqs := rfl
@[simp] theorem State.setPass_msix (s : State) (p : Option Pass) : (s.setPass p).msix = s.msix := rfl
@[simp] theorem State.setPass_wins (s : State) (p : Option Pass) : (s.setPass p).wins = s.wins := rfl
@[simp] theorem State.setPass_boxes (s : State) (p : Option Pass) : (s.setPass p).boxes = s.boxes := rfl
@[simp] theorem State.setPass_cmds (s : State) (p : Option Pass) : (s.setPass p).cmds = s.cmds := rfl
@[simp] theorem State.setPass_nextCid (s : State) (p : Option Pass) : (s.setPass p).nextCid = s.nextCid := rfl
@[simp] theorem State.setPass_colls (s : State) (p : Option Pass) : (s.setPass p).colls = s.colls := rfl
@[simp] theorem State.setPass_chg (s : State) (p : Option Pass) : (s.setPass p).chg = s.chg := rfl
@[simp] theorem State.setPass_cache (s : State) (p : Option Pass) : (s.setPass p).cache = s.cache := rfl
@[simp] theorem State.setPass_searches (s : State) (p : Option Pass) : (s.setPass p).searches = s.searches := rfl
@[simp] theorem State.setPass_scan (s : State) (p : Option Pass) : (s.setPass p).scan = s.scan := rfl
@[simp] theorem State.setPass_tags (s : State) (p : Option Pass) : (s.setPass p).tags = s.tags := rfl
@[simp] theorem State.setPass_scanFree (s : State) (p : Option Pass) : (s.setPass p).scanFree = s.scanFree := rfl
@[simp] theorem State.setPass_wb (s : State) (p : Option Pass) : (s.setPass p).wb = s.wb := rfl
@[simp] theorem State.setPass_tensor (s : State) (p : Option Pass) : (s.setPass p).tensor = s.tensor := rfl
@[simp] theorem State.setPass_shares (s : State) (p : Option Pass) : (s.setPass p).shares = s.shares := rfl
@[simp] theorem State.setPass_pwr (s : State) (p : Option Pass) : (s.setPass p).pwr = s.pwr := rfl
@[simp] theorem State.setPass_units (s : State) (p : Option Pass) : (s.setPass p).units = s.units := rfl
@[simp] theorem State.setPass_bdl (s : State) (p : Option Pass) : (s.setPass p).bdl = s.bdl := rfl
@[simp] theorem State.setPass_boot (s : State) (p : Option Pass) : (s.setPass p).boot = s.boot := rfl
@[simp] theorem State.setPass_table (s : State) (p : Option Pass) : (s.setPass p).table = s.table := rfl
@[simp] theorem State.setPass_ps (s : State) (p : Option Pass) : (s.setPass p).ps = s.ps := rfl
@[simp] theorem State.setPass_mem (s : State) (p : Option Pass) : (s.setPass p).mem = s.mem := rfl
@[simp] theorem State.setPass_flash (s : State) (p : Option Pass) : (s.setPass p).flash = s.flash := rfl
@[simp] theorem State.setPass_free (s : State) (p : Option Pass) : (s.setPass p).free = s.free := rfl

@[simp] theorem State.setPass_sys (s : State) (p : Option Pass) : (s.setPass p).sys = s.sys := rfl
@[simp] theorem State.setPass_posted (s : State) (p : Option Pass) : (s.setPass p).posted = s.posted := rfl

/-! ### State.modPort -/

@[simp] theorem State.modPort_pending (s : State) (p : Port) (f : PortState → PortState) : (s.modPort p f).pending = s.pending := by cases p <;> rfl
@[simp] theorem State.modPort_clk (s : State) (p : Port) (f : PortState → PortState) : (s.modPort p f).clk = s.clk := by cases p <;> rfl
@[simp] theorem State.modPort_orders (s : State) (p : Port) (f : PortState → PortState) : (s.modPort p f).orders = s.orders := by cases p <;> rfl
@[simp] theorem State.modPort_receipt (s : State) (p : Port) (f : PortState → PortState) : (s.modPort p f).receipt = s.receipt := by cases p <;> rfl
@[simp] theorem State.modPort_dict (s : State) (p : Port) (f : PortState → PortState) : (s.modPort p f).dict = s.dict := by cases p <;> rfl
@[simp] theorem State.modPort_sqs (s : State) (p : Port) (f : PortState → PortState) : (s.modPort p f).sqs = s.sqs := by cases p <;> rfl
@[simp] theorem State.modPort_cqs (s : State) (p : Port) (f : PortState → PortState) : (s.modPort p f).cqs = s.cqs := by cases p <;> rfl
@[simp] theorem State.modPort_msix (s : State) (p : Port) (f : PortState → PortState) : (s.modPort p f).msix = s.msix := by cases p <;> rfl
@[simp] theorem State.modPort_wins (s : State) (p : Port) (f : PortState → PortState) : (s.modPort p f).wins = s.wins := by cases p <;> rfl
@[simp] theorem State.modPort_boxes (s : State) (p : Port) (f : PortState → PortState) : (s.modPort p f).boxes = s.boxes := by cases p <;> rfl
@[simp] theorem State.modPort_cmds (s : State) (p : Port) (f : PortState → PortState) : (s.modPort p f).cmds = s.cmds := by cases p <;> rfl
@[simp] theorem State.modPort_nextCid (s : State) (p : Port) (f : PortState → PortState) : (s.modPort p f).nextCid = s.nextCid := by cases p <;> rfl
@[simp] theorem State.modPort_colls (s : State) (p : Port) (f : PortState → PortState) : (s.modPort p f).colls = s.colls := by cases p <;> rfl
@[simp] theorem State.modPort_chg (s : State) (p : Port) (f : PortState → PortState) : (s.modPort p f).chg = s.chg := by cases p <;> rfl
@[simp] theorem State.modPort_cache (s : State) (p : Port) (f : PortState → PortState) : (s.modPort p f).cache = s.cache := by cases p <;> rfl
@[simp] theorem State.modPort_searches (s : State) (p : Port) (f : PortState → PortState) : (s.modPort p f).searches = s.searches := by cases p <;> rfl
@[simp] theorem State.modPort_scan (s : State) (p : Port) (f : PortState → PortState) : (s.modPort p f).scan = s.scan := by cases p <;> rfl
@[simp] theorem State.modPort_tags (s : State) (p : Port) (f : PortState → PortState) : (s.modPort p f).tags = s.tags := by cases p <;> rfl
@[simp] theorem State.modPort_scanFree (s : State) (p : Port) (f : PortState → PortState) : (s.modPort p f).scanFree = s.scanFree := by cases p <;> rfl
@[simp] theorem State.modPort_wb (s : State) (p : Port) (f : PortState → PortState) : (s.modPort p f).wb = s.wb := by cases p <;> rfl
@[simp] theorem State.modPort_carry (s : State) (p : Port) (f : PortState → PortState) : (s.modPort p f).carry = s.carry := by cases p <;> rfl
@[simp] theorem State.modPort_tensor (s : State) (p : Port) (f : PortState → PortState) : (s.modPort p f).tensor = s.tensor := by cases p <;> rfl
@[simp] theorem State.modPort_shares (s : State) (p : Port) (f : PortState → PortState) : (s.modPort p f).shares = s.shares := by cases p <;> rfl
@[simp] theorem State.modPort_pwr (s : State) (p : Port) (f : PortState → PortState) : (s.modPort p f).pwr = s.pwr := by cases p <;> rfl
@[simp] theorem State.modPort_units (s : State) (p : Port) (f : PortState → PortState) : (s.modPort p f).units = s.units := by cases p <;> rfl
@[simp] theorem State.modPort_bdl (s : State) (p : Port) (f : PortState → PortState) : (s.modPort p f).bdl = s.bdl := by cases p <;> rfl
@[simp] theorem State.modPort_boot (s : State) (p : Port) (f : PortState → PortState) : (s.modPort p f).boot = s.boot := by cases p <;> rfl
@[simp] theorem State.modPort_table (s : State) (p : Port) (f : PortState → PortState) : (s.modPort p f).table = s.table := by cases p <;> rfl
@[simp] theorem State.modPort_ps (s : State) (p : Port) (f : PortState → PortState) : (s.modPort p f).ps = s.ps := by cases p <;> rfl
@[simp] theorem State.modPort_mem (s : State) (p : Port) (f : PortState → PortState) : (s.modPort p f).mem = s.mem := by cases p <;> rfl
@[simp] theorem State.modPort_flash (s : State) (p : Port) (f : PortState → PortState) : (s.modPort p f).flash = s.flash := by cases p <;> rfl
@[simp] theorem State.modPort_free (s : State) (p : Port) (f : PortState → PortState) : (s.modPort p f).free = s.free := by cases p <;> rfl

@[simp] theorem State.modPort_sys (s : State) (p : Port) (f : PortState → PortState) : (s.modPort p f).sys = s.sys := by cases p <;> rfl
@[simp] theorem State.modPort_posted (s : State) (p : Port) (f : PortState → PortState) : (s.modPort p f).posted = s.posted := by cases p <;> rfl

/-! ### State.setRunning -/

@[simp] theorem State.setRunning_pending (s : State) (f : Nat) (x : Option (Nat × Nat)) : (s.setRunning f x).pending = s.pending := rfl
@[simp] theorem State.setRunning_clk (s : State) (f : Nat) (x : Option (Nat × Nat)) : (s.setRunning f x).clk = s.clk := rfl
@[simp] theorem State.setRunning_orders (s : State) (f : Nat) (x : Option (Nat × Nat)) : (s.setRunning f x).orders = s.orders := rfl
@[simp] theorem State.setRunning_receipt (s : State) (f : Nat) (x : Option (Nat × Nat)) : (s.setRunning f x).receipt = s.receipt := rfl
@[simp] theorem State.setRunning_dict (s : State) (f : Nat) (x : Option (Nat × Nat)) : (s.setRunning f x).dict = s.dict := rfl
@[simp] theorem State.setRunning_portA (s : State) (f : Nat) (x : Option (Nat × Nat)) : (s.setRunning f x).portA = s.portA := rfl
@[simp] theorem State.setRunning_portB (s : State) (f : Nat) (x : Option (Nat × Nat)) : (s.setRunning f x).portB = s.portB := rfl
@[simp] theorem State.setRunning_sqs (s : State) (f : Nat) (x : Option (Nat × Nat)) : (s.setRunning f x).sqs = s.sqs := rfl
@[simp] theorem State.setRunning_cqs (s : State) (f : Nat) (x : Option (Nat × Nat)) : (s.setRunning f x).cqs = s.cqs := rfl
@[simp] theorem State.setRunning_msix (s : State) (f : Nat) (x : Option (Nat × Nat)) : (s.setRunning f x).msix = s.msix := rfl
@[simp] theorem State.setRunning_wins (s : State) (f : Nat) (x : Option (Nat × Nat)) : (s.setRunning f x).wins = s.wins := rfl
@[simp] theorem State.setRunning_boxes (s : State) (f : Nat) (x : Option (Nat × Nat)) : (s.setRunning f x).boxes = s.boxes := rfl
@[simp] theorem State.setRunning_cmds (s : State) (f : Nat) (x : Option (Nat × Nat)) : (s.setRunning f x).cmds = s.cmds := rfl
@[simp] theorem State.setRunning_nextCid (s : State) (f : Nat) (x : Option (Nat × Nat)) : (s.setRunning f x).nextCid = s.nextCid := rfl
@[simp] theorem State.setRunning_colls (s : State) (f : Nat) (x : Option (Nat × Nat)) : (s.setRunning f x).colls = s.colls := rfl
@[simp] theorem State.setRunning_chg (s : State) (f : Nat) (x : Option (Nat × Nat)) : (s.setRunning f x).chg = s.chg := rfl
@[simp] theorem State.setRunning_cache (s : State) (f : Nat) (x : Option (Nat × Nat)) : (s.setRunning f x).cache = s.cache := rfl
@[simp] theorem State.setRunning_searches (s : State) (f : Nat) (x : Option (Nat × Nat)) : (s.setRunning f x).searches = s.searches := rfl
@[simp] theorem State.setRunning_scan (s : State) (f : Nat) (x : Option (Nat × Nat)) : (s.setRunning f x).scan = s.scan := rfl
@[simp] theorem State.setRunning_tags (s : State) (f : Nat) (x : Option (Nat × Nat)) : (s.setRunning f x).tags = s.tags := rfl
@[simp] theorem State.setRunning_scanFree (s : State) (f : Nat) (x : Option (Nat × Nat)) : (s.setRunning f x).scanFree = s.scanFree := rfl
@[simp] theorem State.setRunning_wb (s : State) (f : Nat) (x : Option (Nat × Nat)) : (s.setRunning f x).wb = s.wb := rfl
@[simp] theorem State.setRunning_carry (s : State) (f : Nat) (x : Option (Nat × Nat)) : (s.setRunning f x).carry = s.carry := rfl
@[simp] theorem State.setRunning_shares (s : State) (f : Nat) (x : Option (Nat × Nat)) : (s.setRunning f x).shares = s.shares := rfl
@[simp] theorem State.setRunning_pwr (s : State) (f : Nat) (x : Option (Nat × Nat)) : (s.setRunning f x).pwr = s.pwr := rfl
@[simp] theorem State.setRunning_units (s : State) (f : Nat) (x : Option (Nat × Nat)) : (s.setRunning f x).units = s.units := rfl
@[simp] theorem State.setRunning_bdl (s : State) (f : Nat) (x : Option (Nat × Nat)) : (s.setRunning f x).bdl = s.bdl := rfl
@[simp] theorem State.setRunning_boot (s : State) (f : Nat) (x : Option (Nat × Nat)) : (s.setRunning f x).boot = s.boot := rfl
@[simp] theorem State.setRunning_table (s : State) (f : Nat) (x : Option (Nat × Nat)) : (s.setRunning f x).table = s.table := rfl
@[simp] theorem State.setRunning_ps (s : State) (f : Nat) (x : Option (Nat × Nat)) : (s.setRunning f x).ps = s.ps := rfl
@[simp] theorem State.setRunning_mem (s : State) (f : Nat) (x : Option (Nat × Nat)) : (s.setRunning f x).mem = s.mem := rfl
@[simp] theorem State.setRunning_flash (s : State) (f : Nat) (x : Option (Nat × Nat)) : (s.setRunning f x).flash = s.flash := rfl
@[simp] theorem State.setRunning_free (s : State) (f : Nat) (x : Option (Nat × Nat)) : (s.setRunning f x).free = s.free := rfl

@[simp] theorem State.setRunning_sys (s : State) (f : Nat) (x : Option (Nat × Nat)) : (s.setRunning f x).sys = s.sys := rfl
@[simp] theorem State.setRunning_posted (s : State) (f : Nat) (x : Option (Nat × Nat)) : (s.setRunning f x).posted = s.posted := rfl

end Sys2Proof.Machine
end

