-- ==== Sys2Proof/Laws/Asks.lean ====
section
/-! SUPPORT. What asking for power grants and for blocks of the system region can do: only `pwr` and `sys` change. -/

namespace Sys2Proof.Machine

/-- A fold of steps that change only the power state changes only the power state. -/
theorem State.foldl_pwr {α : Type} {f : State → α → State} (h : ∀ s a, ∃ w, f s a = { s with pwr := w }) (l : List α) (s : State) :
    ∃ w, l.foldl f s = { s with pwr := w } := by
  induction l generalizing s with
  | nil => exact ⟨s.pwr, rfl⟩
  | cons a l ih =>
    obtain ⟨w, hw⟩ := h s a
    obtain ⟨v, hv⟩ := ih (f s a)
    exact ⟨v, by rw [List.foldl_cons, hv, hw]⟩

theorem State.askGrant_only (s : State) (k : GrantKind) (m : Bool) (u : Nat) (cid : Option Nat) :
    ∃ w, s.askGrant k m u cid = { s with pwr := w } := ⟨_, rfl⟩

theorem State.askErase_only (s : State) (b n : Nat) : ∃ w, s.askErase b n = { s with pwr := w } :=
  State.foldl_pwr (fun s _ => s.askGrant_only _ _ _ _) _ s

theorem State.askTile_only (u : ProgUse) (cid : Option Nat) (part : Nat) (s : State) (t : Nat × Bytes) :
    ∃ w, State.askTile u cid part s t = { s with pwr := w } := by
  unfold State.askTile; split
  · exact s.askGrant_only _ _ _ _
  · exact ⟨s.pwr, rfl⟩

theorem State.askTiles_only (s : State) (u : ProgUse) (cid : Option Nat) (part : Nat) (ts : List (Nat × Bytes)) :
    ∃ w, s.askTiles u cid part ts = { s with pwr := w } := State.foldl_pwr (State.askTile_only u cid part) ts s

theorem State.dropBlocks_only (s : State) (p : SysUse → Bool) : ∃ w, s.dropBlocks p = { s with pwr := w } :=
  State.foldl_pwr (fun s _ => s.askGrant_only _ _ _ _) _ s

theorem State.askBlock_only (s : State) (u : SysUse) (cid : Option Nat) (f : Nat → Bytes) :
    ∃ w y, s.askBlock u cid f = { s with pwr := w, sys := y } := ⟨_, _, rfl⟩

/-- Removing a collection takes that collection, and no other, out of the table. -/
theorem State.removeColl_colls (s : State) (k : Coll) :
    (s.removeColl k).colls = s.colls.filter (fun c => decide (c.num ≠ k.num)) := by
  have h1 : ∀ t : State, (k.parts.foldl (fun s p => s.askErase p.1 p.2) t).colls = t.colls := fun t => by
    obtain ⟨w, hw⟩ := State.foldl_pwr (f := fun s (p : Nat × Nat) => s.askErase p.1 p.2) (fun s p => s.askErase_only p.1 p.2) k.parts t
    rw [hw]
  have h2 : ∀ (t : State) (p : SysUse → Bool), (t.dropBlocks p).colls = t.colls := fun t p => by
    obtain ⟨w, hw⟩ := t.dropBlocks_only p
    rw [hw]
  have h3 : ∀ (t : State) (p : Nat → Bool), (t.cfgForget p).colls = t.colls := fun _ _ => rfl
  simp only [State.removeColl, h3, h2, h1]
  rfl

end Sys2Proof.Machine
end

