-- ==== Sys2Proof/Laws/Beadline.lean ====
section
/-! SUPPORT. Laws of the Beadline station and of the channel chips. -/
namespace Sys2Proof.Machine

/-- A frame the station hears is taken and counted. -/
theorem State.hear_of_hears {s : State} {fr : BdlFrame} (h : s.hears fr) : s.hear fr = (true, s.heard) := by
  obtain ⟨h1, h2, h3, h4, h5, h6⟩ := h
  unfold State.hear
  rw [if_neg (by simp [h1, h2]), if_neg (by simp [h3]; omega), if_neg (by simp [h5]), if_neg (by simp [h6])]
  rfl

theorem State.heard_isFor (s : State) (fr : BdlFrame) : s.heard.isFor fr = s.isFor fr := rfl
theorem State.heard_isNew (s : State) (fr : BdlFrame) : s.heard.isNew fr = s.isNew fr := rfl
theorem State.heard_bdl (s : State) : s.heard.bdl = s.bdl := rfl
theorem State.heard_now (s : State) : s.heard.now = s.now := rfl

/-- Forwarding touches the forward buffer, or a counter. -/
theorem State.forward_frame (s : State) (fr : BdlFrame) (p : Bytes) :
    ∃ f d, s.forward fr p = { s with bdl := { s.bdl with forward := f }, dict := d } := by
  unfold State.forward
  split
  · exact ⟨_, _, rfl⟩
  · split
    · exact ⟨_, _, rfl⟩
    · exact ⟨_, _, rfl⟩

theorem State.passOn_frame (s : State) (fr : BdlFrame) :
    ∃ f d, s.passOn fr = { s with bdl := { s.bdl with forward := f }, dict := d } := by
  unfold State.passOn; split
  · exact State.forward_frame ..
  · exact ⟨_, _, rfl⟩

/-- Acting on a manager's frame touches the forward buffer, the list of frames seen and counters only. -/
theorem State.acted_frame (s : State) (fr : BdlFrame) :
    ∃ f d, s.acted fr = { s with bdl := { s.bdl with forward := f, seen := (fr.seq.toNat :: s.bdl.seen).take 8 }, dict := d } := by
  obtain ⟨f, d, e⟩ := State.passOn_frame s.heard fr
  exact ⟨f, d, by simp only [State.acted, e]; rfl⟩

/-- An object request of the manager is taken. -/
theorem State.takeOd_manager {s : State} {fr : BdlFrame} (h : s.managersFrame fr) (h2 : s.bdl.state ≠ 0) :
    s.takeOd fr = (true, s.acted fr) := by
  obtain ⟨h1, h3, h4, h5, h6⟩ := h
  obtain ⟨f, d, e⟩ := State.passOn_frame s.heard fr
  have a1 : (s.heard.passOn fr).isFor fr = true := by rw [e]; exact h4
  have a2 : (s.heard.passOn fr).isNew fr = true := by rw [e]; exact h5
  have a5 : (s.heard.passOn fr).bdl.manager = false := by rw [e]; exact h6
  have a6 : (s.heard.passOn fr).bdl.state ≠ 0 := by rw [e]; exact h2
  simp [State.takeOd, State.hear_of_hears h1, h3, State.acted, a1, a2, a5, a6]

/-- A node-control frame of the manager is taken; an assign to an unassigned station is not passed on. -/
theorem State.takeCtrl_manager {s : State} {fr : BdlFrame} {n : Nat} (h : s.managersFrame fr) (h2 : fr.type = 0x40)
    (h3 : beNat (slice fr.payload 0 1) = n) (hn : n ≠ 1 ∨ fr.dest ≠ 0xFE) : s.takeCtrl fr n = (true, s.acted fr) := by
  obtain ⟨h1, h5, h6, h7, h8⟩ := h
  have a1 : s.heard.isFor fr = true := h6
  have a2 : s.heard.isNew fr = true := h7
  have a3 : s.heard.bdl.manager = false := h8
  simp only [State.takeCtrl, h2, h3, State.hear_of_hears h1, h5, a1, a2, a3]
  rw [if_neg (by simp)]
  have : ¬ (n = 1 ∧ (true && true && !false) = true ∧ fr.dest = 0xFE) := by tauto
  rw [if_neg this]; simp [State.acted]

theorem State.takeCtrl_assign {s : State} {fr : BdlFrame} (h : s.managersFrame fr) (h2 : fr.type = 0x40)
    (h3 : beNat (slice fr.payload 0 1) = 1) (hn : fr.dest = 0xFE) : s.takeCtrl fr 1 = (true, s.heard.markSeen fr) := by
  obtain ⟨h1, h5, h6, h7, h8⟩ := h
  have a1 : s.heard.isFor fr = true := h6
  have a2 : s.heard.isNew fr = true := h7
  have a3 : s.heard.bdl.manager = false := h8
  simp only [State.takeCtrl, h2, h3, State.hear_of_hears h1, h5, a1, a2, a3]
  rw [if_neg (by simp)]
  simp [hn]

/-! ### Channel chips -/

theorem chips_get (l : List ChipClock) (f : ChipClock → ChipClock) (n j : Nat) :
    (l.zipIdx.map (fun x => if x.2 = n then f x.1 else x.1))[j]? = if j = n then (l[j]?).map f else l[j]? := by
  by_cases h : j = n
  · subst h; simp; cases l[j]? <;> simp
  · rw [if_neg h]; simp only [List.getElem?_map, List.getElem?_zipIdx]
    cases l[j]? <;> simp [h]

/-- Changing one chip's copy changes nothing else. -/
theorem State.modChip_changed {s : State} {chip : Nat} {c : ChipClock} (f : ChipClock → ChipClock)
    (h : s.clk.chips[chip]? = some c) : s.chipChanged (s.modChip chip f) chip (f c) := by
  refine ⟨rfl, ?_, ?_⟩
  · simp only [State.modChip]; rw [chips_get]; simp [h]
  · intro j hj; simp only [State.modChip]; rw [chips_get]; simp [hj]

end Sys2Proof.Machine
end

