-- ==== Sys2Proof/Laws/Memory.lean ====
section
/-! SUPPORT. Laws of sparse data, of memory and of the object dictionary: the canonical form is kept by every operation; what
a write changes is what it writes. -/
namespace Sys2Proof.Machine

/-! ### The canonical form is kept -/

theorem Sparse.okFrom_mono {α : Type} [DecidableEq α] {d : Nat → α} {m : List (Nat × α)} {a b : Nat} (hab : a ≤ b)
    (h : Sparse.okFrom d b m = true) : Sparse.okFrom d a m = true := by
  cases m with
  | nil => rfl
  | cons e m => simp only [Sparse.okFrom, Bool.and_eq_true, decide_eq_true_eq] at *; exact ⟨⟨by omega, h.1.2⟩, h.2⟩

theorem Sparse.okFrom_put {α : Type} [DecidableEq α] {d : Nat → α} {m : List (Nat × α)} {lo k : Nat} {v : α} (hk : lo ≤ k)
    (h : Sparse.okFrom d lo m = true) : Sparse.okFrom d lo (Sparse.put d m k v) = true := by
  induction m generalizing lo with
  | nil => unfold Sparse.put; split <;> simp_all [Sparse.okFrom]
  | cons e m ih =>
    simp only [Sparse.okFrom, Bool.and_eq_true, decide_eq_true_eq] at h
    unfold Sparse.put
    split
    · split
      · simp_all [Sparse.okFrom]
      · rename_i h1 h2
        simp only [Sparse.okFrom, Bool.and_eq_true, decide_eq_true_eq]
        exact ⟨⟨hk, h2⟩, ⟨h1, h.1.2⟩, h.2⟩
    · split
      · split
        · exact Sparse.okFrom_mono (by omega) h.2
        · rename_i h1 h2 h3
          simp only [Sparse.okFrom, Bool.and_eq_true, decide_eq_true_eq]
          exact ⟨⟨hk, h3⟩, h2 ▸ h.2⟩
      · simp only [Sparse.okFrom, Bool.and_eq_true, decide_eq_true_eq]
        exact ⟨h.1, ih (by omega) h.2⟩

theorem Sparse.wf_put {α : Type} [DecidableEq α] {d : Nat → α} {m : List (Nat × α)} {k : Nat} {v : α}
    (h : Sparse.wf d m = true) : Sparse.wf d (Sparse.put d m k v) = true := Sparse.okFrom_put (Nat.zero_le _) h

theorem Sparse.okFrom_filter {α : Type} [DecidableEq α] {d : Nat → α} {m : List (Nat × α)} {lo : Nat} {p : Nat × α → Bool}
    (h : Sparse.okFrom d lo m = true) : Sparse.okFrom d lo (m.filter p) = true := by
  induction m generalizing lo with
  | nil => rfl
  | cons e m ih =>
    simp only [Sparse.okFrom, Bool.and_eq_true, decide_eq_true_eq] at h
    rw [List.filter_cons]
    split
    · simp only [Sparse.okFrom, Bool.and_eq_true, decide_eq_true_eq]; exact ⟨h.1, ih h.2⟩
    · exact Sparse.okFrom_mono (by omega) (ih h.2)

theorem Sparse.wf_filter {α : Type} [DecidableEq α] {d : Nat → α} {m : List (Nat × α)} {p : Nat × α → Bool}
    (h : Sparse.wf d m = true) : Sparse.wf d (m.filter p) = true := Sparse.okFrom_filter h

theorem Sparse.wf_keep {α : Type} [DecidableEq α] {d : Nat → α} {m : List (Nat × α)} {p : Nat → Bool}
    (h : Sparse.wf d m = true) : Sparse.wf d (Sparse.keep p m) = true := Sparse.okFrom_filter h

theorem Sparse.wf_nil {α : Type} [DecidableEq α] (d : Nat → α) : Sparse.wf d ([] : List (Nat × α)) = true := rfl

/-! ### Reading after writing -/

theorem Sparse.get_of_lt {α : Type} [DecidableEq α] {d : Nat → α} {m : List (Nat × α)} {lo k : Nat} (hk : k < lo)
    (h : Sparse.okFrom d lo m = true) : Sparse.get d m k = d k := by
  induction m generalizing lo with
  | nil => rfl
  | cons e m ih =>
    simp only [Sparse.okFrom, Bool.and_eq_true, decide_eq_true_eq] at h
    rw [Sparse.get, if_neg (by omega)]
    exact ih (by omega) h.2

theorem Sparse.get_put_other {α : Type} [DecidableEq α] {d : Nat → α} {m : List (Nat × α)} {k j : Nat} {v : α} (hj : j ≠ k) :
    Sparse.get d (Sparse.put d m k v) j = Sparse.get d m j := by
  induction m with
  | nil => unfold Sparse.put; split <;> simp [Sparse.get, hj]
  | cons e m ih =>
    unfold Sparse.put
    split
    · split
      · rfl
      · simp [Sparse.get, hj]
    · split
      · rename_i h1 h2
        split
        · simp [Sparse.get, ← h2, hj]
        · simp [Sparse.get, ← h2, hj]
      · simp only [Sparse.get, ih]

theorem Sparse.okFrom_get_put {α : Type} [DecidableEq α] {d : Nat → α} {m : List (Nat × α)} {lo k : Nat} {v : α}
    (h : Sparse.okFrom d lo m = true) : Sparse.get d (Sparse.put d m k v) k = v := by
  induction m generalizing lo with
  | nil => unfold Sparse.put; split <;> simp_all [Sparse.get]
  | cons e m ih =>
    simp only [Sparse.okFrom, Bool.and_eq_true, decide_eq_true_eq] at h
    unfold Sparse.put
    split
    · rename_i h1
      split
      · rename_i h2
        rw [Sparse.get, if_neg (by omega), Sparse.get_of_lt (by omega) h.2, h2]
      · simp [Sparse.get]
    · rename_i h1
      split
      · rename_i h2
        split
        · rename_i h3
          rw [Sparse.get_of_lt (by omega) h.2, h3]
        · simp [Sparse.get]
      · rename_i h2
        rw [Sparse.get, if_neg h2]
        exact ih h.2

theorem Sparse.get_put_self {α : Type} [DecidableEq α] {d : Nat → α} {m : List (Nat × α)} {k : Nat} {v : α}
    (h : Sparse.wf d m = true) : Sparse.get d (Sparse.put d m k v) k = v := Sparse.okFrom_get_put h

/-! ### Memory (10 R238): every operation keeps the form -/

theorem Memory.wf_pokeByte {m : List Host.Cell} {a : Nat} {b : Byte} (h : Memory.wf m = true) :
    Memory.wf (pokeByte m a b) = true := Sparse.wf_put h

theorem Memory.wf_pokeBytes {m : List Host.Cell} {a : Nat} {bs : Bytes} (h : Memory.wf m = true) :
    Memory.wf (pokeBytes m a bs) = true := by
  induction bs generalizing m a with
  | nil => exact h
  | cons b bs ih => exact ih (Sparse.wf_put h)

theorem State.wf_poke {s : State} {a : Nat} {bs : Bytes} (h : Memory.wf s.mem = true) : Memory.wf (s.poke a bs).mem = true :=
  Memory.wf_pokeBytes h

theorem State.wf_hostWrite {s : State} {p : Port} {fn : Nat} {o : Bool} {a : Nat} {bs : Bytes} (h : Memory.wf s.mem = true) :
    Memory.wf (s.hostWrite p fn o a bs).mem = true := Memory.wf_pokeBytes h

/-- What a module reset keeps of memory is in the form too. -/
theorem Memory.wf_keep {m : List Host.Cell} {p : Nat → Bool} (h : Memory.wf m = true) : Memory.wf (Sparse.keep p m) = true :=
  Sparse.wf_keep h

theorem State.wf_reset : Memory.wf State.reset.mem = true := rfl

/-- A byte outside the ones written reads as before. -/
theorem Memory.get_pokeBytes_out {m : List Host.Cell} {a x : Nat} {bs : Bytes} (h : x < a ∨ a + bs.length ≤ x) :
    Sparse.get memDefault (pokeBytes m a bs) x = Sparse.get memDefault m x := by
  induction bs generalizing m a with
  | nil => rfl
  | cons b bs ih =>
    simp only [List.length_cons] at h
    rw [pokeBytes, ih (by omega), pokeByte, Sparse.get_put_other (by omega)]

/-- A byte among the ones written reads as written. -/
theorem Memory.get_pokeBytes_in {m : List Host.Cell} {a i : Nat} {bs : Bytes} (hm : Memory.wf m = true) (h : i < bs.length) :
    Sparse.get memDefault (pokeBytes m a bs) (a + i) = bs[i] := by
  induction bs generalizing m a i with
  | nil => simp at h
  | cons b bs ih =>
    cases i with
    | zero =>
      rw [pokeBytes, Memory.get_pokeBytes_out (by omega)]
      exact Sparse.get_put_self hm
    | succ i =>
      rw [pokeBytes]
      have e : a + (i + 1) = a + 1 + i := by omega
      rw [e]
      exact ih (Sparse.wf_put hm) (by simpa using h)

theorem State.byte_poke_out {s : State} {a x : Nat} {bs : Bytes} (h : x < a ∨ a + bs.length ≤ x) :
    (s.poke a bs).byte x = s.byte x := Memory.get_pokeBytes_out h

theorem State.byte_poke_in {s : State} {a i : Nat} {bs : Bytes} (hm : Memory.wf s.mem = true) (h : i < bs.length) :
    (s.poke a bs).byte (a + i) = bs[i] := Memory.get_pokeBytes_in hm h

/-! ### Objects of the dictionary -/

/-- An object just written reads as written. -/
theorem State.obj_setObj_self {s : State} {i u a v : Nat} (h : Sparse.wf dictDefault s.dict = true) :
    (s.setObj i u a v).obj i u a = v := Sparse.get_put_self h

/-- Every other key reads as before. -/
theorem State.obj_setObj_other {s : State} {i u a v i' u' a' : Nat} (h : objKey i' u' a' ≠ objKey i u a) :
    (s.setObj i u a v).obj i' u' a' = s.obj i' u' a' := Sparse.get_put_other h

theorem State.wf_setObj {s : State} {i u a v : Nat} (h : Sparse.wf dictDefault s.dict = true) :
    Sparse.wf dictDefault (s.setObj i u a v).dict = true := Sparse.wf_put h

theorem State.obj_count_self {s : State} {i u n a : Nat} (h : Sparse.wf dictDefault s.dict = true) :
    (s.count i u n a).obj i u a = s.obj i u a + n := State.obj_setObj_self h

end Sys2Proof.Machine
end

