-- ==== Sys2Proof/Laws/Ops.lean ====
section
/-! SUPPORT. Laws of the shared operations: what a lookup that answers says, what an update changes, what completing does. -/
namespace Sys2Proof.Machine

/-! ### Lists -/

theorem mapWhere_comp {α : Type} (p : α → Bool) (f g : α → α) (hp : ∀ x, p x = true → p (f x) = true) (l : List α) :
    mapWhere p g (mapWhere p f l) = mapWhere p (fun x => g (f x)) l := by
  induction l with
  | nil => rfl
  | cons a l ih =>
    simp only [mapWhere, List.map_cons] at *
    rw [ih]
    by_cases h : p a = true <;> simp_all

/-- Finding what an update changed. -/
theorem find_mapWhere {α : Type} {p : α → Bool} {f : α → α} {l : List α} {x : α} (hp : ∀ x, p x = true → p (f x) = true)
    (h : l.find? p = some x) : (mapWhere p f l).find? p = some (f x) := by
  induction l with
  | nil => cases h
  | cons a l ih =>
    rw [List.find?_cons] at h
    simp only [mapWhere, List.map_cons] at *
    rw [List.find?_cons]
    cases ha : p a with
    | true => rw [ha] at h; cases h; simp [hp _ ha]
    | false => rw [ha] at h; simp [ha]; simpa using ih h

/-- What an update of others does not change is found as before. -/
theorem find_mapWhere_other {α : Type} {p q : α → Bool} {f : α → α} {l : List α} (hq : ∀ x, q x = true → p x = false ∧ p (f x) = false) :
    (mapWhere q f l).find? p = l.find? p := by
  induction l with
  | nil => rfl
  | cons a l ih =>
    simp only [mapWhere, List.map_cons] at *
    rw [List.find?_cons, List.find?_cons, ih]
    cases ha : q a with
    | true => simp [(hq a ha).1, (hq a ha).2]
    | false => simp

theorem State.sq?_modSq {s : State} {q : Nat} {f : Sq → Sq} {x : Sq} (h : s.sq? q = some x) (hf : ∀ y, (f y).qid = y.qid) :
    (s.modSq q f).sq? q = some (f x) := by
  apply find_mapWhere _ h; intro y hy; simpa [hf] using hy

theorem State.cq?_modCq {s : State} {q : Nat} {f : Cq → Cq} {x : Cq} (h : s.cq? q = some x) (hf : ∀ y, (f y).qid = y.qid) :
    (s.modCq q f).cq? q = some (f x) := by
  apply find_mapWhere _ h; intro y hy; simpa [hf] using hy

theorem State.cmd?_modCmd {s : State} {n : Nat} {f : Cmd → Cmd} {x : Cmd} (h : s.cmd? n = some x) (hf : ∀ y, (f y).cid = y.cid) :
    (s.modCmd n f).cmd? n = some (f x) := by
  apply find_mapWhere _ h; intro y hy; simpa [hf] using hy

theorem State.coll?_modColl {s : State} {n : Nat} {f : Coll → Coll} {x : Coll} (h : s.coll? n = some x)
    (hf : ∀ y, (f y).num = y.num) : (s.modColl n f).coll? n = some (f x) := by
  apply find_mapWhere _ h; intro y hy; simpa [hf] using hy

/-! ### What a lookup that answers says -/

theorem State.cmd?_cid {s : State} {cid : Nat} {c : Cmd} (h : s.cmd? cid = some c) : c.cid = cid := by
  have := List.find?_some h; simpa using this

theorem State.sq?_qid {s : State} {q : Nat} {x : Sq} (h : s.sq? q = some x) : x.qid = q := by
  have := List.find?_some h; simpa using this

theorem State.cq?_qid {s : State} {q : Nat} {x : Cq} (h : s.cq? q = some x) : x.qid = q := by
  have := List.find?_some h; simpa using this

theorem State.coll?_num {s : State} {n : Nat} {c : Coll} (h : s.coll? n = some c) : c.num = n := by
  have := List.find?_some h; simpa using this

/-- A ready command is fetched, of its opcode, waits for no translation of its buffer, and is served. -/
theorem State.ready?_some {s : State} {cid op : Nat} {c : Cmd} (h : s.ready? cid op = some c) :
    s.cmd? cid = some c ∧ c.cid = cid ∧ c.stage = .fetched ∧ c.opcode = op ∧ c.page = .none ∧ s.served c = true := by
  unfold State.ready? at h
  split at h
  · cases h
  · rename_i d hd
    split at h
    · cases h; rename_i hc; exact ⟨hd, State.cmd?_cid hd, hc⟩
    · cases h

/-! ### Orders and reads -/

theorem State.order_eq_ordered (s : State) (rank sub : Nat) (body : OrderBody) : s.order rank sub body = s.ordered rank sub body := rfl

theorem State.count_eq_setObj (s : State) (i u n a : Nat) : s.count i u n a = s.setObj i u a (s.obj i u a + n) := rfl

/-- A byte that a reset keeps reads as before, another one as unlisted. -/
theorem Sparse.get_keep {α : Type} {d : Nat → α} {p : Nat → Bool} (m : List (Nat × α)) (a : Nat) :
    Sparse.get d (Sparse.keep p m) a = if p a = true then Sparse.get d m a else d a := by
  induction m with
  | nil => simp [Sparse.keep, Sparse.get]
  | cons e m ih =>
    simp only [Sparse.keep, List.filter_cons] at *
    split
    · rename_i hp
      simp only [Sparse.get]
      rw [ih]
      by_cases h : a = e.1
      · subst h; simp [hp]
      · simp [h]
    · rename_i hp
      rw [ih]
      simp only [Sparse.get]
      by_cases h : a = e.1
      · subst h; simp [hp]
      · simp [h]

/-! ### Completing a command -/

@[simp] theorem leBytes_length (n v : Nat) : (leBytes n v).length = n := by
  induction n generalizing v with
  | zero => rfl
  | succ n ih => simp [leBytes, ih]

/-- A completion entry is 32 bytes (12 R302). -/
@[simp] theorem completionBytes_length (cmdId sqHead sqId : Nat) (phase : Bool) (d : Done) (attn seq tick : Nat) :
    (completionBytes cmdId sqHead sqId phase d attn seq tick).length = 32 := by simp [completionBytes]

/-- What completing does to a command of an active queue that ends without failure and without flags: one entry in its
completion queue, its counts, and the command is gone. -/
theorem State.finish_active {s : State} {c : Cmd} {q : Sq} {k : Cq} {d : Done} (h : s.cmd? c.cid = some c) (h1 : c.silent = false)
    (h2 : c.restarted = false) (h3 : c.flags = Flags.none) (h4 : s.sq? c.sq = some q) (h5 : q.state = .active)
    (h6 : s.cq? q.cq = some k) (h7 : d.status = 0) (h8 : d.quals = 0) : s.finish c.cid d = s.completed c q k d := by
  have hq : q.qid = c.sq := State.sq?_qid h4
  unfold State.finish
  simp only [h, h1, h2, h3, h7, h8, (by decide : orQuals (orQuals 0 Flags.none.quals) 0 = 0), Bool.false_and, Bool.false_eq_true,
    if_false]
  rw [if_neg (by decide)]
  have e4 : ({ s with
      cmds := s.cmds.filter (fun x => decide (x.cid ≠ c.cid)) } : State).sq? c.sq = some q := h4
  simp only [e4, State.post]
  have e6 : ({ s with
      cmds := s.cmds.filter (fun x => decide (x.cid ≠ c.cid)) } : State).cq? q.cq = some k := h6
  simp only [e6]
  have hdrain : ∀ t : State, t.sqs = mapWhere (fun x => decide (x.qid = q.qid)) (fun x => x.countDone 0) s.sqs → t.drain 4 c.sq = t := by
    intro t ht
    have : t.sq? c.sq = some (q.countDone 0) := by
      unfold State.sq?; rw [ht, hq]
      exact find_mapWhere (by intro x hx; simpa [Sq.countDone] using hx) h4
    unfold State.drain; simp only [this, Sq.countDone, h5]
    simp
  rw [hdrain]
  · cases d; simp only at h7 h8; subst h7 h8
    have hp : ∀ (l : List Cmd) (p : Port), ({ s with cmds := l } : State).port p = s.port p := by intro l p; cases p <;> rfl
    simp only [State.completed, State.writeEntry, State.hostWrite, State.poke, State.modCq, State.modSq, hq, hp,
      completionBytes_length, Bool.false_and]
    rfl
  · simp only [State.writeEntry, State.hostWrite, State.poke, State.modCq, State.modSq, hq]; rfl

end Sys2Proof.Machine
end

