-- ==== Sys2Proof/WellFormed.lean ====
section
/-! DEFINITION. Which terms of `Instr` stand for a command that can reach the module. -/
namespace Sys2Proof

/-- A command's operands have the sizes the manual gives them: a submission entry is 128 bytes (12 R299), a mailbox message
64 (14 R375), a queue number below 262,144 (12 R293), one reading for each of the 47 sensors (16 R417), a Beadline payload
at most 64 bytes (15 R381), a nonce 32 bytes (17 R446). -/
def Instr.wf (i : Instr) : Bool :=
  match i with
  | .entryFetch q entry => decide (q < 262144) && decide (entry.length = 128)
  | .sqTailDoorbell _ _ q _ => decide (q < 262144)
  | .cqHeadDoorbell _ _ q _ => decide (q < 262144)
  | .cqStall q => decide (q < 262144)
  | .sqReadError q => decide (q < 262144)
  | .mbxSend _ _ _ msg => decide (msg.length = 64)
  | .thermalSample readings => decide (readings.length = 47)
  | .winWrite _ _ _ data => decide (data.length ≤ 4096)
  | .syncFrame fr _ _ => decide (fr.payload.length ≤ 64)
  | .odRead fr => decide (fr.payload.length ≤ 64)
  | .odWrite fr => decide (fr.payload.length ≤ 64)
  | .challenge _ _ nonce => decide (nonce.length = 32)
  | .getMeasurements _ _ nonce => decide (nonce.length = 32)
  | _ => true

end Sys2Proof
end

