-- ==== Sys2Proof/Tests/Slice0.lean ====
section
/-! SUPPORT. The model's own tests, with values from the manual's worked examples; the smoke test of WellFormed; and for each
statement that has hypotheses a witness: concrete states and operands that meet the hypotheses of each clause together. Two
hypotheses rest on constants of Config, which have no value, and have no witness: that a firmware image passes its signature
check (17 R434) and that an offset lies within the certificate chain (17 R446). -/
namespace Sys2Proof.Tests
open Sys2Proof Sys2Proof.Machine

set_option Elab.async false

/-! ### Small states the tests and witnesses start from -/

/-- A submission entry with these fields, each (offset, length, value). -/
def entryOf (fs : List (Nat × Nat × Nat)) : Bytes := fs.foldl (fun e f => patch e f.1 (leBytes f.2.1 f.2.2)) (zeros 128)

/-- Command 0 of queue 5 on port A, with these fields. -/
def cmdOf (stage : CmdStage) (fs : List (Nat × Nat × Nat)) : Cmd where
  cid := 0
  sq := 5
  port := .A
  fn := 0
  part := 0
  cls := 0
  admin := false
  pasid := none
  silent := false
  entry := entryOf fs
  stamp := 900
  fetchTick := 901
  stage := stage
  inbuf := []
  item := none
  superseded := false
  judged := false
  flags := Flags.none
  restarted := false
  restartAt := none
  admTick := none
  waitTicks := 0
  todo := none
  asked := []
  askTick := 0
  page := .none
  logWait := false
  dw5 := 0
  dw6 := 0
  dw7 := 0

/-- Queue 5, of four entries, on port A. -/
def sq5 : Sq where
  qid := 5
  state := .active
  port := .A
  fn := 0
  part := 0
  cls := 0
  cq := 5
  base := 0x1000
  depth := 4
  head := 0
  tail := 1
  admin := false
  pasid := none
  stamps := [(1, 900)]
  heldSince := none
  stallCounted := false
  overruns := 0
  entryHeld := none
  stageHeld := false
  jobsSubmitted := 0
  jobsCompleted := 0
  jobsFailed := [0, 0, 0, 0, 0, 0]
  deleteCq := false
  drain := none

/-- Its completion queue. -/
def cq5 : Cq where
  qid := 5
  port := .A
  fn := 0
  part := 0
  base := 0x2000
  depth := 4
  write := 0
  head := 0
  reserved := 0
  phase := true
  ien := false
  vector := 0
  signal := false

/-- The module at tick 1,000, in service, with one queue pair and these commands. -/
def serving (cs : List Cmd) : State :=
  { State.reset with
    clk := { Clock.reset with counter := 1000, world := 1000 }
    boot := { Boot.reset with stage := 12, ready := true }
    sqs := [sq5]
    cqs := [cq5]
    nextCid := 1
    cmds := cs }

/-- The same with one fetched command of this opcode and these further fields. -/
def withCmd (op : Nat) (fs : List (Nat × Nat × Nat)) : State := serving [cmdOf .fetched ((0, 1, op) :: fs)]

/-- A small ready collection of 64 F8 dimensions, with nothing in it. -/
def collOf (state : Nat) : Coll where
  num := 0
  state := state
  part := 0
  dims := 64
  format := 0
  metric := 0
  sketchBits := 64
  degree := 8
  payload := 0
  capacity := 1024
  schema := []
  proj := []
  thresh := []
  entrySet := []
  segments := 1
  nodesIssued := 0
  skipped := []
  dir := []
  tombs := []
  gens := []
  retired := []
  mapBase := 0
  buckets := []
  retiredBuckets := []
  jBase := 0
  rem := []
  nextSeq := 0
  segBase := 0
  workBase := 0
  hbmCharged := 0
  tilesReserved := 0
  hopHistory := []
  repair := 0
  buildForm := none
  imageTiles := 0
  leftOut := []
  descVersion := 0
  dropTick := 0

/-- The serving module with that collection. -/
def withColl (state : Nat) (cs : List Cmd) : State := { serving cs with colls := [collOf state] }

/-- The fields of a search of it: an F8 query of 64 bytes, room for its result. -/
def searchFields (op : Nat) : List (Nat × Nat × Nat) :=
  [(0, 1, op), (16, 4, 64), (20, 4, 4096), (24, 8, 0x8000), (50, 1, 0)]

/-- A search with walk parameters L = 16, W = 4, H = 16, M = 10, k = 10. -/
def searchOf (phase : SPhase) : Search :=
  newSearch (cmdOf .searching (searchFields Op.search)) (collOf 2) 0
    { l := 16, w := 4, h := 16, m := 10, k := 10, f := 0, mode := 0, model := 0xFFFF, filter := false, nodeIds := false
      payloads := false, tq := 0, e := 0, wAuto := false } phase

/-- A walking search at tick 1,000 whose deadline lies ahead. -/
def walkingSearch : Search :=
  { searchOf .walking with deadline := 2000, cut := 1800, admTick := 990, context := true, need := .none }

/-- The module with these searches of its command. -/
def withSearches (xs : List Search) : State :=
  { withColl 2 [cmdOf .searching (searchFields Op.search)] with searches := xs }

/-- A tile instruction with nothing set but its operation. -/
def tileOf (op : Nat) : TileInstr where
  op := op
  sub := 0
  fa := 3
  fb := 3
  fc := 3
  pre := 0
  iov := false
  red := false
  fuse := 0
  rowFirst := false
  rowLast := false
  save := true
  m := 1
  n := 1
  curve := 0
  k := 1
  owner := 0
  split := false
  contIn := false
  contOut := false
  blockFirst := 0
  a := 0
  b := 64
  c := 128
  p := 192
  f := 256
  imm := 0
  blocks := 0
  reserved := false

/-- A read stream over a frame's own SRAM, of one tile of 64 bytes. -/
def streamProgOf (write : Bool) (code : List StreamInstr) : StreamProg where
  write := write
  check := false
  persistent := true
  fetchAhead := 2
  halfTiles := 1
  halfMin := 1
  segBytes := 64
  tileSegs := 1
  buffer := 0
  fpBase := 0
  fpLength := 4096
  base := 0
  code := code

/-- A resident general model with this program. -/
def modelOf (code : List TileInstr) (streams : List StreamProg) : Model where
  handle := 0
  state := .resident
  part := 0
  pkg :=
    { version := 0, kind := 0, inFormat := 0, outFormat := 0, inDims := 64, outDims := 64, maxTokens := 16, stepTokens := 64
      actFixed := 0, actPerToken := 0, rescoreTicks := 0, weightTiles := 0, programTiles := 1
      prog :=
        { subn := false, batchInvariant := true, framesMin := 1, code := code, saves := [], sram := 4096, stepTicks := 1
          stepTiles := 1, stepPower := 1, streams := streams }
      curves := [⟨0, 0, zero32, zero32, [zero32, BitVec.ofNat 32 0x3F800000], [[zero32, zero32, zero32, zero32]]⟩] }
  tiles := []
  packed := []
  hostHome := false
  hostAddr := 0
  mirror := none
  placement := 0
  holds := 0
  loadWaits := false
  lastRelease := 0
  loadGrant := none
  loadStart := 0
  hbmBase := 0x0001000600000000
  reloading := []

/-- The context of its step on frame 0. -/
def ctxOf (m : Model) : FrameCtx := { newCtx 0 0 0 [0] m.pkg.prog with started := true, slot := 1 }

/-- The sequence its step runs. -/
def seqOf : Seqn where
  entry := 0
  state := .running
  part := 0
  handle := 0
  tokens := 1
  reservation := 0
  joinTick := 990
  sq := 5
  cid := 0
  cls := 0
  fetchTick := 901
  fault := none
  batch := none
  holding := true
  mark := .live
  input := []
  outBytes := 0
  steps := 0

/-- The module with that model, its sequence, and this context running on frame 0. -/
def running (m : Model) (c : FrameCtx) : State :=
  { serving [cmdOf .sequence [(0, 1, Op.run), (20, 4, 4096), (24, 8, 0x8000)]] with
    tensor := { Tensor.reset with models := [m], seqs := [seqOf], ctxs := [c], running := [some (0, 0)] ++ List.replicate 15 none } }

theorem witness_stepRunsFront : ∃ (s : State) (q : List Instr), s.pending = Instr.tick :: q :=
  ⟨{ State.reset with pending := [.tick] }, [], rfl⟩

/-- A command of each row that registers its effect is ready. -/
theorem witness_commandRowsRegister :
    ∀ op ∈ [Op.rehome, Op.collectionCreate, Op.objWrite, Op.collectionDrop, Op.modelEvict, Op.tierMove, Op.flush, Op.queueCreate,
      Op.queueDelete, Op.queueReset, Op.objRead],
      ∃ c, (withCmd op []).ready? 0 op = some c ∧ c.fetchTick < (withCmd op []).now := by
  intro op h
  refine ⟨cmdOf .fetched [(0, 1, op)], ?_⟩
  revert op
  decide +kernel

theorem witness_doorbellStamped : State.reset.takes .A = true := by decide

theorem witness_registerWritesStamped : (State.reset.takes .A = true ∧ regAccessOk 0x18 4 = true)
    ∧ (regAccessOk 0x20 8 = true ∧ regAt 0x20 = some (0x20, 0x20, 1))
    ∧ (regAccessOk 0x18 8 = true ∧ regAt 0x18 = some (0x18, 0x18, 0)) ∧ regAccessOk 0x18 2 = false := by decide +kernel

theorem witness_windowRowsCommit : State.reset.bar4 .A 0 = true ∧ (State.reset.window (winKey .A 0)).pending = false
    ∧ ((State.reset.windowAsked .A 0 0 ⟨0, 0, 0, 0, 0⟩ []).window (winKey .A 0)).pending = true := by decide +kernel

theorem witness_resetRowsStamped : State.reset.up = true ∧ (State.reset.port .A).inReset = false
    ∧ (0 : Fin 64).val ≤ (State.reset.port .A).vfs ∧ State.reset.pwr.mrstLow = false
    ∧ { State.reset with pwr := { State.reset.pwr with mrstLow := true } }.pwr.mrstLow = true := by decide

theorem witness_objectWriteRowsStamped : (withCmd Op.objWrite [(32, 2, 0x3010), (34, 1, 2)]).ready? 0 Op.objWrite
      = some (cmdOf .fetched [(0, 1, Op.objWrite), (32, 2, 0x3010), (34, 1, 2)])
    ∧ (cmdOf .fetched [(0, 1, Op.objWrite), (32, 2, 0x3010), (34, 1, 2)]).field 32 2 = 0x3010
    ∧ (cmdOf .fetched [(0, 1, Op.objWrite), (32, 2, 0x3010), (34, 1, 2)]).field 34 1 = 2
    ∧ State.reset.bar4 .A 0 = true ∧ (State.reset.window (winKey .A 0)).pending = false
    ∧ { State.reset with bdl := { Bdl.reset with state := 2 } }.bdl.state ≠ 0 := by decide +kernel

/-- Each clause of a doorbell's effect, at the ends of its range: the greatest tail below the depth, the depth itself. -/
theorem witness_doorbellEffect : (serving []).sq? 5 = some sq5 ∧ sq5.state = .active ∧ 3 < sq5.depth ∧ sq5.depth ≤ 4
    ∧ (serving []).cq? 5 = some cq5 ∧ (0 + cq5.depth - cq5.head) % cq5.depth ≤ cq5.held
    ∧ cq5.held < (1 + cq5.depth - cq5.head) % cq5.depth := by decide +kernel
/-- The three clauses of NOP: without a wait, with one, and the end of a wait at its very limit. -/
theorem witness_nopCompletes :
    (∃ c, (withCmd Op.nop []).cmd? 0 = some c ∧ c.stage = .fetched ∧ c.opcode = Op.nop ∧ c.silent = false ∧ c.restarted = false
      ∧ bit (c.field 32 1) 0 = false ∧ c.fetchTick < (withCmd Op.nop []).now ∧ c.flags = Flags.none)
    ∧ (∃ c, (withCmd Op.nop [(32, 1, 1)]).cmd? 0 = some c ∧ c.stage = .fetched ∧ bit (c.field 32 1) 0 = true)
    ∧ (∃ c, (serving [cmdOf (.nopWait 0 1000) [(0, 1, Op.nop)]]).cmd? 0 = some c ∧ c.stage = .nopWait 0 1000)
    ∧ (serving []).sq? 5 = some sq5 ∧ sq5.state = .active ∧ (serving []).cq? 5 = some cq5 := by
  refine ⟨⟨cmdOf .fetched [(0, 1, Op.nop)], ?_⟩, ⟨cmdOf .fetched [(0, 1, Op.nop), (32, 1, 1)], ?_⟩,
    ⟨cmdOf (.nopWait 0 1000) [(0, 1, Op.nop)], ?_⟩, ?_⟩ <;> decide +kernel

/-- A completion queue without a free slot, and one with: an entry that passes its checks, and one of no known opcode. -/
theorem witness_entryFetchReserves :
    (serving []).fetches sq5 (entryOf [(0, 1, Op.nop), (4, 1, 0xFF)]) = true ∧ { cq5 with reserved := 3 }.free = 0 ∧ cq5.free ≠ 0
    ∧ (serving []).stagingWaits = false
    ∧ ((serving []).fetched sq5 (entryOf [(0, 1, Op.nop), (4, 1, 0xFF)])).checkEntry ((serving []).newCmd sq5 (entryOf [(0, 1, Op.nop), (4, 1, 0xFF)]))
        = Status.success
    ∧ ((serving []).fetched sq5 (entryOf [(0, 1, 0xEE)])).checkEntry ((serving []).newCmd sq5 (entryOf [(0, 1, 0xEE)]))
        ≠ Status.success := by decide +kernel

theorem witness_queueErrorsCounted :
    { sq5 with heldSince := some 0 }.heldSince = some 0 ∧ (serving []).obj 0x2010 2 < 100001 - 0
    ∧ (serving []).sq? 5 = some sq5 ∧ (serving []).cq? sq5.cq = some cq5 ∧ (serving []).fetches sq5 [] = true ∧ cq5.free ≠ 0
    ∧ (∃ c, (withCmd Op.insert [(16, 4, 64)]).cmd? 0 = some c ∧ c.stage = .fetched ∧ opIn c.opcode = true ∧ c.inLen ≠ 0) := by
  refine ⟨by decide, by decide +kernel, by decide +kernel, by decide +kernel, by decide +kernel, by decide,
    cmdOf .fetched [(0, 1, Op.insert), (16, 4, 64)], ?_⟩
  decide +kernel

/-- A search of a small collection passes its checks. -/
theorem witness_searchRowsWait :
    ((withColl 2 [cmdOf .fetched (searchFields Op.search)]).ready? 0 Op.search).isSome = true
    ∧ (withColl 2 []).coll? (cmdOf .fetched (searchFields Op.search)).collByte = some (collOf 2)
    ∧ (match (withColl 2 []).searchParams (cmdOf .fetched (searchFields Op.search)) (collOf 2) with
      | some p => ((withColl 2 []).queriesOf (cmdOf .fetched (searchFields Op.search)) (collOf 2) p 1).all
          (fun x => x.queryOk (collOf 2))
      | none => false) = true := by decide +kernel

/-- The same for a batch of one query, and for a RERANK of one listed id. -/
theorem witness_searchRowsWait_batch :
    (match (withColl 2 []).searchParams (cmdOf .fetched
          [(0, 1, Op.searchBatch), (16, 4, 64), (20, 4, 4096), (60, 2, 1), (64, 4, 512)]) (collOf 2) with
      | some _ => true
      | none => false) = true
    ∧ (match (withColl 2 []).searchParams (cmdOf .fetched
          [(0, 1, Op.rerank), (16, 4, 128), (20, 4, 4096), (44, 2, 1), (60, 2, 1)]) (collOf 2) with
      | some p => ((withColl 2 []).queriesOf (cmdOf .fetched
          [(0, 1, Op.rerank), (16, 4, 128), (20, 4, 4096), (44, 2, 1), (60, 2, 1)]) (collOf 2) p 1).all
          (fun x => x.queryOk (collOf 2))
      | none => false) = true := by decide +kernel

/-- A deadline one tick too far. -/
theorem witness_deadlineTooFar :
    (match (withColl 2 []).searchParams (cmdOf .searching ((32, 4, 1001001) :: searchFields Op.search)) (collOf 2) with
      | some _ => true
      | none => false) = true
    ∧ (cmdOf .searching ((32, 4, 1001001) :: searchFields Op.search)).field 32 4 ≠ 0
    ∧ 1000 + (withColl 2 []).obj 0x3100 2 0 < extendTick 1001001 1000 := by decide +kernel

/-- A waiting search that is judged good and finds a free context. -/
theorem witness_admissionAdmits :
    (withSearches [searchOf .waiting]).up = true ∧ (withSearches [searchOf .waiting]).dueCommits = []
    ∧ (withSearches [searchOf .waiting]).search? 0 0 = some (searchOf .waiting)
    ∧ (searchOf .waiting).firstAdm = none ∧ (searchOf .waiting).began = false
    ∧ (withSearches [searchOf .waiting]).admissible 0 = [searchOf .waiting]
    ∧ (withSearches [searchOf .waiting]).contextsUsed 0 < recContexts ((withSearches [searchOf .waiting]).partRec 0)
    ∧ (match ((withSearches [searchOf .waiting]).modCmd 0 (fun d => { d with admTick := some 1000 })).judge (searchOf .waiting)
        (cmdOf .searching (searchFields Op.search)) 1000 with
      | .ok y => decide (y.params.mode ≠ 2) && !y.isRerank && decide (y.coll = 0)
      | .error _ => false) = true := by decide +kernel

/-- An expansion sent to a rod in time, one whose reply is formed, alone or beside another. -/
def sentExp (node : Nat) (stage : ExpStage) : Expansion :=
  { node := node, gen := 0, tile := 0, recIx := 0, cached := false, deadline := 1100, stage := stage }

/-- A round to open; an expansion sent in time; a reply formed, alone and beside one still out. -/
theorem witness_walkRowsStep :
    (∃ x, (withSearches [x]).search? 0 0 = some x ∧ (withSearches [x]).coll? x.coll = some (collOf 2)
      ∧ x.phase = .walking ∧ x.open_ = [] ∧ x.nextRound ≤ (withSearches [x]).now ∧ (withSearches [x]).now < x.cut)
    ∧ (∃ x e, (withSearches [x]).search? 0 0 = some x ∧ x.open_.find? (fun e => decide (e.node = 0)) = some e ∧ e.stage = .sent
      ∧ (withSearches [x]).chipReads [e.tile] = true ∧ (withSearches [x]).rodInTime e.tile e.deadline = true)
    ∧ (∃ x e, (withSearches [x]).search? 0 0 = some x ∧ x.open_.find? (fun e => decide (e.node = 0)) = some e
      ∧ e.stage = .formed (some ⟨false, 0, false, []⟩) ∧ (withSearches [x]).inTime e.deadline = true
      ∧ (withSearches [x]).now < x.cut ∧ x.open_ = [e])
    ∧ (∃ x e d, (withSearches [x]).search? 0 0 = some x ∧ x.open_.find? (fun e => decide (e.node = 0)) = some e
      ∧ e.stage = .formed (some ⟨false, 0, false, []⟩) ∧ (withSearches [x]).inTime e.deadline = true
      ∧ (withSearches [x]).now < x.cut ∧ d ∈ x.open_ ∧ d.node ≠ 0 ∧ d.stage = .sent) := by
  refine ⟨⟨walkingSearch, ?_⟩,
    ⟨{ walkingSearch with open_ := [sentExp 0 .sent] }, sentExp 0 .sent, ?_⟩,
    ⟨{ walkingSearch with open_ := [sentExp 0 (.formed (some ⟨false, 0, false, []⟩))] },
      sentExp 0 (.formed (some ⟨false, 0, false, []⟩)), ?_⟩,
    ⟨{ walkingSearch with open_ := [sentExp 0 (.formed (some ⟨false, 0, false, []⟩)), sentExp 1 .sent] },
      sentExp 0 (.formed (some ⟨false, 0, false, []⟩)), sentExp 1 .sent, ?_⟩⟩ <;> decide +kernel

/-- A reply lost by one tick; a cut at its very tick; a rescoring cut at its very tick. -/
theorem witness_searchTimersAct :
    (∃ x, (withSearches [x]).search? 0 0 = some x ∧ (withSearches [x]).lostReply x = true ∧ (withSearches [x]).tags = [])
    ∧ (∃ x, (withSearches [x]).search? 0 0 = some x ∧ x.phase = .walking ∧ x.cut ≤ (withSearches [x]).now
      ∧ (withSearches [x]).coll? x.coll = some (collOf 2) ∧ x.need = .waiting)
    ∧ (∃ x, (withSearches [x]).search? 0 0 = some x ∧ x.phase = .rescoring ∧ x.deadline ≤ (withSearches [x]).now) := by
  refine ⟨⟨{ walkingSearch with open_ := [{ sentExp 0 .sent with deadline := 999 }] }, ?_⟩,
    ⟨{ walkingSearch with cut := 1000, need := .waiting }, ?_⟩,
    ⟨{ walkingSearch with phase := .rescoring, deadline := 1000 }, ?_⟩⟩ <;> decide +kernel

theorem witness_scannerRows :
    (∃ s : State, s.scan = none ∧ s.scanChoice = some 0 ∧ s.scanFree ≤ s.now)
    ∧ (∃ (s : State) (p : ScanPass), s.scan = some p ∧ p.ends ≤ s.now)
    ∧ (∃ x, (withSearches [x]).search? 0 0 = some x ∧ (withSearches [x]).coll? x.coll = some (collOf 2) ∧ x.need = .running
      ∧ (withSearches [x]).now < x.cut ∧ x.phase ≠ .walked) := by
  refine ⟨⟨withSearches [{ walkingSearch with need := .waiting }], ?_⟩,
    ⟨{ withSearches [] with scan := some ⟨0, 990, 1000, [(0, 0)]⟩ }, ⟨0, 990, 1000, [(0, 0)]⟩, ?_⟩,
    ⟨{ walkingSearch with need := .running }, ?_⟩⟩ <;> decide +kernel

/-- A candidate of the remainder whose vector is asked for or has come back. -/
def remCand (read : ReadStage) : RankCand := ⟨true, 0, 0, 0, 7, 0, read, none, [], []⟩

/-- A search that rescores this candidate. -/
def ranking (read : ReadStage) : Search := { walkingSearch with phase := .rescoring, rank := [remCand read] }

/-- A vector asked for; one that came back, in each mode; one whose tile failed its check. -/
theorem witness_vectorRows :
    (∃ x r, (withSearches [x]).search? 0 0 = some x ∧ (withSearches [x]).coll? x.coll = some (collOf 2) ∧ x.rank[0]? = some r
      ∧ r.read = .sent 1100 ∧ r.fromRem = true ∧ (withSearches [x]).rodsRead r.asked 1100 = true)
    ∧ (∀ bs ∈ [some [], none], ∀ mode ∈ [0, 1, 2], ∃ x r, (withSearches [x]).search? 0 0 = some x
      ∧ (withSearches [x]).coll? x.coll = some (collOf 2) ∧ x.rank[0]? = some r ∧ r.read = .returned 1100 bs
      ∧ (withSearches [x]).inTime 1100 = true ∧ (withSearches [x]).now < x.deadline ∧ x.params.mode = mode) := by
  refine ⟨⟨ranking (.sent 1100), remCand (.sent 1100), by decide +kernel⟩, ?_⟩
  intro bs h mode g
  refine ⟨{ ranking (.returned 1100 bs) with params := { walkingSearch.params with mode := mode } },
    remCand (.returned 1100 bs), ?_⟩
  revert mode
  revert bs
  decide +kernel
/-- An item of the remainder. -/
def remItem (ext : BitVec 64) : RemItem := ⟨ext, 900, none, 0, 0, 0, [], zeros 64, none, false⟩

/-- The collection with one item in its remainder. -/
def collRem : Coll := { collOf 2 with rem := [remItem 7], nextSeq := 1 }

def fetchCmd : Cmd := cmdOf .fetched [(0, 1, Op.fetch), (60, 2, 1)]
def buildCmd : Cmd := cmdOf .fetched [(0, 1, Op.bulkBuild), (36, 4, 1), (16, 4, 128)]
def fetchVec : Cmd := { cmdOf .fetched [(0, 1, Op.fetch), (32, 1, 1), (60, 2, 1)] with inbuf := leBytes 8 7 }
def twoCmd : Cmd := cmdOf .fetched [(0, 1, Op.bulkBuild), (36, 4, 2), (16, 4, 256)]

/-- The collection with one item whose journal tile is programmed. -/
def collFetch : Coll := { collRem with rem := [{ remItem 7 with programmed := true }] }

/-- A FETCH of one id that is not there, as it begins and with its reads done; one of an item, whose tile is still to be asked. -/
theorem witness_itemRows :
    ((withColl 2 [fetchCmd]).ready? 0 Op.fetch = some fetchCmd ∧ fetchCmd.fetchTick < 1000 ∧ fetchCmd.todo = none
      ∧ (match ((withColl 2 [fetchCmd]).beginFetch { fetchCmd with inbuf := zeros 8 } (collOf 2)).cmd? 0 with
        | some d => decide (d.todo = some []) && decide (d.asked = [])
        | none => false) = true)
    ∧ (∃ d : Cmd, (withColl 2 [d]).ready? 0 Op.fetch = some d ∧ d.todo = some [] ∧ (withColl 2 [d]).rodsRead d.asked 0 = true
      ∧ d.asked = [] ∧ (withColl 2 [d]).rodsOutNow = [] ∧ (withColl 2 [d]).units.lost = []
      ∧ d.fetchIds.map (fun i => (i, (withColl 2 [d]).fetchOne (collOf 2) 1000 (d.field 32 1) i)) = [(0, some ⟨0, 0xFFFFFFFFFF, 0, [], []⟩)])
    ∧ (match ({ withColl 2 [fetchVec] with colls := [collFetch] }.beginFetch fetchVec collFetch).cmd? 0 with
        | some d => decide (d.todo ≠ some [])
        | none => false) = true := by
  refine ⟨by decide +kernel, ⟨{ fetchCmd with todo := some [], inbuf := zeros 8 }, by decide +kernel⟩, by decide +kernel⟩

/-- A batch of one item that enters, and one of two items of one id. -/
theorem witness_itemRows_build :
    ((withColl 1 [buildCmd]).ready? 0 Op.bulkBuild = some buildCmd ∧ (withColl 1 [buildCmd]).reckoners ≠ []
      ∧ { buildCmd with inbuf := fit buildCmd.inLen (zeros 128) }.buildFieldsOk (collOf 1) = true ∧ buildCmd.field 32 1 ≠ 1
      ∧ bit (buildCmd.field 33 1) 0 = false ∧ (withColl 1 [buildCmd]).buildBusy 0 = false
      ∧ (match (withColl 1 [buildCmd]).buildItems (collOf 1) { buildCmd with inbuf := fit buildCmd.inLen (zeros 128) } [[]] with
        | .ok (s1, _, _) => (s1.coll? 0).isSome
        | .error _ => false) = true)
    ∧ ((withColl 1 [twoCmd]).ready? 0 Op.bulkBuild = some twoCmd
      ∧ { twoCmd with inbuf := fit twoCmd.inLen (zeros 256) }.buildFieldsOk (collOf 1) = true ∧ (withColl 1 [twoCmd]).buildBusy 0 = false
      ∧ (match (withColl 1 [twoCmd]).buildItems (collOf 1) { twoCmd with inbuf := fit twoCmd.inLen (zeros 256) } [[], []] with
        | .ok _ => false
        | .error _ => true) = true) := by decide +kernel

theorem witness_mutationRowsStage :
    (∀ op ∈ [Op.insert, Op.upsert, Op.delete], ∃ c, (withColl 2 [cmdOf .fetched [(0, 1, op)]]).ready? 0 op = some c
      ∧ (withColl 2 [c]).coll? c.collByte = some (collOf 2) ∧ (withColl 2 [c]).reckoners ≠ [])
    ∧ (∃ c, (withColl 2 [c]).cmd? 0 = some c ∧ c.stage = .formed ∧ c.isMutation = true ∧ (withColl 2 [c]).served c = true
      ∧ (withColl 2 [c]).earlierUnstaged c = false ∧ (withColl 2 [c]).rankedAhead c = false
      ∧ (withColl 2 [c]).stageRoom c = true) := by
  refine ⟨?_, cmdOf .formed [(0, 1, Op.insert)], by decide +kernel⟩
  intro op h
  refine ⟨cmdOf .fetched [(0, 1, op)], ?_⟩
  revert op
  decide +kernel

theorem witness_mutationOutcome : (withColl 2 []).copies (collOf 2) 7 = (none, none)
    ∧ ((withColl 2 []).copies collRem 7).2.isSome = true := by decide +kernel

/-- A staged mutation whose commit is due. -/
def dueCmd (op : Nat) (item : Option Item) : Cmd := { cmdOf (.staged 1000) [(0, 1, op), (32, 8, 7)] with judged := true, item := item }

theorem witness_commitTakesEffect :
    (∃ c, (withColl 2 [c]).cmd? 0 = some c ∧ (withColl 2 [c]).dueCommits = [c] ∧ c.superseded = false
      ∧ (withColl 2 [c]).coll? c.collByte = some (collOf 2) ∧ c.opcode = Op.delete
      ∧ (withColl 2 [c]).copies (collOf 2) c.ext = (none, none))
    ∧ (∃ c item, (withColl 2 [c]).cmd? 0 = some c ∧ (withColl 2 [c]).dueCommits = [c] ∧ c.superseded = false
      ∧ (withColl 2 [c]).coll? c.collByte = some (collOf 2) ∧ c.opcode = Op.insert ∧ c.item = some item
      ∧ (withColl 2 [c]).copies (collOf 2) c.ext = (none, none) ∧ (withColl 2 [c]).collFull (collOf 2) false = false) := by
  refine ⟨⟨dueCmd Op.delete none, by decide +kernel⟩,
    ⟨dueCmd Op.insert (some ⟨7, 0, zeros 64, [], 0⟩), ⟨7, 0, zeros 64, [], 0⟩, by decide +kernel⟩⟩

/-- A pass of the collection, as it starts. -/
def passOf : Pass where
  coll := 0
  number := 1
  start := 990
  phase := .planning
  seqLimit := 0
  folded := []
  deletedAtP := []
  reclaim := []
  planClosed := false
  edges := []
  todo := []
  rewrite := none
  grant := none
  rewritten := 0
  lastSwitched := none
  restarted := false
  byRepair := false
  waiters := []
  backEdges := 0
  searchL := 0
  share := 0
  flags := Flags.none

def carryCmd : Cmd := cmdOf .fetched [(0, 1, Op.carry)]

/-- CARRY with no pass, and with the pass of its collection; a request whose pass folds one item. -/
theorem witness_carryRowsRequest :
    ((withColl 2 [carryCmd]).ready? 0 Op.carry = some carryCmd ∧ (withColl 2 [carryCmd]).collState carryCmd.collByte = 2
      ∧ (withColl 2 [carryCmd]).reckoners ≠ [] ∧ (withColl 2 [carryCmd]).carry.pass = none
      ∧ (withColl 2 [carryCmd]).carry.queue = [] ∧ passOf.coll = carryCmd.collByte)
    ∧ (∃ s : State, s.carry.pass = none ∧ s.carry.queue = [⟨0, 990, []⟩] ∧ s.carryServed = true ∧ s.dueCommits = []
      ∧ s.coll? 0 = some collRem ∧ s.reckoners ≠ [] ∧ s.carry.suspended = [] ∧ (s.newPass collRem []).folded ≠ []) := by
  refine ⟨by decide +kernel,
    ⟨{ withColl 2 [] with colls := [collRem], carry := ⟨[⟨0, 990, []⟩], none, [], 0, 0⟩ }, by decide +kernel⟩⟩

/-- A rewrite whose tiles, entry and record became durable in tick 999. -/
def rewriteOf : Rewrite := ⟨0, 0, 0, 0, [], [], some 999, true, false⟩

/-- The module with this pass in progress. -/
def inPass (p : Pass) : State := { withColl 2 [] with carry := ⟨[], some p, [], 0, 0⟩ }

/-- A pass to plan; one whose first segment may be rewritten; one whose segment was written in an earlier tick. -/
theorem witness_carryRowsWork :
    (∃ s : State, s.carry.pass = some passOf ∧ s.coll? passOf.coll = some (collOf 2) ∧ passOf.planClosed = false
      ∧ s.carryServed = true ∧ s.reckoners ≠ [] ∧ s.planReads (collOf 2) passOf ≤ s.carry.credit
      ∧ (State.planItems (collOf 2) s (passOf.readable s (collOf 2)) (passOf.readable s (collOf 2)).folded).1.isSome = true)
    ∧ (∃ (s : State) (p : Pass), s.carry.pass = some p ∧ s.coll? p.coll = some (collOf 2) ∧ p.todo = [0] ∧ p.planClosed = true
      ∧ p.rewrite = none ∧ s.rewriteGranted p = true ∧ s.carryWrites = true ∧ s.carryServed = true ∧ s.reckoners ≠ []
      ∧ s.rewriteNeed (collOf 2) p 0 ≤ s.carry.credit ∧ s.segmentChecks (collOf 2) 0 = true
      ∧ (s.placeFor (collOf 2) 0 0).isSome = true)
    ∧ (∃ (s : State) (p : Pass) (w : Rewrite), s.carry.pass = some p ∧ s.coll? p.coll = some (collOf 2) ∧ p.rewrite = some w
      ∧ w.written = some 999 ∧ 999 < s.now ∧ s.up = true ∧ s.stopped = false ∧ s.searches = [] ∧ s.switchRoom p w = true
      ∧ s.commitDue.coll? p.coll = some (collOf 2)) := by
  refine ⟨⟨inPass passOf, by decide +kernel⟩,
    ⟨{ inPass { passOf with todo := [0], planClosed := true, grant := some 0 } with
        pwr := { Power.reset with grants := [⟨0, .carrySegment 0, false, 1, 990, true, false, none⟩] } },
      { passOf with todo := [0], planClosed := true, grant := some 0 }, by decide +kernel⟩,
    ⟨inPass { passOf with rewrite := some rewriteOf }, { passOf with rewrite := some rewriteOf }, rewriteOf, by decide +kernel⟩⟩

/-- A ready collection, and one dropped whose drop no snapshot precedes. -/
theorem witness_releaseRows : (withColl 2 []).coll? 0 = some (collOf 2) ∧ (collOf 2).state ≠ 3
    ∧ (withColl 3 []).coll? 0 = some (collOf 3) ∧ (collOf 3).state = 3
    ∧ (withColl 3 []).snapshotBefore (collOf 3).dropTick = false
    ∧ (collOf 3).parts.all (fun p => !(withColl 3 []).diesBusy p.1 p.2) = true := by decide +kernel
/-- Each computing row finds its instruction on frame 0, and its operation gives a result there. -/
theorem witness_tileRowsRun : ∀ r ∈ tileRows 0,
    (match (running (modelOf [tileOf r.2.1] []) (ctxOf (modelOf [tileOf r.2.1] []))).atInstr 0 r.2.1 with
    | some (c, pkg, t) => decide (c.wait = .none)
        && (r.2.2.2 (running (modelOf [tileOf r.2.1] []) (ctxOf (modelOf [tileOf r.2.1] []))) c pkg t).isSome
    | none => false) = true := by decide +kernel

/-- An operand outside the frame's SRAM: the operation gives no result. -/
theorem witness_tileRowsRun_fault : ∀ r ∈ (tileRows 0).take 1,
    (match (running (modelOf [{ tileOf r.2.1 with a := 8192 }] []) (ctxOf (modelOf [{ tileOf r.2.1 with a := 8192 }] []))).atInstr 0
        r.2.1 with
    | some (c, pkg, t) => decide (c.wait = .none)
        && (r.2.2.2 (running (modelOf [{ tileOf r.2.1 with a := 8192 }] []) (ctxOf (modelOf [{ tileOf r.2.1 with a := 8192 }] []))) c
          pkg t).isNone
    | none => false) = true := by decide +kernel

/-- The frame-0 state of a model with this one instruction and these streams. -/
def oneTile (t : TileInstr) (x : Stream) : State :=
  running (modelOf [t] [x.prog]) { ctxOf (modelOf [t] [x.prog]) with streams := [x] }

def readStream (code : List StreamInstr) : Stream := (streamProgOf false code).arm 0

/-- ROTATE whose receiver is ready, a swap and a re-arm of a stream that has ended, SYNC, and the end of a program. -/
theorem witness_waitingTileRows :
    (match (oneTile (tileOf TOp.rotate) (readStream [])).atInstr 0 TOp.rotate with
      | some (c, _, _) => decide (c.wait = .none)
          && (oneTile (tileOf TOp.rotate) (readStream [])).rotateReady c
            ((oneTile (tileOf TOp.rotate) (readStream [])).nextFrame c.part c.frame)
      | none => false) = true
    ∧ (∀ sub ∈ [0, 1], (match (oneTile { tileOf TOp.stream with sub := sub } { readStream [] with ended := true }).atInstr 0
          TOp.stream with
      | some (c, _, t) => decide (c.wait = .none) && decide (t.sub = sub) && (match c.streams[t.imm]? with
          | some x => x.canSwap && x.canReArm && x.prog.persistent && !x.prog.write
          | none => false)
      | none => false) = true)
    ∧ ((oneTile (tileOf TOp.sync) (readStream [])).atInstr 0 TOp.sync).isSome = true
    ∧ (∃ c m, (oneTile (tileOf TOp.end_) (readStream [])).frameCtx 0 = some c
      ∧ (oneTile (tileOf TOp.end_) (readStream [])).model? c.handle = some m ∧ c.wait = .none
      ∧ (m.pkg.prog.code[c.pc]?).map (fun i => i.op) = some TOp.end_) := by
  refine ⟨by decide +kernel, by decide +kernel, by decide +kernel,
    { ctxOf (modelOf [tileOf TOp.end_] [(readStream []).prog]) with streams := [readStream []] },
    modelOf [tileOf TOp.end_] [(readStream []).prog], ?_⟩
  decide +kernel

/-- Each stream row finds its instruction, and an EMIT in its turn emits. -/
theorem witness_streamRowsStep :
    (∀ r ∈ streamRows 0 0, ((oneTile (tileOf TOp.sync) (readStream [⟨r.2.1, 0, 1, 0, false⟩])).atStream 0 0 r.2.1).isSome = true)
    ∧ (match (oneTile (tileOf TOp.sync) (readStream [⟨4, 0, 1, 0, false⟩])).segReady 0 0 with
      | some (_, _, _, _, r) => ((oneTile (tileOf TOp.sync) (readStream [⟨4, 0, 1, 0, false⟩])).takeTurn r).isSome
      | none => false) = true := by decide +kernel

def runCmd : Cmd := cmdOf .fetched [(0, 1, Op.run), (36, 4, 1)]
def loadedState : State := { withColl 2 [runCmd] with tensor := { Tensor.reset with models := [modelOf [] []] } }

/-- RUN of a resident model; the load of a model whose grant is given. -/
theorem witness_modelRowsRun :
    (loadedState.ready? 0 Op.run = some runCmd ∧ loadedState.model? (runCmd.field 32 2) = some (modelOf [] [])
      ∧ loadedState.hasEntry 0 = true ∧ (modelOf [] []).state = .resident ∧ loadedState.moveBlocks (modelOf [] []) = false
      ∧ max 1 (modelOf [] []).pkg.prog.framesMin ≤ (loadedState.partFrames 0).length ∧ loadedState.tensor.seqs = []
      ∧ loadedState.freeEntry? = some 0)
    ∧ (∃ (s : State) (m : Model) (g : Grant), s.model? 0 = some m ∧ m.state = .loading ∧ s.grantOf (.modelLoad 0) = some g
      ∧ g.granted = true ∧ g.releasing = false ∧ s.waitingFor 0 = []) := by
  refine ⟨by decide +kernel, { loadedState with
      tensor := { Tensor.reset with models := [{ modelOf [] [] with state := .loading }] }
      pwr := { Power.reset with grants := [⟨0, .modelLoad 0, false, 1, 990, true, false, none⟩] } },
    { modelOf [] [] with state := .loading }, ⟨0, .modelLoad 0, false, 1, 990, true, false, none⟩, by decide +kernel⟩

def encodeCmd : Cmd := cmdOf .fetched [(0, 1, Op.encodeSearch), (16, 4, 64), (20, 4, 4096), (54, 2, 1)]
def encoder : Model := { modelOf [] [] with pkg := { (modelOf [] []).pkg with kind := 1 } }
def encodeState : State := { withColl 2 [encodeCmd] with tensor := { Tensor.reset with models := [encoder] } }

/-- ENCODE_SEARCH with an encoder whose output is of the collection's shape. -/
theorem witness_modelRowsRun_encode :
    encodeState.ready? 0 Op.encodeSearch = some encodeCmd ∧ encodeState.coll? encodeCmd.collByte = some (collOf 2)
    ∧ encodeState.model? (encodeCmd.field 48 2) = some encoder ∧ encodeState.hasEntry 0 = true ∧ encodeState.search? 0 0 = none
    ∧ encoder.encodes (collOf 2) = true
    ∧ (match encodeState.searchParams encodeCmd (collOf 2) with
      | some p => (encodeState.fillQuery (newSearch { encodeCmd with inbuf := zeros 64 } (collOf 2) 0 p .encoding)
          { encodeCmd with inbuf := zeros 64 } (collOf 2)).queryOk (collOf 2)
      | none => false) = true := by decide +kernel

/-! ### A whole package tile, with its CRC-32C read quickly -/

/-- The bit step on numbers. -/
def crcBit (c : Nat) : Nat := Nat.xor (c / 2) (c % 2 * 0x82F63B78)

/-- The CRC-32C register after these bytes, on numbers. -/
def crcRun : List Byte → Nat → Nat
  | [], c => c
  | b :: l, c =>
    match crcBit (crcBit (crcBit (crcBit (crcBit (crcBit (crcBit (crcBit (Nat.xor c b.toNat)))))))) with
    | 0 => crcRun l 0
    | n + 1 => crcRun l (n + 1)

theorem crc32cBit_toNat (c : BitVec 32) : (crc32cBit c).toNat = crcBit c.toNat := by
  unfold crc32cBit crcBit
  have h : c.getLsbD 0 = decide (c.toNat % 2 = 1) := by
    simp [BitVec.getLsbD, Nat.testBit_zero]
  rw [h]
  rcases Nat.mod_two_eq_zero_or_one c.toNat with e | e
  · rw [if_neg (by simp [e]), e, BitVec.toNat_ushiftRight, Nat.shiftRight_one]; exact (Nat.xor_zero _).symm
  · rw [if_pos (by simp [e]), e, BitVec.toNat_xor, BitVec.toNat_ushiftRight, Nat.shiftRight_one]; rfl

theorem crc32cByte_toNat (c : BitVec 32) (b : Byte) : (crc32cByte c b).toNat
    = crcBit (crcBit (crcBit (crcBit (crcBit (crcBit (crcBit (crcBit (Nat.xor c.toNat b.toNat)))))))) := by
  have h : (List.range 8) = [0, 1, 2, 3, 4, 5, 6, 7] := by decide
  simp only [crc32cByte, h, List.foldl, crc32cBit_toNat]
  congr 8

theorem crcRun_foldl (l : List Byte) (c : BitVec 32) : (l.foldl crc32cByte c).toNat = crcRun l c.toNat := by
  induction l generalizing c with
  | nil => rfl
  | cons b l ih =>
    rw [List.foldl_cons, ih, crc32cByte_toNat, crcRun]
    split <;> rename_i e <;> rw [e]

theorem crc32c_run (l : List Byte) : (crc32c l).toNat = Nat.xor (crcRun l 0xFFFFFFFF) 0xFFFFFFFF := by
  rw [crc32c, BitVec.toNat_xor, crcRun_foldl]; rfl

/-- Thirty runs of 130 zero bytes. -/
def zeroRuns : Bytes := (List.replicate 30 [0xFF, 0]).flatten

/-- The descriptor and the program (one END) of a small general package (09 R217-R219, R230). -/
def descOf : Bytes :=
  [(8, 2, 64), (10, 2, 64), (12, 2, 16), (14, 2, 64), (40, 4, 1)].foldl (fun e f => patch e f.1 (leBytes f.2.1 f.2.2)) (zeros 64)
def progOf : Bytes :=
  [(0, 2, 1), (3, 1, 1), (4, 4, 1), (64, 1, 0x3F)].foldl (fun e f => patch e f.1 (leBytes f.2.1 f.2.2)) (zeros 128)

/-- The bytes of its block: two tiles, run-length coded (10 R248). -/
def packedData : Bytes := [63] ++ descOf ++ zeroRuns ++ [0xE1, 0] ++ [127] ++ progOf ++ zeroRuns ++ [0xA1, 0]

/-- Its one format 0x11 tile (10 R249). -/
def packedBody : Bytes :=
  [(0, 2, 1), (2, 1, 1), (3, 1, 1), (4, 1, 2), (8, 4, packedData.length), (24, 4, 2076731215), (28, 4, 2878030545)].foldl
    (fun e f => patch e f.1 (leBytes f.2.1 f.2.2)) (zeros 96) ++ packedData

/-- The tile but for its checksum, which stands in it as a number. -/
def packedTile : Bytes :=
  fit 4064 packedBody ++ leBytes 4 3926245216 ++ zeros 8 ++ [0xFF, 0x11, 1, 1, 0xFF, 0xFF, 0xFF, 0xFF] ++ zeros 12

theorem packedTile_crc : (crc32c (packedTile.take 4064)).toNat = 3926245216 := by rw [crc32c_run]; decide +kernel

def planes : Bytes := (runLength 319 packedData).getD []
def unpacked : Bytes := interleave 8128 (pieces 8128 1 planes)

theorem unpacked_length : unpacked.length = 8128 := by decide +kernel
theorem unpacked_crc0 : (crc32c (unpacked.take 4064)).toNat = 2076731215 := by rw [crc32c_run]; decide +kernel
theorem unpacked_crc1 : (crc32c (unpacked.drop 4064)).toNat = 2878030545 := by rw [crc32c_run]; decide +kernel

def pkgTiles : List Bytes :=
  [mkTile (unpacked.take 4064) 0 0xFF TileFmt.tensor 1 0xFFFFFFFF 0,
    mkTile (unpacked.drop 4064) 1 0xFF TileFmt.tensor 1 0xFFFFFFFF 0]

theorem packedTile_ok : packedOk packedTile 1 0 = true := by
  have h : fieldAt packedTile 4068 8 = 0 := by decide +kernel
  simp only [packedOk, tileOk, packedTile_crc, h]
  decide +kernel

theorem packedTile_fields : fieldAt packedTile 4084 4 = 0 ∧ fieldAt packedTile 4 1 = 2 ∧ fieldAt packedTile 3 1 = 1
    ∧ fieldAt packedTile 8 4 = 318 ∧ fieldAt packedTile 2 1 = 1 ∧ fieldAt packedTile 16 8 = 0 ∧ fieldAt packedTile 0 2 = 1
    ∧ fieldAt packedTile 24 4 = 2076731215 ∧ fieldAt packedTile 28 4 = 2878030545
    ∧ slice (packedTile.take 4064) 96 318 = packedData
    ∧ zeroAt packedTile 5 3 = true ∧ zeroAt packedTile 12 4 = true ∧ zeroAt packedTile 88 8 = true
    ∧ zeroAt packedTile 32 56 = true := by decide +kernel

theorem planes_eq : runLength 319 packedData = some planes := by
  have h : (runLength 319 packedData).isSome = true := by decide +kernel
  unfold planes
  cases e : runLength 319 packedData with
  | none => rw [e] at h; exact absurd h (by decide)
  | some o => rfl

theorem planes_length : planes.length = 8128 := by decide +kernel

/-- What a block of two tiles, run-length coded as one plane in one tile, decodes to. -/
theorem decodeBlock_two (t u d : Bytes) (h : fieldAt t 4084 4 = 0 ∧ fieldAt t 4 1 = 2 ∧ fieldAt t 3 1 = 1
    ∧ fieldAt t 8 4 = 318 ∧ fieldAt t 2 1 = 1 ∧ fieldAt t 16 8 = 0 ∧ fieldAt t 0 2 = 1
    ∧ fieldAt t 24 4 = 2076731215 ∧ fieldAt t 28 4 = 2878030545
    ∧ slice (t.take 4064) 96 318 = d
    ∧ zeroAt t 5 3 = true ∧ zeroAt t 12 4 = true ∧ zeroAt t 88 8 = true
    ∧ zeroAt t 32 56 = true) (hk : packedOk t 1 0 = true)
    (o : Bytes) (hr : runLength 319 d = some o) (ho : o.length = 8128) (hi : interleave 8128 (pieces 8128 1 o) = u)
    (hl : u.length = 8128)
    (c0 : (crc32c (u.take 4064)).toNat = 2076731215) (c1 : (crc32c (u.drop 4064)).toNat = 2878030545) :
    decodeBlock [t] = some ([mkTile (u.take 4064) 0 0xFF TileFmt.tensor 1 0xFFFFFFFF 0,
      mkTile (u.drop 4064) 1 0xFF TileFmt.tensor 1 0xFFFFFFFF 0], 1) := by
  obtain ⟨h1, h2, h3, h4, h5, h6, h7, h8, h9, h10, h11, h12, h13, h14⟩ := h
  have hu : (u.drop 4064).take 4064 = u.drop 4064 := List.take_of_length_le (by rw [List.length_drop, hl])
  have hc : ceilDiv (96 + 318) 4064 = 1 := by decide
  have ht : [t].take 1 = [t] := rfl
  have hf : ([t].map (fun b => b.take 4064)).flatten = t.take 4064 := by simp
  simp only [decodeBlock, h1, h2, h3, h4, h5, h6, h7, hc, ht, hf, h10, h11, h12, h13, hk]
  simp only [Nat.reduceMul, Nat.reduceDiv, Nat.reduceAdd, Nat.reduceSub, hr]
  have hi' : (some o).map (fun o => interleave 8128 (pieces 8128 1 o)) = some u := by rw [Option.map_some, hi]
  simp only [if_neg (show ¬ (1 = 0) by decide), hi', ho]
  simp [pieces, h8, h9, h14, hu, c0, c1]

theorem packedTile_decodes : decodeBlock [packedTile] = some (pkgTiles, 1) :=
  decodeBlock_two packedTile unpacked packedData packedTile_fields packedTile_ok planes planes_eq planes_length rfl unpacked_length
    unpacked_crc0 unpacked_crc1

theorem decodeBlocks_one (t : Bytes) (b : List Bytes) (h : decodeBlock [t] = some (b, 1)) : decodeBlocks 1 [t] = some [b] := by
  show (match decodeBlock [t] with
    | none => none
    | some (b, used) => (decodeBlocks 0 (List.drop (used - 1) [])).map (b :: ·)) = some [b]
  rw [h]; rfl

theorem package_decodes : decodeBlocks 1 [packedTile] = some [pkgTiles] := decodeBlocks_one _ _ packedTile_decodes

/-- Are two byte strings equal? -/
def sameBytes : Bytes → Bytes → Bool
  | [], [] => true
  | a :: l, b :: m => if a = b then sameBytes l m else false
  | _, _ => false

theorem sameBytes_eq : ∀ {l m : Bytes}, sameBytes l m = true → l = m
  | [], [], _ => rfl
  | a :: l, b :: m, h => by
    unfold sameBytes at h
    split at h
    · rename_i e; rw [e, sameBytes_eq h]
    · exact absurd h (by decide)

theorem mkTile_payload (p : Bytes) (a b c d e f : Nat) (h : p.length = 4064) : (mkTile p a b c d e f).take 4064 = p := by
  have hf : fit 4064 p = p := by simp [fit, zeros, h, List.take_of_length_le]
  simp only [mkTile, hf, List.append_assoc]
  exact List.take_left' h

theorem unpacked_desc : unpacked.take 4064 = descOf ++ zeros 4000 := sameBytes_eq (by decide +kernel)
theorem unpacked_prog : unpacked.drop 4064 = progOf ++ zeros 3936 := sameBytes_eq (by decide +kernel)

theorem pkgTiles_payload : pkgTiles.map (fun t => t.take 4064) = [descOf ++ zeros 4000, progOf ++ zeros 3936] := by
  have h0 : (unpacked.take 4064).length = 4064 := by rw [List.length_take, unpacked_length]; decide
  have h1 : (unpacked.drop 4064).length = 4064 := by rw [List.length_drop, unpacked_length]
  simp only [pkgTiles, List.map_cons, List.map_nil, mkTile_payload (unpacked.take 4064) _ _ _ _ _ _ h0,
    mkTile_payload (unpacked.drop 4064) _ _ _ _ _ _ h1]
  rw [unpacked_desc, unpacked_prog]

theorem mkTile_gen (p : Bytes) (a b c d e f : Nat) : fieldAt (mkTile p a b c d e f) 4084 4 = leNat (leBytes 4 f) := by
  have hf : (fit 4064 p).length = 4064 := by simp [fit, zeros]; omega
  have h4 : ∀ n v, (leBytes n v).length = n := by
    intro n; induction n with
    | zero => intro v; rfl
    | succ n ih => intro v; simp [leBytes, ih]
  have hl : (fit 4064 p ++ leBytes 4 (crc32c (fit 4064 p)).toNat ++ leBytes 8 a ++ leBytes 1 b ++ leBytes 1 c ++ leBytes 1 d
    ++ leBytes 1 1 ++ leBytes 4 e).length = 4084 := by simp [hf, h4]
  have hd : (leBytes 4 f).length = 4 := h4 4 f
  simp only [mkTile, fieldAt, slice]
  rw [List.append_assoc _ (leBytes 4 f), List.drop_left' hl, List.take_left' hd]

theorem pkgTiles_version : pkgTiles.all (fun t => decide (fieldAt t 4084 4 = 0)) = true := by
  simp only [pkgTiles, List.all_cons, List.all_nil, mkTile_gen]
  decide

/-- A package of two tiles with these payloads, of its version, is good: of kind 0, with a program of one END. -/
theorem readPackage_two (t : Bytes) (ts : List Bytes) (hd : decodeBlocks 1 [t] = some [ts])
    (hp : ts.map (fun t => t.take 4064) = [descOf ++ zeros 4000, progOf ++ zeros 3936]) (hl : ts.length = 2)
    (hv : ts.all (fun t => decide (fieldAt t 4084 4 = 0)) = true) (hr : packedReservedOk [t] = true) : ∃ pkg tiles, readPackage [t] 256 = .good pkg tiles := by
  have hf : [ts].flatten = ts := by simp
  have hz : fieldAt ([descOf ++ zeros 4000, progOf ++ zeros 3936].headD []) 0 4 = 0 := by decide +kernel
  simp only [readPackage, hr, Bool.not_true, Bool.false_eq_true, if_false, List.length_singleton, hd, hf, hp, hl]
  rw [hz, hv, if_neg (by decide +kernel)]
  generalize hq : firstOffence _ _ _ _ _ _ = q
  have : q = none := by rw [← hq]; decide +kernel
  subst this
  exact ⟨_, _, rfl⟩

theorem packedTile_reserved : packedReservedOk [packedTile] = true := by
  obtain ⟨_, _, _, _, _, _, _, _, _, _, h11, h12, h13, _⟩ := packedTile_fields
  simp only [packedReservedOk, List.all_cons, List.all_nil, h11, h12, h13, Bool.and_self, Bool.or_true]

theorem package_good : ∃ pkg tiles, readPackage [packedTile] 256 = .good pkg tiles :=
  readPackage_two packedTile pkgTiles package_decodes pkgTiles_payload rfl pkgTiles_version packedTile_reserved

def loadModelCmd : Cmd := cmdOf .fetched [(0, 1, Op.modelLoad), (16, 4, 4096), (36, 4, 1)]

/-- MODEL_LOAD of that package. -/
theorem witness_commandRowsRegister_load : ∃ (s : State) (c : Cmd) (inbuf : Bytes) (pkg : ModelPkg) (tiles : List Bytes),
    s.ready? 0 Op.modelLoad = some c ∧ readPackage (c.packedTiles inbuf) (recSaveGap (s.partRec c.part)) = .good pkg tiles := by
  obtain ⟨pkg, tiles, h⟩ := package_good
  have hl : packedTile.length = 4096 := by decide +kernel
  have hf : loadModelCmd.packedTiles packedTile = [packedTile] := by
    have h1 : loadModelCmd.field 36 4 = 1 := by decide +kernel
    have h2 : loadModelCmd.inLen = 4096 := by decide +kernel
    unfold Cmd.packedTiles; rw [h1, h2]
    simp only [pieces, fit]
    rw [List.take_append_of_le_length (by rw [List.length_take, hl]; decide), List.take_take,
      List.take_of_length_le (by rw [hl]; decide)]
  refine ⟨serving [loadModelCmd], loadModelCmd, packedTile, pkg, tiles, by decide +kernel, ?_⟩
  have hg : recSaveGap ((serving [loadModelCmd]).partRec loadModelCmd.part) = 256 := by decide +kernel
  rw [hf, hg, h]

/-- RELOAD of block 0 of a resident model. -/
theorem witness_modelRowsRun_reload : ∃ (s : State) (m : Model), s.model? 0 = some m ∧ m.isResident = true
    ∧ 0 < ((decodeBlocks m.packed.length m.packed).getD []).length
    ∧ blockSpan ((decodeBlocks m.packed.length m.packed).getD []) 0 = (0, 2) := by
  refine ⟨{ loadedState with tensor := { Tensor.reset with models := [{ modelOf [] [] with packed := [packedTile], tiles := pkgTiles }] } },
    { modelOf [] [] with packed := [packedTile], tiles := pkgTiles }, rfl, rfl, ?_⟩
  show 0 < ((decodeBlocks 1 [packedTile]).getD []).length ∧ blockSpan ((decodeBlocks 1 [packedTile]).getD []) 0 = (0, 2)
  rw [package_decodes]
  exact ⟨Nat.one_pos, rfl⟩

/-- A stream whose page request stands at this point, one segment waiting for its translation. -/
def pageState (p : PageReq) : State :=
  oneTile (tileOf TOp.sync) { readStream [] with page := p, flight := [⟨0, 0x8000000000000000, 0, 990, true, [0x8000000000000], [], [], []⟩] }

/-- A command of this opcode whose buffer waits at this point. -/
def bufferCmd (op : Nat) (p : PageReq) : Cmd := { cmdOf .fetched [(0, 1, op), (16, 4, 64), (20, 4, 64)] with page := p }

theorem witness_pageRows :
    (∀ p ∈ [PageReq.asked 0 [0x8000000000000] none, .translating, .retranslating], (match (pageState p).pageStream 0 0 with
      | some (c, x) => decide (x.page = p) && !c.saved && (match (pageState p).model? c.handle, x.flight.find? (fun g => g.waiting) with
          | some m, some g => ((pageState p).segWho c m.pkg x.prog g.addr).isSome && decide (g.pages = [0x8000000000000])
              && decide (g.refused = [])
          | _, _ => false)
      | none => false) = true)
    ∧ 0 + State.reset.obj 0x5100 6 ≤ 1000000 ∧ ((pageState .translating).port .A).priBlocked.contains 0 = false
    ∧ (pageState .translating).priRoom .A 0 1 = true ∧ (pageState .none).takes .A = true
    ∧ (∀ op ∈ [Op.search, Op.run], ∀ p ∈ [PageReq.asked 0 [0x8000000000000] none, .none, .translating, .retranslating],
      (serving [bufferCmd op p]).cmd? 0 = some (bufferCmd op p) ∧ (bufferCmd op p).page = p ∧ (bufferCmd op p).bufferPages ≠ []) := by
  decide +kernel

/-- A moving scratch placement in HBM, to host memory or to flash. -/
def scratch (newHome : Nat) : Placement :=
  ⟨1, 1, 0, 1, false, true, 0x0001000600000000, 64, 0, [], [], 0, newHome, 0x0001000600010000, 0, true⟩

def moveState (newHome : Nat) : State :=
  ({ serving [cmdOf (.moving 1) []] with tensor := { Tensor.reset with placements := [scratch newHome] } } : State).setObj 0x5000 4 0 0

theorem witness_pageRows_move : ∀ n ∈ [1, 2], (moveState n).placement? 1 = some (scratch n) ∧ (moveState n).up = true
    ∧ (scratch n).moving = true ∧ (scratch n).newHome = n ∧ (scratch n).copied = true ∧ (moveState n).obj 0x5000 4 = 0
    ∧ (moveState n).placementHeld (scratch n) = false ∧ (moveState n).programming (.writeBack 1) = false
    ∧ (moveState n).programming (.move 1) = false ∧ ((moveState n).placementBytes (scratch n)).1.isSome = true := by decide +kernel

/-- Two steps of one partition on frame 0: the running one has ended, the other is saved. -/
def saveState : State :=
  { running (modelOf [] []) { ctxOf (modelOf [] []) with wait := .ended } with
    shares := { Shares.reset with usedF := [] }
    tensor := { (running (modelOf [] []) { ctxOf (modelOf [] []) with atSave := true, wait := .ended }).tensor with
      models := [modelOf [] [], { modelOf [] [] with handle := 1 }]
      ctxs := [{ ctxOf (modelOf [] []) with atSave := true, wait := .ended }, { ctxOf (modelOf [] []) with handle := 1, saved := true }] } }

/-- A step whose context has ended; one to save with another context to run; a saved one on an idle frame. -/
theorem witness_stepRows :
    (∃ s : State, s.model? 0 = some (modelOf [] []) ∧ s.up = true ∧ (∀ x ∈ s.stepCtxs 0 0, x.wait = .ended)
      ∧ max 1 (modelOf [] []).pkg.prog.framesMin ≤ ((s.stepEnded (modelOf [] []) 0 0).partFrames 0).length)
    ∧ (∃ s : State, s.noteReady.up = true ∧ (match s.noteReady.frameCtx 0, s.noteReady.choose 0 with
      | some c, some d => decide (s.noteReady.model? c.handle = some (modelOf [] [])) && c.atPoint && !s.noteReady.keeps c d
          && !c.streams.any Stream.holdsSave
      | _, _ => false) = true)
    ∧ (∃ s : State, s.noteReady.up = true ∧ s.noteReady.unitIn (unitFrame 0) = true
      ∧ s.noteReady.tensor.running.getD 0 none = none ∧ (match s.noteReady.choose 0 with
      | some c => decide (s.noteReady.model? c.handle = some (modelOf [] [])) && c.saved
      | none => false) = true) := by
  refine ⟨⟨running (modelOf [] []) { ctxOf (modelOf [] []) with wait := .ended }, by decide +kernel⟩,
    ⟨saveState, by decide +kernel⟩,
    ⟨{ running (modelOf [] []) { ctxOf (modelOf [] []) with saved := true } with
        tensor := { (running (modelOf [] []) { ctxOf (modelOf [] []) with saved := true }).tensor with
          running := List.replicate 16 none } }, by decide +kernel⟩⟩

/-- A stream whose one segment of frame 0, at this address, is in flight. -/
def arriving (write check : Bool) (addr : Nat) : State :=
  oneTile (tileOf TOp.sync) { ({ streamProgOf write [] with check := check }).arm 0 with
    ended := true, segs := 1, flight := [⟨0, addr, 0, 990, false, [], [], [], []⟩] }

/-- What the tile of that stream gives, as a number. -/
def delivered (s : State) : Option Nat :=
  match s.frameCtx 0, s.model? 0 with
  | some c, some m => match c.streams[0]? with
    | some x => match x.nextTile with
      | some gs => if gs.any m.behindReload || !gs.all (fun g => s.rodsRead g.asked 0) then none
        else match State.deliverTile c m.pkg x s gs with
          | .done _ => some 0
          | .uncorrectable => some 1
          | .badCheck _ => some 2
      | none => none
    | none => none
  | _, _ => none

/-- A tile of a write stream; of a read stream, one that is delivered, from SRAM and from HBM, one of flash that cannot be read,
and one that fails its check. -/
theorem witness_tileArrives :
    (delivered (arriving true false 64)).isSome = true ∧ delivered (arriving false false 64) = some 0
    ∧ delivered (arriving false false 0x0001000600000000) = some 0
    ∧ (match (arriving false false 0x0001000600000000).frameCtx 0, (arriving false false 0x0001000600000000).model? 0 with
      | some c, some m => match c.streams[0]? with
        | some x => !(arriving false false 0x0001000600000000).segHost c m.pkg x.prog 0x0001000600000000
            && decide ((arriving false false 0x0001000600000000).shadowAt 0x0001000600000000 64 = none)
            && (x.segPlace c ⟨0, 0x0001000600000000, 0, 990, false, [], [], [], []⟩).isSome
        | none => false
      | _, _ => false) = true
    ∧ delivered { arriving false false 0x0002000000000000 with units := { Units.reset with lost := [(0, false)] } } = some 1
    ∧ delivered (arriving false true 0x0001000600000000) = some 2 := by decide +kernel
theorem witness_powerRows : State.reset.up = true ∧ State.reset.now % 100 = 0 ∧ (List.replicate 47 (0 : Int)).length = 47
    ∧ (100000 ≤ { State.reset.pwr with quiet := 100000 }.quiet)
    ∧ State.reset.pwr.step < thermalStepOf (List.replicate 47 (200000 : Int))
    ∧ (∃ s : State, s.pwr.coolSince = some 0 ∧ s.up = true ∧ s.pwr.step = 1 ∧ 0 + 100000 ≤ s.now) := by
  refine ⟨by decide, by decide, by decide, by decide, by decide +kernel,
    { State.reset with
      clk := { Clock.reset with counter := 100000 }
      pwr := { Power.reset with coolSince := some 0, step := 1 } }, by decide⟩

/-- The module with one granted grant. -/
def granted (k : GrantKind) : State :=
  { withColl 2 [] with colls := [collRem], pwr := { Power.reset with grants := [⟨0, k, true, 1, 990, true, false, none⟩] } }

/-- A grant of each kind of program and erase: of a remainder tile that an item waits for and that none waits for, of a tile that
is in service and of one that is lost, an erase, and a block of the system region. -/
theorem witness_grantReleaseRow :
    (∀ k ∈ [GrantKind.nand 0 0 0, .nand 0 1 0, .program .alone 0 0 [], .program .alone 5 0 [], .erase 0 0 4, .block .config 0 [],
        .eraseBlock 0], (granted k).pwr.grants.find? (fun g => decide (g.gid = 0) && g.granted && !g.releasing)
      = some ⟨0, k, true, 1, 990, true, false, none⟩)
    ∧ (granted (.nand 0 1 0)).coll? 1 = none ∧ (granted (.nand 0 0 0)).coll? 0 = some collRem
    ∧ (∃ i ∈ collRem.rem, i.programmed = false ∧ 0 ∈ collRem.remTiles i.seq)
    ∧ (granted (.program .alone 0 0 [])).tileIn 0 = true
    ∧ { granted (.program .alone 5 0 []) with units := { Units.reset with lost := [(5, false)] } }.tileIn 5 = false
    ∧ Sparse.wf (fun _ => Tile.erased) (granted (.program .alone 0 0 [])).flash = true := by decide +kernel

theorem witness_supplyRows :
    (∃ s : State, s.pwr.phase = .off ∧ s.pwr.mrstLow = false) ∧ (∃ s : State, s.pwr.phase = .off ∧ s.pwr.mrstLow = true)
    ∧ (∃ s : State, s.pwr.phase = .rampWait 0 ∧ 0 + 100000 ≤ s.clk.world)
    ∧ State.reset.pwr.phase = .on ∧ railHoldsUp 0 = true ∧ State.reset.up = true ∧ railHoldsUp 2 = false :=
  ⟨⟨{ State.reset with pwr := { Power.reset with phase := .off } }, by decide⟩,
    ⟨{ State.reset with pwr := { Power.reset with phase := .off, mrstLow := true } }, by decide⟩,
    ⟨{ State.reset with pwr := { Power.reset with phase := .rampWait 0 }, clk := { Clock.reset with world := 100000 } }, by decide⟩,
    by decide⟩

theorem witness_resetRows :
    (∃ s : State, s.pwr.phase = .holdup 0 true)
    ∧ (∃ s : State, s.pwr.phase = .held 0 ∧ s.pwr.mrstLow = false ∧ 0 + 1000 ≤ s.clk.world
      ∧ s.pwr.mrstRise + 1000 ≤ s.clk.world) :=
  ⟨⟨{ State.reset with pwr := { Power.reset with phase := .holdup 0 true } }, by decide⟩,
    ⟨{ State.reset with pwr := { Power.reset with phase := .held 0 }, clk := { Clock.reset with world := 1000 } }, by decide⟩⟩

/-- The module at this boot stage. -/
def booting (n : Nat) : State := { State.reset with boot := { Boot.reset with stage := n } }

theorem witness_bootRows :
    (∀ n ∈ [1, 2, 3, 4, 5, 6, 7, 8, 9, 10, 11], (booting n).up = true ∧ (booting n).boot.ready = false ∧ (booting n).stopped = false
      ∧ (booting n).boot.stage = n)
    ∧ (booting 2).boot.area.isSome = true ∧ (booting 4).units.fatalCause ≠ 2
    ∧ (∃ s : State, s.up = true ∧ s.boot.ready = false ∧ s.boot.stage = 4 ∧ s.boot.managementStarted = false
      ∧ s.boot.stageStart + 500000 ≤ s.clk.world)
    ∧ (∃ s : State, s.up = true ∧ s.boot.ready = false ∧ s.boot.stage = 11 ∧ s.obj 0x3000 5 = 1 ∧ s.clk.everLocked = false
      ∧ s.obj 0x3000 6 ≤ s.now)
    ∧ (∃ s : State, s.up = true ∧ s.boot.ready = true ∧ s.boot.stage = 11 ∧ s.boot.recovery = false
      ∧ s.boot.identityFailed = false) := by
  refine ⟨by decide, by decide, by decide,
    ⟨{ booting 4 with clk := { Clock.reset with world := 500000 } }, by decide⟩,
    ⟨{ (booting 11).setObj 0x3000 5 0 1 with clk := { Clock.reset with counter := 100000000 } }, by decide +kernel⟩,
    ⟨{ State.reset with boot := { Boot.reset with stage := 11, ready := true } }, by decide⟩⟩

def loadCmd : Cmd := cmdOf .fetched [(0, 1, Op.fwLoad), (16, 4, 4096)]
def commitCmd (erased : Bool) : Cmd := cmdOf (.committing erased) [(0, 1, Op.fwCommit)]
def commitState (erased : Bool) : State :=
  { serving [commitCmd erased] with pwr := { Power.reset with grants := [⟨0, .bootArea 0, true, 1, 990, true, false, some 0⟩] } }

/-- FW_LOAD of a page, and the two programs of an FW_COMMIT that are granted. That an image passes its check rests on the keys
of the module, which are constants without a value: no concrete image shows it. -/
theorem witness_firmwareRows : (serving [loadCmd]).ready? 0 Op.fwLoad = some loadCmd ∧ loadCmd.inLen ≠ 0
    ∧ (∀ b ∈ [false, true], (commitState b).cmd? 0 = some (commitCmd b) ∧ (commitCmd b).stage = .committing b
      ∧ (commitState b).grantOf (.bootArea 0) = some ⟨0, .bootArea 0, true, 1, 990, true, false, some 0⟩
      ∧ (commitState b).bootRodsIn = true) := by decide +kernel

theorem witness_faultRows : State.reset.up = true
    ∧ (∃ s : State, s.up = true ∧ s.carry.pass = some passOf)
    ∧ (State.reset.noteFault 3).1 = false ∧ (((State.reset.noteFault 3).2).noteFault 3).1 = true
    ∧ (State.reset.noteFault 64).1 = false ∧ (0, true) ∉ State.reset.units.lost
    ∧ fatalShown (State.reset.units.fatals ++ [7]) = 7 := by
  refine ⟨by decide, ⟨{ State.reset with carry := ⟨[], some passOf, [], 0, 0⟩ }, by decide⟩, ?_⟩
  decide +kernel

theorem witness_repairRows :
    (∃ (s : State) (c : Coll), s.up = true ∧ s.boot.ready = true ∧ s.stopped = false ∧ s.coll? 0 = some c ∧ s.repairCode c = 2
      ∧ s.repairReads c ≤ s.carry.credit)
    ∧ (∃ s : State, s.up = true ∧ s.boot.ready = true ∧ s.stopped = false ∧ s.unitState (unitRod 0) = 3
      ∧ s.scanReads 0 ≤ s.carry.credit) :=
  ⟨⟨{ withColl 2 [] with colls := [{ collOf 2 with repair := 1 }] }, { collOf 2 with repair := 1 }, by decide +kernel⟩,
    ⟨{ serving [] with units := { Units.reset with recs := [⟨0, 3, 0, 0, 0⟩] } }, by decide +kernel⟩⟩

/-- The module idle at tick 2,000,000 in a power state. -/
def idling (n : Nat) : State :=
  ({ serving [] with
    sqs := [], clk := { Clock.reset with counter := 2000000 }, ps := ⟨n, some 0, none⟩ } : State).setObj 0x2020 2 0 3

theorem witness_powerStateRows :
    ((idling 0).ps.idleSince = some 0 ∧ (idling 0).up = true ∧ (idling 0).boot.ready = true ∧ (idling 0).idle = true
      ∧ (idling 0).ps.exitAt = none ∧ (idling 0).ps.state + 1 ≤ 3 ∧ (idling 0).ps.state + 1 ≤ (idling 0).obj 0x2020 2
      ∧ (idling 0).obj 0x2021 0 ((idling 0).ps.state + 1) ≠ 0
      ∧ 0 + (idling 0).obj 0x2021 0 ((idling 0).ps.state + 1) ≤ (idling 0).now)
    ∧ (∃ s : State, s.ps.exitAt = none ∧ s.up = true ∧ s.ps.state ≠ 0 ∧ s.idle = false)
    ∧ (∃ s : State, s.ps.exitAt = some 1000 ∧ 1000 ≤ s.now) := by
  refine ⟨by decide +kernel, ⟨{ withCmd Op.search [] with ps := ⟨1, none, none⟩ }, by decide +kernel⟩,
    ⟨{ serving [] with ps := ⟨1, none, some 1000⟩ }, by decide⟩⟩

/-- A link that trains and one that is down; a port with no write of its own waiting, and one with a write. -/
theorem witness_portRows : State.reset.takes .A = true ∧ State.reset.boot.recovery = false
    ∧ (State.reset.port .A).vfs ≤ (0 : Fin 64).val
    ∧ (∀ up ∈ [true, false], linkSupported ⟨up, 4, 8, false, 8, 0⟩ = true)
    ∧ (∀ o ∈ State.reset.orders, o.rank ≠ portRank .A)
    ∧ (∃ (s : State) (o : Order), s.takes .A = true ∧ o ∈ s.orders ∧ o.rank = portRank .A) := by
  refine ⟨by decide, by decide, by decide, by decide, by decide,
    { State.reset with orders := [⟨1, portRank .A, 0, 0, .barWrite .A 0x500 4 0⟩] },
    ⟨1, portRank .A, 0, 0, .barWrite .A 0x500 4 0⟩, by decide⟩

/-- Each phase of the SPDM requests. The length of the certificate chain is the module's own: no number shows it. -/
theorem witness_securityRows : State.reset.doeUp .A = true
    ∧ (∀ n ∈ [1, 2, 3], ({ State.reset with boot := { Boot.reset with spdmA := ⟨n, 0, .none⟩ } }.spdm .A).phase = n
      ∧ { State.reset with boot := { Boot.reset with spdmA := ⟨n, 0, .none⟩ } }.doeUp .A = true)
    ∧ chooseAsym 4 ≠ 0 ∧ (∃ h, chooseHash h ≠ 0) ∧ State.reset.boot.identityFailed = false := by
  refine ⟨by decide, by decide, by decide, ⟨1, by decide⟩, by decide⟩

theorem witness_debugRows : State.reset.powered = true ∧ State.reset.obj 0x7000 4 ≠ 1
    ∧ (State.reset.setObj 0x7000 4 0 1).powered = true ∧ (State.reset.setObj 0x7000 4 0 1).obj 0x7000 4 = 1 := by decide +kernel
/-- A frame from the upstream pair with its right CRC. -/
def frameOf (type source dest : BitVec 8) (payload : Bytes) : BdlFrame :=
  { dir := .up, type := type, source := source, dest := dest, seq := 1, payload := payload
    crc := crc16 (frameBytes ⟨.up, type, source, dest, 1, payload, 0, false⟩), violation := false }

/-- The module as station 3 of a closed ring, in this node state. -/
def station (n : Nat) : State :=
  { serving [] with bdl := { Bdl.reset with nodeId := 3, state := n, upLink := true, downLink := true } }

theorem witness_frameDiscarded : (station 2).up = true ∧ (station 2).bdl.linkOf .up = true
    ∧ { frameOf 0x30 0 0xFF [] with violation := true }.violation = true
    ∧ crc16 (frameBytes { frameOf 0x30 0 0xFF [] with crc := 0 }) ≠ { frameOf 0x30 0 0xFF [] with crc := 0 }.crc
    ∧ crc16 (frameBytes (frameOf 0x30 0 40 [])) = (frameOf 0x30 0 40 []).crc ∧ frameKnown (frameOf 0x30 0 40 []) = false := by
  decide +kernel

/-- Frames of each kind that the station takes from the line. -/
theorem witness_hears : ∀ fr ∈ [frameOf 0x10 5 3 [], frameOf 0x11 5 3 [], frameOf 0x01 0 0xFF (zeros 20), frameOf 0x02 1 0xFD [],
      frameOf 0x03 1 0xFD (zeros 6), frameOf 0x20 1 0 []], (station 2).hears fr := by
  unfold State.hears
  decide +kernel

theorem witness_foreignOdDiscarded : (station 2).hears (frameOf 0x10 5 3 []) ∧ (frameOf 0x10 5 3 []).source ≠ 0
    ∧ (station 2).hears (frameOf 0x11 5 3 []) ∧ (frameOf 0x11 5 3 []).source ≠ 0 := by
  unfold State.hears
  decide +kernel

/-- A request of an OD frame: object 0x3000:01 (15 R394). -/
def odPayload (flags offset count : Nat) (data : Bytes) : Bytes :=
  beBytes 2 0x3000 ++ beBytes 1 1 ++ beBytes 1 flags ++ beBytes 4 0 ++ beBytes 2 offset ++ beBytes 1 count ++ zeros 5 ++ data

/-- A transfer of that object that stands at this offset. -/
def xferOf (write : Bool) (next : Nat) : OdXfer := ⟨write, 0x3000, 1, 0, zeros 8, next, 900⟩

theorem witness_odRows :
    (∀ fr ∈ [frameOf 0x10 0 3 (odPayload 1 0 8 []), frameOf 0x11 0 3 (odPayload 3 0 2 [1, 2]),
        frameOf 0x11 0 3 (odPayload 2 8 2 [1, 2]), frameOf 0x10 0 3 (odPayload 2 4 4 [])], (station 2).managersFrame fr
          ∧ (odReq fr.payload).ok = true)
    ∧ (station 2).bdl.state ≠ 0
    ∧ (odReq (odPayload 1 0 8 [])).first = true ∧ (odReq (odPayload 1 0 8 [])).offset = 0
    ∧ (odReq (odPayload 3 0 2 [1, 2])).first = true ∧ (odReq (odPayload 3 0 2 [1, 2])).last = true
    ∧ (odReq (odPayload 3 0 2 [1, 2])).data.length = (odReq (odPayload 3 0 2 [1, 2])).count
    ∧ (xferOf true 8).takes true (odReq (odPayload 2 8 2 [1, 2])) = true ∧ (odReq (odPayload 2 8 2 [1, 2])).first = false
    ∧ (odReq (odPayload 2 8 2 [1, 2])).last = true
    ∧ (xferOf false 4).takes false (odReq (odPayload 2 4 4 [])) = true ∧ (odReq (odPayload 2 4 4 [])).offset < 8
    ∧ (xferOf false 4).lastTick + 10000 ≤ 10900 ∧ (serving []).now < (xferOf false 4).lastTick + 10000 := by
  unfold State.managersFrame State.hears
  decide +kernel

theorem witness_nodeControlRows :
    (∀ c ∈ [2, 3, 4], (station 2).managersFrame (frameOf 0x40 0 3 [BitVec.ofNat 8 c, 0])
      ∧ beNat (slice (frameOf 0x40 0 3 [BitVec.ofNat 8 c, 0]).payload 0 1) = c)
    ∧ (station 2).managersFrame (frameOf 0x40 0 3 [5, 0xA5])
    ∧ { station 2 with bdl := { (station 2).bdl with nodeId := 0xFF, state := 0 } }.managersFrame (frameOf 0x40 0 0xFE [1, 0, 31])
    ∧ beNat (slice (frameOf 0x40 0 0xFE [1, 0, 31]).payload 2 1) = 31 ∧ (∀ n ∈ [0, 1, 2], (station n).bdl.state = n)
    ∧ (station 1).bdl.manager = false := by
  unfold State.managersFrame State.hears
  decide +kernel

theorem witness_ringLinks : (station 2).up = true ∧ (station 2).boot.recovery = false ∧ 1000 ≤ (station 2).now
    ∧ (station 2).bdl.ring = 0 := by decide

/-- A SYNC taken by a station and by a manager of a greater tag; a SYNC lost; one due. -/
theorem witness_syncRows :
    ((station 2).hears (frameOf 0x01 0 0xFF (zeros 20)) ∧ (station 2).isNew (frameOf 0x01 0 0xFF (zeros 20)) = true)
    ∧ (∃ s : State, s.hears (frameOf 0x01 0 0xFF (zeros 20)) ∧ s.bdl.manager = true
      ∧ beNat (slice (frameOf 0x01 0 0xFF (zeros 20)).payload 16 4) < s.obj 0x1100 4)
    ∧ (∃ s : State, s.syncLost = true)
    ∧ (∃ s : State, s.up = true ∧ s.bdl.manager = true ∧ s.now % s.obj 0x1100 6 = 0 ∧ s.clk.lastSync ≠ s.now) := by
  unfold State.hears
  refine ⟨by decide +kernel,
    ⟨{ station 2 with bdl := { (station 2).bdl with manager := true }, dict := [(objKey 0x1100 4 0, 9)] }, by decide +kernel⟩,
    ⟨{ (station 2).setObj 0x3000 2 0 1 with clk := { Clock.reset with counter := 1000000 } }, by decide +kernel⟩,
    ⟨{ station 2 with bdl := { (station 2).bdl with manager := true }, clk := { Clock.reset with counter := 6400 } },
      by decide +kernel⟩⟩

/-- An offset at a first lock before READY, one within and one beyond the limit after it, and a jump. -/
theorem witness_offsetApplied :
    ((booting 11).clk.freeRun = false ∧ Sparse.wf dictDefault (booting 11).dict = true ∧ (booting 11).obj 0x3000 2 = 0
      ∧ (booting 11).clk.everLocked = false ∧ (booting 11).boot.ready = false
      ∧ (((booting 11).now : Nat) : Int) ≤ (5000000 + round10 20) / 1000)
    ∧ ((station 2).clk.freeRun = false ∧ (station 2).obj 0x3000 2 = 0 ∧ (station 2).boot.ready = true
      ∧ 1000 * (station 2).obj 0x3000 4 < (1000000000000 : Int).natAbs ∧ (0 : Int).natAbs ≤ 1000 * (station 2).obj 0x3000 4)
    ∧ (∃ s : State, s.clk.freeRun = false ∧ Sparse.wf dictDefault s.dict = true ∧ s.obj 0x3000 2 ≠ 0 ∧ s.clk.lastOffset = some 0
      ∧ 1000 < ((1001 : Int) - 0).natAbs) := by
  refine ⟨by decide +kernel, by decide +kernel,
    { (station 2).setObj 0x3000 2 0 1 with clk := { Clock.reset with lastOffset := some 0 } }, by decide +kernel⟩

theorem witness_delayRows :
    (∃ s : State, s.up = true ∧ s.bdl.upLink = true ∧ s.bdl.forward = [] ∧ 8 ≤ s.bdl.delayUp.length
      ∧ s.bdl.lastMeasUp + s.obj 0x1100 8 ≤ s.now)
    ∧ (station 2).hears (frameOf 0x02 1 0xFD []) ∧ (station 2).hears (frameOf 0x03 1 0xFD (zeros 6))
    ∧ beNat (slice (frameOf 0x03 1 0xFD (zeros 6)).payload 4 2) = 0 ∧ (frameOf 0x03 1 0xFD (zeros 6)).dir = .up
    ∧ meanDelay (addSample [] (1000 - 0 - 0)) ≤ 1000 ∧ 1000 < meanDelay (addSample [] (10000 - 0 - 0))
    ∧ (station 2).bdl.forward = [] ∧ (∃ f : TxFrame, { station 2 with bdl := { (station 2).bdl with forward := [f] } }.bdl.forward ≠ []) := by
  unfold State.hears
  refine ⟨⟨{ station 2 with
    bdl := { (station 2).bdl with delayUp := List.replicate 8 100 }, clk := { Clock.reset with counter := 100000000 } },
    by decide +kernel⟩, by decide +kernel, by decide +kernel, by decide +kernel, by decide +kernel, by decide +kernel, by decide +kernel,
    by decide, ⟨false, false, 0, 0, 0, 0, [], 0⟩, by decide⟩

/-- An event waiting on a ring. -/
def eventState : State := { station 2 with bdl := { (station 2).bdl with events := [⟨0, 6, 0, 990, 0, 0, 0, []⟩] } }

theorem witness_framesSent :
    ((station 2).hears (frameOf 0x20 1 0 []) ∧ (station 2).bdl.manager = false ∧ (frameOf 0x20 1 0 []).type ≠ 0x01
      ∧ (frameOf 0x20 1 0 []).dest ≠ 0xFD ∧ (station 2).isFor (frameOf 0x20 1 0 []) = false
      ∧ (station 2).bdl.forward.length < 4)
    ∧ (eventState.bdl.events ≠ [] ∧ eventState.mayOriginate = true ∧ eventState.bdl.state = 2 ∧ eventState.bdl.manager = false)
    ∧ (∃ s : State, s.reportDue 0 = true) ∧ (∃ s : State, s.heartbeatDue = true ∧ s.bdl.manager = false)
    ∧ (station 2).managersFrame (frameOf 0x30 0 0xFF [])
    ∧ (∃ s : State, s.up = true ∧ s.bdl.manager = false ∧ s.bdl.managerLost = false
      ∧ s.bdl.managerSeen + 3 * s.obj 0x1100 9 ≤ s.now) := by
  unfold State.managersFrame State.hears
  refine ⟨by decide +kernel, by decide +kernel,
    ⟨(station 2).setObj 0x1120 0 0 (0x3000 + 2 ^ 16 + 8 * 2 ^ 24 + 100 * 2 ^ 64), by decide +kernel⟩,
    ⟨{ station 2 with clk := { Clock.reset with counter := 100000000 } }, by decide +kernel⟩, by decide +kernel,
    ⟨{ station 2 with clk := { Clock.reset with counter := 100000000 } }, by decide +kernel⟩⟩

/-- A chip whose copy agrees with the symbol, at the wrap of its twelve bits; one that waits for a whole value. -/
theorem witness_tickSymbolRows :
    (∃ (s : State) (c : ChipClock), s.clk.chips[0]? = some c ∧ s.up = true ∧ c.reload = false ∧ s.clk.sent = some 1
      ∧ c.lastSymbol < 1 ∧ 1 % 4096 ≠ 0 ∧ (c.count + 1) % 4096 = 1)
    ∧ (∃ (s : State) (c : ChipClock), s.clk.chips[0]? = some c ∧ s.up = true ∧ c.reload = false ∧ s.clk.sent = some 2
      ∧ c.lastSymbol < 2 ∧ 2 % 4096 ≠ 0 ∧ (c.count + 1) % 4096 ≠ 2)
    ∧ (∀ count ∈ [0, 4095], ∃ (s : State) (c : ChipClock), s.clk.chips[0]? = some c ∧ s.up = true ∧ s.clk.sent = some 4096
      ∧ c.lastSymbol < 4096 ∧ c.count = count ∧ c.reload = false)
    ∧ (∃ (s : State) (c : ChipClock), s.clk.chips[0]? = some c ∧ s.up = true ∧ c.lastSymbol + 4 ≤ s.now)
    ∧ (∃ s : State, s.table.pending = true ∧ s.now % 4096 = 0 ∧ s.table.asked < s.now) ∧ State.reset.table.pending = false := by
  refine ⟨⟨{ State.reset with clk := { Clock.reset with chips := [⟨0, 0, false, false⟩], sent := some 1 } }, ⟨0, 0, false, false⟩,
      by decide⟩,
    ⟨{ State.reset with clk := { Clock.reset with chips := [⟨0, 0, false, false⟩], sent := some 2 } }, ⟨0, 0, false, false⟩,
      by decide⟩, ?_,
    ⟨serving [], ⟨0, 0, false, false⟩, by decide⟩,
    ⟨{ State.reset with
        table := { State.reset.table with pending := true, asked := 4000 }, clk := { Clock.reset with counter := 4096 } },
      by decide⟩, by decide⟩
  intro n h
  refine ⟨{ State.reset with clk := { Clock.reset with chips := [⟨n, 0, false, false⟩], sent := some 4096 } }, ⟨n, 0, false, false⟩, ?_⟩
  revert n
  decide

theorem witness_tickAdvances : State.reset.up = true ∧ State.reset.endTick.advance.phaseOne.1 = true
    ∧ { State.reset with pwr := { Power.reset with phase := .off } }.up = false
    ∧ { Clock.reset with slewNs := 1000 }.advance.period ≠ 100 := by decide +kernel
/-! ### Tests: expected values are the manual's own -/

theorem test_reset_queue : State.reset.pending = [] := rfl

/-- No row has bits, so no word spells a command (98). -/
theorem test_no_word : Sys2Proof.decodeTableWord 32 0x12345678 = none ∧ State.reset.withFetchWord 32 5 = State.reset := by
  decide

/-- The check values over "123456789" (03 R54; 15 R382). -/
theorem test_crc : crc32c [0x31, 0x32, 0x33, 0x34, 0x35, 0x36, 0x37, 0x38, 0x39] = 0xE3069283#32
    ∧ crc16 [0x31, 0x32, 0x33, 0x34, 0x35, 0x36, 0x37, 0x38, 0x39] = 0x29B1#16 := by decide +kernel

/-- The worked conversions into F8 (07). -/
theorem test_convert_f8 :
    toF8 false (val32 0x3E99999A) = (0x2A, Flags.none) ∧ toF8 false (val32 0x40080000) = (0x40, Flags.none)
    ∧ toF8 false (val32 0xC0666666) = (0xC6, Flags.none) ∧ toF8 false (val32 0x43EC0000) = (0x7F, Flags.none)
    ∧ toF8 false (val32 0x43F28000) = (0x7F, { Flags.none with saturated := true })
    ∧ toF8 false (val32 0x7F800000) = (0x7F, { Flags.none with saturated := true })
    ∧ toF8 false (val32 0x3A800000) = (0x00, Flags.none) ∧ toF8 false (val32 0x3BA3D70A) = (0x03, Flags.none)
    ∧ toF8 true (val32 0x3BA3D70A) = (0x00, { Flags.none with flushed := true })
    ∧ toF8 false (val32 0x80000000) = (0x00, Flags.none)
    ∧ toF8 false (val32 0x7F800001) = (0x80, { Flags.none with nanSeen := true, invalid := true }) := by decide +kernel

/-- The reverse conversions, and 472.0 into INT8 (07). -/
theorem test_convert_back : (toF32 false (decodeF8 0x2A)).1 = 0x3EA00000#32 ∧ (toF32 false (decodeF8 0x7F)).1 = 0x43F00000#32
    ∧ (toF32 false (decodeF8 0x01)).1 = 0x3B000000#32 ∧ (toF32 false (decodeF8 0x80)).1 = 0x7FC00000#32
    ∧ toInt false 8 (val32 0x43EC0000) = (127, { Flags.none with saturated := true })
    ∧ toInt true 8 (val32 0x43EC0000) = (216, Flags.none) := by decide +kernel

/-- A dot product of two BF16 rows. -/
def dotBf16 (xs ys : List Nat) : F32 × Flags := dotVal false (xs.map (decodeVal 1)) (ys.map (decodeVal 1))

/-- Why the tree is fixed (08). -/
theorem test_dot_tree : (dotBf16 [0x4580, 0x3F80, 0x3F80, 0xC580] [0x4580, 0x3F80, 0x3F80, 0x4580]).1 = 0x3F800000#32 := by
  decide +kernel

/-- Overflow with a NaN, and its variants, with the qualifiers of the completion (08). -/
theorem test_dot_overflow :
    [dotBf16 [0x7F00, 0x7FC1, 0x3F80, 0x4000] [0x4080, 0x3F80, 0x3F80, 0x4040],
      dotBf16 [0x7F00, 0x7F81, 0x3F80, 0x4000] [0x4080, 0x3F80, 0x3F80, 0x4040],
      dotBf16 [0x7F00, 0xFF00, 0x3F80, 0x4000] [0x4080, 0x4080, 0x3F80, 0x4040],
      dotBf16 [0x7F00, 0x0000, 0x3F80, 0x4000] [0x4080, 0x3F80, 0x3F80, 0x4040],
      dotBf16 [0x7F80, 0x7FC1, 0x3F80, 0x4000] [0x0000, 0x3F80, 0x3F80, 0x4040]].map (fun r => (r.1.toNat, r.2.quals))
      = [(0x7FC00000, 0x1008), (0x7FC00000, 0x3008), (0x7FC00000, 0x3008), (0x7F800000, 0x1000), (0x7FC00000, 0x2008)] := by
  decide +kernel

/-- Finding a lodestar node (03): rod, die and tile of node 0x4B0000C5. -/
theorem test_node_place : nodeSegment 0x4B0000C5 = 1200 ∧ rodOf 0x4B0000C5 = 26 ∧ nodeJ 0x4B0000C5 = 3
    ∧ tileDie 0x5B0C00DA = 53
    ∧ nodePlace { collOf 2 with sketchBits := 512, degree := 40, dims := 896, metric := 1 } 0x5B0C0000 0x4B0000C5 = (0x5B0C00DA, 0)
    ∧ vecPlace { collOf 2 with sketchBits := 512, degree := 40, dims := 896, metric := 1 } 0x5B1C0000 0x4B0000C5
      = (0x5B1C001A, 3) := by decide +kernel

/-- Events raised, cleared by sequence and raised again (14): codes 1 and 3 on port A. -/
theorem test_events_clear :
    let p := (({ PortState.reset with evCount := 0x40 }.raise 1).raise 3).raise 1
    (p.pending, p.evCount, p.raiseSeq.getD 1 0, p.raiseSeq.getD 3 0) = (0x000A#16, 0x43, 0x43, 0x42) := by decide +kernel

/-- The id a node control frame assigns is taken: the station stops unassigned and raises ATTN 6 (15 R387). -/
theorem test_assign :
    let t := ({ station 0 with bdl := { (station 0).bdl with nodeId := 0xFF } } : State).applyOrder ⟨1001, 2, 1, 0, .nodeCtrl 1 7⟩
    (t.bdl.nodeId, t.bdl.state, t.portA.pending) = (7, 1, 0x0040#16) := by decide +kernel

/-- IDCODE reads 0x06402001 (19 R487). -/
theorem test_idcode : (match exec .idcode State.reset with | .next t => t.boot.tdo | _ => 0) = 0x06402001#32 := by decide

/-- A tick from reset: the counter is 1 (02 R21). -/
theorem test_tick : (match exec .tick State.reset with | .next t => t.clk.counter | _ => 0) = 1 := by decide +kernel

/-! ### WellFormed refuses an ill-formed term for each of its checks -/

theorem test_wf_entry_length : (Instr.entryFetch 5 []).wf = false := by decide
theorem test_wf_entry_queue : (Instr.entryFetch 262144 (zeros 128)).wf = false ∧ (Instr.entryFetch 262143 (zeros 128)).wf = true := by
  decide +kernel
theorem test_wf_queues : (Instr.sqTailDoorbell .A 0 262144 0).wf = false ∧ (Instr.cqHeadDoorbell .A 0 262144 0).wf = false
    ∧ (Instr.cqStall 262144).wf = false ∧ (Instr.sqReadError 262144).wf = false := by decide
theorem test_wf_mailbox : (Instr.mbxSend .A 0 0 []).wf = false := by decide
theorem test_wf_thermal : (Instr.thermalSample []).wf = false := by decide
theorem test_wf_window : (Instr.winWrite .A 0 ⟨0, 0, 0, 0, 0⟩ (zeros 4097)).wf = false := by decide +kernel
theorem test_wf_frames : ∀ i ∈ [Instr.syncFrame (frameOf 0x01 0 0xFF (zeros 65)) 0 0, .odRead (frameOf 0x10 0 3 (zeros 65)),
    .odWrite (frameOf 0x11 0 3 (zeros 65))], i.wf = false := by decide +kernel
theorem test_wf_nonces : (Instr.challenge .A 0 []).wf = false ∧ (Instr.getMeasurements .A 0 []).wf = false := by decide

/-- The invariant's premise is met at reset, and a step from there is a next state. -/
theorem witness_invariantKept : State.reset.Inv ∧ step State.reset = .next State.reset := by
  unfold State.Inv
  exact ⟨by decide +kernel, rfl⟩

/-- The offset of the worked SYNC (15 R391): −32 ns is slewed and tick_source reads 2. -/
theorem test_sync_offset :
    let t := ({ station 2 with clk := { Clock.reset with counter := 9000065 } } : State).applySync 9000065812 (9000065780 - 9000065812)
    (t.clk.slewNs, t.obj 0x3000 2, t.clk.counter) = (-32, 2, 9000065) := by decide +kernel

end Sys2Proof.Tests
end

section
namespace Sys2Proof.Machine

/-! ### Fetched commands that wait for phase 2 -/

/-- The order of a command and the command's own stage are the whole change of `State.orderCmd`. -/
theorem State.orderCmd_eq_waitsEffect (s : State) (c : Cmd) (place : Nat) : s.orderCmd c place = s.waitsEffect c place := rfl

/-- Holding the input buffer afterwards is one update with the change of stage. -/
theorem State.orderCmd_modCmd_inbuf (s : State) (c : Cmd) (place : Nat) (inbuf : Bytes) :
    (s.orderCmd c place).modCmd c.cid (fun d => { d with inbuf := inbuf }) = s.registered c place inbuf := by
  have hmap := mapWhere_comp (fun d : Cmd => decide (d.cid = c.cid)) (fun d => { d with stage := .effect (s.now + 1) })
    (fun d => { d with inbuf := inbuf }) (fun _ hd => hd) s.cmds
  simp only [State.orderCmd_eq_waitsEffect, State.modCmd, State.waitsEffect, State.registered, hmap]

theorem State.ready?_cid {s : State} {cid op : Nat} {c : Cmd} (h : s.ready? cid op = some c) : c.cid = cid :=
  State.cmd?_cid (State.ready?_some h).1

theorem execRehome_ready {s : State} {cid : Nat} {c : Cmd} (inbuf : Bytes) (h : s.ready? cid Op.rehome = some c) :
    execRehome cid inbuf s = .next (s.registered c 0 (fit c.inLen inbuf)) := by
  obtain rfl := State.ready?_cid h
  simp only [execRehome, h, State.orderCmd_modCmd_inbuf]

theorem execCollectionCreate_ready {s : State} {cid : Nat} {c : Cmd} (place : Nat) (inbuf : Bytes)
    (h : s.ready? cid Op.collectionCreate = some c) :
    execCollectionCreate cid inbuf place s = .next (s.registered c place inbuf) := by
  obtain rfl := State.ready?_cid h
  simp only [execCollectionCreate, h, State.orderCmd_modCmd_inbuf]

theorem execObjWrite_ready {s : State} {cid : Nat} {c : Cmd} (inbuf : Bytes) (h : s.ready? cid Op.objWrite = some c) :
    execObjWrite cid inbuf s = .next (s.registered c 0 inbuf) := by
  obtain rfl := State.ready?_cid h
  simp only [execObjWrite, h, State.orderCmd_modCmd_inbuf]

theorem execModelLoad_ready {s : State} {cid : Nat} {c : Cmd} (place : Nat) (inbuf : Bytes) {pkg : ModelPkg} {tiles : List Bytes}
    (h : s.ready? cid Op.modelLoad = some c)
    (hp : readPackage (c.packedTiles inbuf) (recSaveGap (s.partRec c.part)) = .good pkg tiles) :
    execModelLoad cid inbuf place s = .next (s.registered c place inbuf) := by
  obtain rfl := State.ready?_cid h
  simp only [execModelLoad, h, hp, State.orderCmd_modCmd_inbuf]

/-- Settles O2: the rows with an input buffer by `State.orderCmd_modCmd_inbuf`, the others are `State.orderCmd` itself. -/
theorem commandRowsRegister : Obligations.CommandRowsRegister := by
  unfold Obligations.CommandRowsRegister
  refine ⟨fun s cid place inbuf c => ⟨?_, ?_, ?_, ?_⟩, fun s cid place c => ⟨?_, ?_, ?_, ?_, ?_, ?_, ?_, ?_⟩⟩
  · exact fun h => execRehome_ready inbuf h
  · exact fun h => execCollectionCreate_ready place inbuf h
  · exact fun h => execObjWrite_ready inbuf h
  · exact fun _ _ h hp => execModelLoad_ready place inbuf h hp
  · exact fun h => by simp only [exec, execCollectionDrop, h, State.orderCmd_eq_waitsEffect]
  · exact fun h => by simp only [exec, execModelEvict, h, State.orderCmd_eq_waitsEffect]
  · exact fun h => by simp only [exec, execTierMove, h, State.orderCmd_eq_waitsEffect]
  · exact fun h => by simp only [exec, execFlush, h, State.orderCmd_eq_waitsEffect]
  · exact fun h => by simp only [exec, execQueueCreate, h, State.orderCmd_eq_waitsEffect]
  · exact fun h => by simp only [exec, execQueueDelete, h, State.orderCmd_eq_waitsEffect]
  · exact fun h => by simp only [exec, execQueueReset, h, State.orderCmd_eq_waitsEffect]
  · exact fun h ht => by simp only [exec, execObjRead, h, if_pos ht, State.orderCmd_eq_waitsEffect]

/-! ### Resets -/

theorem State.takes_eq_true {s : State} {p : Port} (hup : s.up = true) (hp : (s.port p).inReset = false) : s.takes p = true := by
  simp only [State.takes, hup, hp, Bool.not_false, Bool.and_self]

/-- Settles O6: each row of a running module orders its reset, a port's only while the port takes packets. -/
theorem resetRowsStamped : Obligations.ResetRowsStamped := by
  unfold Obligations.ResetRowsStamped
  intro s p fn asserted hup
  refine ⟨?_, fun hp => ?_, fun hp hfn => ?_, fun hlow => ?_, fun hlow => ?_⟩
  · simp only [exec, execPerst, hup, if_true, State.order_eq_ordered]
  · simp only [exec, execHotReset, State.takes_eq_true hup hp, if_true, State.order_eq_ordered]
  · simp only [exec, execFunctionLevelReset, State.takes_eq_true hup hp, hfn, decide_true, Bool.and_self, if_true,
      State.order_eq_ordered]
  · simp only [exec, execMrst, hup, hlow, if_true, Bool.not_true, Bool.or_self, Bool.false_eq_true, if_false,
      State.order_eq_ordered]
  · simp only [exec, execMrst, hlow, if_true, Bool.false_eq_true, if_false]


/-- Taking the dump touches neither memory, flash nor the boot area. -/
theorem State.takeDump_frame (s : State) : s.takeDump.mem = s.mem ∧ s.takeDump.flash = s.flash ∧ s.takeDump.clk = s.clk
    ∧ s.takeDump.boot = s.boot := by
  unfold State.takeDump; split <;> exact ⟨rfl, rfl, rfl, rfl⟩

/-- Only host memory keeps its bytes when SRAM and HBM are lost. -/
theorem get_hostCells (m : List Host.Cell) (a : Nat) :
    Sparse.get memDefault (hostCells m) a = if 0x8000000000000000 ≤ a then Sparse.get memDefault m a else 0 := by
  simp only [hostCells, Sparse.get_keep, decide_eq_true_eq, memDefault]

theorem State.endDump_byte (s : State) (a : Nat) :
    s.endDump.byte a = if 0x8000000000000000 ≤ a then s.byte a else 0 := by
  have hmem : s.endDump.mem = hostCells s.mem := congrArg hostCells s.takeDump_frame.1
  rw [State.byte, hmem, get_hostCells]; rfl

/-- Settles O36: what `State.cleared` keeps and clears, with `State.endDump_byte` for memory; the release is `State.startBoot`. -/
theorem resetRows : Obligations.ResetRows := by
  unfold Obligations.ResetRows
  intro s t0
  refine ⟨fun rails hp => ?_, fun hp hlow hdump hrise => ?_⟩
  · obtain ⟨-, hflash, hclk, hboot⟩ := s.takeDump_frame
    have hworld : s.takeDump.clk.world = s.clk.world := congrArg Clock.world hclk
    refine ⟨s.endDump, ?_, congrArg PowerPhase.held hworld, ?_, hflash, rfl, ?_, rfl, fun a ha => ?_, fun a ha => ?_⟩
    · simp only [exec, execModuleResetEffect, hp]
    · exact congrArg (fun w => { Clock.reset with world := w }) hworld
    · exact (congrArg Boot.area hboot : s.takeDump.boot.area = s.boot.area)
    · rw [State.endDump_byte, if_neg (by omega)]
    · rw [State.endDump_byte, if_pos ha]
  · refine ⟨s.startBoot, ?_, rfl, rfl, rfl⟩
    simp only [exec, execResetRelease, hp, hlow, hdump, hrise, Bool.not_false, decide_true, Bool.and_self, if_true]

/-! ### Offsets of a SYNC (15 R391) -/

/-- Raising an event: the code on both ports, and at most the queue of EVENTs with its count of dropped ones. -/
theorem State.raiseEvent_frame (s : State) (code : Nat) : ∃ b d, s.raiseEvent code
    = { s with portA := s.portA.raise code, portB := s.portB.raise code, bdl := b, dict := d }
    ∧ (d = s.dict ∨ ∃ v, d = Sparse.put dictDefault s.dict (objKey 0x1100 0x12 0) v) := by
  simp only [State.raiseEvent, State.queueEvent]
  split
  · split
    · exact ⟨_, _, rfl, .inr ⟨_, rfl⟩⟩
    · exact ⟨_, _, rfl, .inl rfl⟩
  · exact ⟨_, _, rfl, .inl rfl⟩

/-- Raising an event leaves every object but the count of dropped EVENTs. -/
theorem State.raiseEvent_obj {s : State} {code i u a : Nat} (h : objKey i u a ≠ objKey 0x1100 0x12 0) :
    (s.raiseEvent code).obj i u a = s.obj i u a := by
  obtain ⟨b, d, e, rfl | ⟨v, rfl⟩⟩ := s.raiseEvent_frame code <;> rw [e]
  · rfl
  · exact Sparse.get_put_other h

theorem PortState.raise_pending_self (p : PortState) {code : Nat} (h : code < 16) : (p.raise code).pending.getLsbD code = true := by
  simp [PortState.raise, setBit16, h]

/-- A station that is not locked and may not step its counter: it free-runs or slews. -/
theorem State.applySync_ready {s : State} {arrival offset : Int} (hfree : s.clk.freeRun = false) (hsrc : s.obj 0x3000 2 = 0)
    (hready : s.boot.ready = true) : s.applySync arrival offset
      = if 1000 * s.obj 0x3000 4 < offset.natAbs then (s.setObj 0x3000 3 0 (i32 offset)).runFree
        else (s.setObj 0x3000 3 0 (i32 offset)).lockAt offset := by
  have h2 : (s.setObj 0x3000 3 0 (i32 offset)).obj 0x3000 2 = 0 := by rw [State.obj_setObj_other (by decide), hsrc]
  have h4 : (s.setObj 0x3000 3 0 (i32 offset)).obj 0x3000 4 = s.obj 0x3000 4 := State.obj_setObj_other (by decide)
  simp only [State.applySync, h2, h4, State.setObj_clk, State.setObj_boot, hfree, hready, ne_eq, not_true_eq_false, decide_false,
    Bool.false_and, Bool.false_eq_true, if_false, Bool.not_true, Bool.and_false]

/-- The first lock before READY steps the counter. -/
theorem State.applySync_first {s : State} {arrival offset : Int} (hfree : s.clk.freeRun = false) (hsrc : s.obj 0x3000 2 = 0)
    (hever : s.clk.everLocked = false) (hready : s.boot.ready = false) (hle : (s.now : Int) ≤ (arrival + round10 offset) / 1000) :
    s.applySync arrival offset = (s.setObj 0x3000 3 0 (i32 offset)).stepTo (arrival + round10 offset) offset := by
  have h2 : (s.setObj 0x3000 3 0 (i32 offset)).obj 0x3000 2 = 0 := by rw [State.obj_setObj_other (by decide), hsrc]
  have hnow : (s.setObj 0x3000 3 0 (i32 offset)).now = s.now := rfl
  simp only [State.applySync, h2, hnow, State.setObj_clk, State.setObj_boot, hfree, hever, hready, hle, ne_eq, not_true_eq_false,
    decide_false, decide_true, Bool.false_and, Bool.false_eq_true, if_false, Bool.not_false, Bool.and_self, if_true]

/-- A locked station counts a jump of the offset and does nothing else with it. -/
theorem State.applySync_jump {s : State} {arrival offset o : Int} (hfree : s.clk.freeRun = false) (hsrc : s.obj 0x3000 2 ≠ 0)
    (hlast : s.clk.lastOffset = some o) (hjump : 1000 < (offset - o).natAbs) :
    s.applySync arrival offset = (s.setObj 0x3000 3 0 (i32 offset)).count 0x1100 0x11 1 := by
  have h2 : (s.setObj 0x3000 3 0 (i32 offset)).obj 0x3000 2 ≠ 0 := by rwa [State.obj_setObj_other (by decide)]
  simp only [State.applySync, h2, State.setObj_clk, hfree, hlast, hjump, ne_eq, not_false_eq_true, decide_true, Bool.false_eq_true,
    if_false, Bool.and_self, if_true]

/-- Settles O51: the branches of `State.applySync`, each by its lemma. -/
theorem offsetApplied : Obligations.OffsetApplied := by
  unfold Obligations.OffsetApplied
  intro s arrival offset hfree hwf
  refine ⟨fun hsrc hever hready hle => ?_, fun hsrc hready hfar => ?_, fun hsrc hready hnear => ?_, fun o hsrc hlast hjump => ?_⟩
  · rw [State.applySync_first hfree hsrc hever hready hle]; rfl
  · rw [State.applySync_ready hfree hsrc hready, if_pos hfar]
    refine ⟨_, rfl, ?_⟩
    obtain ⟨b, d, e, -⟩ := ({ s.setObj 0x3000 3 0 (i32 offset) with
      clk := { s.clk with freeRun := true, slewNs := 0 } }.tickSource 0).raiseEvent_frame 8
    have hrun : (s.setObj 0x3000 3 0 (i32 offset)).runFree = _ := e
    refine ⟨by rw [hrun]; rfl, by rw [hrun]; rfl, ?_, ?_, ?_⟩
    · exact (State.raiseEvent_obj (by decide)).trans (State.obj_setObj_self (State.wf_setObj hwf))
    · rw [hrun]; exact PortState.raise_pending_self _ (by decide)
    · rw [hrun]; exact PortState.raise_pending_self _ (by decide)
  · rw [State.applySync_ready hfree hsrc hready, if_neg (by omega)]
    refine ⟨_, rfl, rfl, ?_, rfl, ?_⟩
    · simp only [State.lockAt, State.tickSource, State.setObj_clk, decide_eq_true_eq]
    · refine (State.obj_setObj_self (State.wf_setObj hwf)).trans ?_
      simp only [decide_eq_true_eq]
  · rw [State.applySync_jump hfree hsrc hlast hjump]
    refine ⟨_, rfl, rfl, ?_⟩
    rw [State.obj_count_self (State.wf_setObj hwf), State.obj_setObj_other (by decide)]

/-! ### Tick symbols and the banks of the tick table -/

/-- The skew a chip shows is at most 20 ns, and measuring it changes nothing else of the clock. -/
theorem State.measureSkew_frame (s : State) : ∃ k, k ≤ max s.clk.skewMax 20
    ∧ s.measureSkew = { s with clk := { s.clk with skewMax := k }, free := s.free + 1 } :=
  ⟨max s.clk.skewMax (Config.freeValue s.free % 21), by omega, rfl⟩

/-- Measuring the skew, and counting, add to the change of one chip's copy only what `State.chipChanged` allows. -/
theorem State.chipChanged.measureSkew {s t : State} {chip : Nat} {c : ChipClock} (h : s.chipChanged t chip c) :
    s.chipChanged t.measureSkew chip c := by
  obtain ⟨e, hc, ho⟩ := h
  obtain ⟨k, -, hk⟩ := t.measureSkew_frame
  rw [hk]
  exact ⟨by rw [e], hc, ho⟩

theorem State.chipChanged.count {s t : State} {chip : Nat} {c : ChipClock} (h : s.chipChanged t chip c) (i u n a : Nat) :
    s.chipChanged (t.count i u n a) chip c := by
  obtain ⟨e, hc, ho⟩ := h
  exact ⟨by rw [e]; rfl, hc, ho⟩

/-- Is a symbol one that is counted as disagreeing: the copy does not already wait for its reload? -/
def ChipClock.disagrees (c : ChipClock) (n : Tick) : Bool := !c.reload && decide ((c.count + 1) % 4096 ≠ n % 4096)

/-- A chip's clock moved on by the symbol of the last edge, and the skew measured. -/
def State.chipSymbol (s : State) (chip : Nat) (n : Tick) (full : Option Nat) : State :=
  (s.modChip chip (fun c => c.symbol s.now (n % 4096) full)).measureSkew

theorem execTickSymbol_sent {s : State} {chip : Fin 8} {n : Tick} {c : ChipClock} {full : Option (BitVec 64)}
    (hc : s.clk.chips[chip.val]? = some c) (hup : s.up = true) (hsent : s.clk.sent = some n) (hlast : c.lastSymbol < n)
    (hfull : full = if n % 4096 = 0 then some (BitVec.ofNat 64 n) else none) :
    execTickSymbol chip (BitVec.ofNat 12 n) full s
      = .next (if c.disagrees n then (s.chipSymbol chip n (full.map (fun v => v.toNat))).count 0x3000 8 1
        else s.chipSymbol chip n (full.map (fun v => v.toNat))) := by
  have hsym : isSymbol n (BitVec.ofNat 12 n) full = true := by simp only [isSymbol, hfull, decide_true, Bool.and_self]
  simp only [execTickSymbol, hc, hsent, hup, hsym, hlast, decide_true, Bool.and_self, if_true, BitVec.toNat_ofNat,
    ChipClock.disagrees, State.chipSymbol]
  rfl

/-- The state after a symbol: what it says of the skew, of the chip and of the count of symbols that disagree. -/
def State.symbolTaken (s t : State) (chip : Nat) (c c' : ChipClock) (n : Tick) : Prop :=
  t.clk.skewMax ≤ max s.clk.skewMax 20 ∧ s.chipChanged t chip c'
    ∧ t.dict = if c.disagrees n then Sparse.put dictDefault s.dict (objKey 0x3000 8 0) (s.obj 0x3000 8 + 1) else s.dict

theorem execTickSymbol_taken {s : State} {chip : Fin 8} {n : Tick} {c : ChipClock} {full : Option (BitVec 64)}
    (hc : s.clk.chips[chip.val]? = some c) (hup : s.up = true) (hsent : s.clk.sent = some n) (hlast : c.lastSymbol < n)
    (hfull : full = if n % 4096 = 0 then some (BitVec.ofNat 64 n) else none) :
    ∃ t, execTickSymbol chip (BitVec.ofNat 12 n) full s = .next t
      ∧ s.symbolTaken t chip c (c.symbol s.now (n % 4096) (full.map (fun v => v.toNat))) n := by
  refine ⟨_, execTickSymbol_sent hc hup hsent hlast hfull, ?_⟩
  have hskew : (s.chipSymbol chip n (full.map (fun v => v.toNat))).clk.skewMax ≤ max s.clk.skewMax 20 := by
    obtain ⟨k, hk, e⟩ := (s.modChip chip (fun c => c.symbol s.now (n % 4096) (full.map (fun v => v.toNat)))).measureSkew_frame
    rw [State.chipSymbol, e]; exact hk
  have hchip := (State.modChip_changed (fun c => c.symbol s.now (n % 4096) (full.map (fun v => v.toNat))) hc).measureSkew
  split
  · next hd => exact ⟨hskew, hchip.count .., by rw [if_pos hd]; rfl⟩
  · next hd => exact ⟨hskew, hchip, by rw [if_neg hd]; rfl⟩

theorem ChipClock.disagrees_iff {c : ChipClock} {n : Tick} :
    c.disagrees n = true ↔ c.reload = false ∧ (c.count + 1) % 4096 ≠ n % 4096 := by
  simp only [ChipClock.disagrees, Bool.and_eq_true, Bool.not_eq_true', decide_eq_true_eq]

theorem execTickSymbolTimeout_silent {s : State} {chip : Fin 8} {c : ChipClock} (hc : s.clk.chips[chip.val]? = some c)
    (hup : s.up = true) (hlate : c.lastSymbol + 4 ≤ s.now) :
    execTickSymbolTimeout chip s = .next (s.modChip chip (fun c => { c with stopped := true })) := by
  simp only [execTickSymbolTimeout, hc, hup, hlate, decide_true, Bool.and_self, if_true]

theorem State.exchanges_iff {s : State} :
    s.exchanges = true ↔ s.table.pending = true ∧ s.now % 4096 = 0 ∧ s.table.asked < s.now := by
  simp only [State.exchanges, State.now, Bool.and_eq_true, decide_eq_true_eq, and_assoc]

/-- Settles O55: a symbol by `execTickSymbol_taken`, the exchange of the banks by `State.exchanges_iff`. -/
theorem tickSymbolRows : Obligations.TickSymbolRows := by
  unfold Obligations.TickSymbolRows
  refine ⟨fun s chip n c hc hup => ⟨fun hsent hlast hn => ?_, fun hsent hlast hn => ?_, fun hlate => ?_⟩,
    fun s => ⟨fun hp ht hask => ?_, fun hno => ?_⟩⟩
  · obtain ⟨t, ht, hskew, hchip, hdict⟩ := execTickSymbol_taken hc hup hsent hlast (by rw [if_neg hn] : none = _)
    refine ⟨t, ht, hskew, hchip, fun hsame => ?_, fun hr hne => ?_⟩
    · rw [hdict, if_neg (by rw [ChipClock.disagrees_iff]; rcases hsame with hr | he <;> simp [*])]
    · rw [hdict, if_pos (ChipClock.disagrees_iff.2 ⟨hr, hne⟩)]
  · obtain ⟨t, ht, -, hchip, hdict⟩ := execTickSymbol_taken hc hup hsent hlast (by rw [if_pos hn] : some (BitVec.ofNat 64 n) = _)
    refine ⟨t, ht, ?_, fun hr hne => ?_⟩
    · simpa only [ChipClock.symbol, Option.map_some, BitVec.toNat_ofNat, hn] using hchip
    · rw [hdict, if_pos (ChipClock.disagrees_iff.2 ⟨hr, by rwa [hn]⟩)]
  · exact ⟨_, execTickSymbolTimeout_silent hc hup hlate, State.modChip_changed _ hc, rfl⟩
  · simp only [exec, execBankExchange, State.exchangeBanks, State.exchanges_iff.2 ⟨hp, ht, hask⟩, if_true]
  · have : ¬ s.exchanges = true := by rw [State.exchanges_iff]; rcases hno with h | h | h <;> simp [h]
    simp only [exec, execBankExchange, State.exchangeBanks, if_neg this]

/-! ### The tick object, and the module after reset -/

/-- Settles O56: 0x3000:01 is shown, not held. -/
theorem tickRead : Obligations.TickRead := by
  unfold Obligations.TickRead
  intro s
  rfl

/-- Settles O58: `State.reset` field by field; the two objects read their defaults. -/
theorem resetState : Obligations.ResetState := by
  unfold Obligations.ResetState
  refine ⟨rfl, rfl, rfl, rfl, rfl, rfl, rfl, rfl, rfl, rfl, fun p => ?_, rfl, rfl, rfl, by decide, by decide⟩
  cases p <;> exact ⟨rfl, rfl, rfl, rfl⟩

/-- Settles O59: memory and dictionary are empty, and the module is on. -/
theorem invariantAtReset : Obligations.InvariantAtReset := by
  unfold Obligations.InvariantAtReset State.Inv
  exact ⟨State.wf_reset, Sparse.wf_nil _, by decide, rfl, fun _ => rfl⟩

end Sys2Proof.Machine
end

section
namespace Sys2Proof.Machine

/-! ### The invariant in one power phase

Almost every function of the model leaves the phase of the power state alone. `State.Steady ph` is the invariant together with
the phase, so that the one part of the invariant that speaks of the phase needs no argument in those functions. -/

/-- A good state in the power phase `ph`. -/
structure State.Steady (ph : PowerPhase) (s : State) : Prop where
  inv : s.Inv
  phase : s.pwr.phase = ph

/-- What the invariant reads of a state. -/
def State.core (s : State) : (List Host.Cell × List (Nat × Nat)) × (Nat × Nat × Tick) × PowerPhase :=
  ((s.mem, s.dict), (s.clk.period, s.clk.chips.length, s.clk.counter), s.pwr.phase)

/-- An answer whose next state, if it is one, satisfies `P`. -/
def NextHolds (P : State → Prop) (a : Ans) : Prop := ∀ t, a = .next t → P t

variable {ph : PowerPhase} {P : State → Prop} {s t : State} {a b : Ans} {c : Prop} {_ : Decidable c} {α : Type}

theorem State.core_eq_iff : t.core = s.core ↔ (t.mem = s.mem ∧ t.dict = s.dict)
    ∧ (t.clk.period = s.clk.period ∧ t.clk.chips.length = s.clk.chips.length ∧ t.clk.counter = s.clk.counter)
    ∧ t.pwr.phase = s.pwr.phase := by
  simp only [State.core, Prod.mk.injEq]

/-- A state that reads the same where the invariant looks is as good. -/
theorem State.Steady.same (h : s.Steady ph) (e : t.core = s.core) : t.Steady ph := by
  obtain ⟨⟨hm, hd⟩, ⟨hp, hch, hct⟩, hph⟩ := State.core_eq_iff.1 e
  exact ⟨by simpa only [State.Inv, hm, hd, hp, hch, hct, hph] using h.inv, hph.trans h.phase⟩

namespace State.Steady

theorem ite {s t : State} (hs : s.Steady ph) (ht : t.Steady ph) : (if c then s else t).Steady ph := by
  split
  · exact hs
  · exact ht

theorem ite_fst {β : Type} {p q : State × β} (hp : p.1.Steady ph) (hq : q.1.Steady ph) : (if c then p else q).1.Steady ph := by
  split
  · exact hp
  · exact hq

theorem ite_snd {β : Type} {p q : β × State} (hp : p.2.Steady ph) (hq : q.2.Steady ph) : (if c then p else q).2.Steady ph := by
  split
  · exact hp
  · exact hq

theorem dite {f : c → State} {g : ¬ c → State} (hs : ∀ h, (f h).Steady ph) (ht : ∀ h, (g h).Steady ph) :
    (if h : c then f h else g h).Steady ph := by
  split
  · exact hs _
  · exact ht _

theorem counter_of_resting (h : s.Steady ph) (hr : s.pwr.phase.resting = true) : s.clk.counter = 0 := by
  obtain ⟨-, -, -, -, hzero⟩ := h.inv
  exact hzero hr

/-- The phase may change to one in which the counter need not be 0, or while it is 0. -/
theorem enter {p : PowerPhase} (h : s.Steady ph) (hp : p.resting = true → s.clk.counter = 0) :
    ({ s with pwr := { s.pwr with phase := p } } : State).Steady p := by
  obtain ⟨⟨hm, hd, hperiod, hch, -⟩, -⟩ := h
  exact ⟨⟨hm, hd, hperiod, hch, hp⟩, rfl⟩

theorem foldl {f : State → α → State} {l : List α} (h : s.Steady ph) (hf : ∀ {s : State} (x : α), s.Steady ph → (f s x).Steady ph) :
    (l.foldl f s).Steady ph := List.foldlRecOn l f h fun _ hs x _ => hf x hs

/-- The state of a pair, once the pair has been taken apart. -/
theorem of_fst {β : Type} {p : State × β} {x : β} (e : p = (t, x)) (h : p.1.Steady ph) : t.Steady ph := by subst e; exact h

theorem of_snd {β : Type} {p : β × State} {x : β} (e : p = (x, t)) (h : p.2.Steady ph) : t.Steady ph := by subst e; exact h

end State.Steady

namespace NextHolds

theorem next (h : P s) : NextHolds P (.next s) := fun _ e => by cases e; exact h

theorem refused {r : Refusal} : NextHolds P (.refused r) := fun _ e => by cases e

theorem inv (h : NextHolds (State.Steady ph) a) : NextHolds State.Inv a := fun t e => (h t e).inv

theorem ite (ha : NextHolds P a) (hb : NextHolds P b) : NextHolds P (if c then a else b) := by
  split
  · exact ha
  · exact hb

end NextHolds

/-- A record update over `s` that leaves alone the fields of which the invariant reads. -/
theorem State.Steady.upd {pending orders receipt portA portB sqs cqs msix posted wins boxes cmds nextCid colls chg cache searches scan
    tags scanFree wb carry tensor shares units bdl boot table ps flash sys free} (h : s.Steady ph) :
    State.Steady ph ⟨pending, s.clk, orders, receipt, s.dict, portA, portB, sqs, cqs, msix, posted, wins, boxes, cmds, nextCid, colls,
      chg, cache, searches, scan, tags, scanFree, wb, carry, tensor, shares, s.pwr, units, bdl, boot, table, ps, s.mem, flash, sys,
      free⟩ := h.same rfl

/-- What an instruction of a frame makes of the state is a good state in the power phase `ph`. -/
def TileSteady (ph : PowerPhase) (r : TileEffect) : Prop := ∀ t c, r = some (t, c) → t.Steady ph

namespace TileSteady

theorem none : TileSteady ph none := fun _ _ e => by cases e

theorem some {x : FrameCtx} (h : s.Steady ph) : TileSteady ph (some (s, x)) := fun _ _ e => by cases e; exact h

theorem ite {a b : TileEffect} (ha : TileSteady ph a) (hb : TileSteady ph b) : TileSteady ph (if c then a else b) := by
  split
  · exact ha
  · exact hb

end TileSteady

namespace State.Steady

theorem stateOf (h : s.Steady ph) (ha : NextHolds (State.Steady ph) a) : (stateOf s a).Steady ph := by
  cases a with
  | next t => exact ha t rfl
  | fault r => exact h
  | refused r => exact h

/-- A row taken as part of another one. -/
theorem run {f : State → Ans} (h : s.Steady ph) (hf : ∀ {s : State}, s.Steady ph → NextHolds (State.Steady ph) (f s)) :
    (Machine.stateOf s (f s)).Steady ph := h.stateOf (hf h)

theorem setObj {i u a v : Nat} (h : s.Steady ph) : (s.setObj i u a v).Steady ph := by
  obtain ⟨⟨hm, hd, hrest⟩, hph⟩ := h
  exact ⟨⟨hm, State.wf_setObj hd, hrest⟩, hph⟩

theorem count {i u n a : Nat} (h : s.Steady ph) : (s.count i u n a).Steady ph := h.setObj

theorem poke {a : Nat} {bs : Bytes} (h : s.Steady ph) : (s.poke a bs).Steady ph := by
  obtain ⟨⟨hm, hrest⟩, hph⟩ := h
  exact ⟨⟨State.wf_poke hm, hrest⟩, hph⟩

theorem keepDict {p : Nat → Bool} (h : s.Steady ph) : ({ s with dict := Sparse.keep p s.dict } : State).Steady ph := by
  obtain ⟨⟨hm, hd, hrest⟩, hph⟩ := h
  exact ⟨⟨hm, Sparse.wf_keep hd, hrest⟩, hph⟩

theorem clearDict (h : s.Steady ph) : ({ s with dict := [] } : State).Steady ph := by
  obtain ⟨⟨hm, -, hrest⟩, hph⟩ := h
  exact ⟨⟨hm, Sparse.wf_nil _, hrest⟩, hph⟩

theorem keepMem {p : Nat → Bool} (h : s.Steady ph) : ({ s with mem := Sparse.keep p s.mem } : State).Steady ph := by
  obtain ⟨⟨hm, hrest⟩, hph⟩ := h
  exact ⟨⟨Memory.wf_keep hm, hrest⟩, hph⟩

end State.Steady

/-- A tick lasts 99, 100 or 101 periods, and advancing keeps the channel chips. -/
theorem Clock.advance_frame (c : Clock) : c.advance.period ∈ [99, 100, 101] ∧ c.advance.chips = c.chips := by
  unfold Clock.advance
  extract_lets c1 left
  have hslew : (if 0 < c1.slewNs then 99 else 101 : Nat) ∈ [99, 100, 101] := by split <;> simp
  split
  · exact ⟨hslew, rfl⟩
  · exact ⟨by simp, rfl⟩

/-- What a batch of a build makes of the state is a good state in the power phase `ph`. -/
def BuiltSteady (ph : PowerPhase) (r : Built) : Prop := ∀ t f ts, r = .ok (t, f, ts) → t.Steady ph

namespace BuiltSteady

theorem error {x : Nat × Nat} : BuiltSteady ph (.error x) := fun _ _ _ e => by cases e

theorem ok {f : Flags} {ts : List Nat} (h : s.Steady ph) : BuiltSteady ph (.ok (s, f, ts)) := fun _ _ _ e => by cases e; exact h

theorem ite {a b : Built} (ha : BuiltSteady ph a) (hb : BuiltSteady ph b) : BuiltSteady ph (if c then a else b) := by
  split
  · exact ha
  · exact hb

end BuiltSteady
end Sys2Proof.Machine
end

section
/-! Every function of the model keeps a good state good in the power phase it finds, or moves the phase where the counter is 0.
One lemma `State.Steady.f` for each function `f`, in the order of the model's files; each follows the branches of its definition
and cites the lemmas of the functions called there. `NextHolds` says the same of a row. -/
namespace Sys2Proof.Machine.State

variable {ph : PowerPhase} {s t : State}

/-! ### Machine/Ops -/

theorem Steady.hostWrite {p : Port} {fn : Nat} {output : Bool} {hd : Nat} {bs : Bytes} (h : s.Steady ph) :
    (s.hostWrite p fn output hd bs).Steady ph :=
  h.poke.upd

theorem Steady.outWrite {c : Cmd} {hd : Nat} {bs : Bytes} (h : s.Steady ph) : (s.outWrite c hd bs).Steady ph := h.hostWrite

theorem Steady.modPort {p : Port} {f : PortState → PortState} (h : s.Steady ph) : (s.modPort p f).Steady ph := by
  unfold State.modPort
  split
  · exact h.upd
  · exact h.upd

theorem Steady.queueEvent {e : BdlEvent} (h : s.Steady ph) : (s.queueEvent e).Steady ph := .ite h.upd.count h.upd

theorem Steady.raiseEvent {code : Nat} (h : s.Steady ph) : (s.raiseEvent code).Steady ph := .ite h.upd.queueEvent h.upd

theorem Steady.modSq {q : Nat} {f : Sq → Sq} (h : s.Steady ph) : (s.modSq q f).Steady ph := h.upd

theorem Steady.modCq {q : Nat} {f : Cq → Cq} (h : s.Steady ph) : (s.modCq q f).Steady ph := h.upd

theorem Steady.writeEntry {c : Cq} {bs : Bytes} {noint : Bool} (h : s.Steady ph) : (s.writeEntry c bs noint).Steady ph :=
  h.hostWrite.modCq

theorem Steady.post {q : Sq} {cmdId : Nat} {noint : Bool} {d : Done} (h : s.Steady ph) : (s.post q cmdId noint d).Steady ph := by
  unfold State.post
  dsimp only
  split
  · exact h
  · exact h.writeEntry

theorem Steady.modCmd {cid : Nat} {f : Cmd → Cmd} (h : s.Steady ph) : (s.modCmd cid f).Steady ph := h.upd

theorem Steady.accountJob {c : Cmd} (h : s.Steady ph) : (s.accountJob c).Steady ph := h.upd

theorem Steady.sendVector {p : Port} {fn vector : Nat} (h : s.Steady ph) : (s.sendVector p fn vector).Steady ph :=
  .ite h.modPort h.upd.modPort

theorem Steady.dropQueue {q : Sq} (h : s.Steady ph) : (s.dropQueue q).Steady ph :=
  .ite (Steady.ite (h.upd.upd.foldl (fun _ h1 => h1.sendVector)) h.upd).modPort
    (.ite (h.upd.upd.foldl (fun _ h1 => h1.sendVector)) h.upd)

theorem Steady.drain {fuel qid : Nat} (h : s.Steady ph) : (State.drain fuel s qid).Steady ph := by
  induction fuel generalizing s qid with
  | zero => exact h
  | succ fuel ih =>
    unfold State.drain
    dsimp only
    split
    · exact h
    · split
      · split
        · exact .ite h.dropQueue h.upd
        · split
          · exact .ite h.dropQueue h.upd
          · split
            · exact (Steady.ite h.dropQueue h.modSq).upd
            · exact ih (Steady.ite (Steady.ite h.dropQueue h.modSq).upd
                (Steady.ite h.dropQueue h.modSq).upd.post).modSq.accountJob
      · exact h

theorem Steady.finish {cid : Nat} {d : Done} (h : s.Steady ph) : (s.finish cid d).Steady ph := by
  unfold State.finish
  dsimp only
  split
  · exact h
  · split
    · exact .ite h.upd.count h.upd
    · split
      · exact .ite h.upd.count h.upd
      · exact (Steady.ite h.upd.count h.upd).post.modSq.accountJob.drain

theorem Steady.fail {cid status : Nat} (h : s.Steady ph) : (s.fail cid status).Steady ph := by
  unfold State.fail
  split
  · exact h
  · exact h.finish

theorem Steady.order {rank sub : Nat} {body : OrderBody} (h : s.Steady ph) : (s.order rank sub body).Steady ph := h.upd

theorem Steady.orderCmd {c : Cmd} {place : Nat} (h : s.Steady ph) : (s.orderCmd c place).Steady ph := h.upd

theorem Steady.modColl {n : Nat} {f : Coll → Coll} (h : s.Steady ph) : (s.modColl n f).Steady ph := h.upd

theorem Steady.ccount {n sub k : Nat} (h : s.Steady ph) : (s.ccount n sub k).Steady ph := h.count

theorem Steady.askGrant {kind : GrantKind} {media : Bool} {units : Nat} {cid : Option Nat} (h : s.Steady ph) :
    (s.askGrant kind media units cid).Steady ph :=
  h.same rfl

theorem Steady.endGrant {gid : Nat} (h : s.Steady ph) : (s.endGrant gid).Steady ph := h.same rfl

theorem Steady.draw (h : s.Steady ph) : s.draw.2.Steady ph := h.upd

/-! ### Machine/Quota -/

theorem Steady.askTile {u : ProgUse} {cid : Option Nat} {part : Nat} {t : Nat × Bytes} (h : s.Steady ph) :
    (s.askTile u cid part t).Steady ph :=
  .ite h.askGrant h

theorem Steady.askTiles {u : ProgUse} {cid : Option Nat} {part : Nat} {ts : List (Nat × Bytes)} (h : s.Steady ph) :
    (s.askTiles u cid part ts).Steady ph :=
  h.foldl (fun _ h1 => h1.askTile)

theorem Steady.dropPrograms {u : ProgUse} (h : s.Steady ph) : (s.dropPrograms u).Steady ph := h.same rfl

theorem Steady.askErase {base n : Nat} (h : s.Steady ph) : (s.askErase base n).Steady ph := h.foldl (fun _ h1 => h1.askGrant)

theorem Steady.writeBackAll {l : Placement} {cid : Option Nat} (h : s.Steady ph) : (s.writeBackAll l cid).Steady ph :=
  (Steady.ite h.askTiles (h.foldl (fun _ h1 => h1.poke))).count.upd

theorem Steady.modModel {hd : Nat} {f : Model → Model} (h : s.Steady ph) : (s.modModel hd f).Steady ph := h.upd

theorem Steady.evictLru {m : Model} (h : s.Steady ph) : (s.evictLru m).Steady ph := h.modModel.count

theorem Steady.makeRoom {fuel p n : Nat} (h : s.Steady ph) : (State.makeRoom fuel s p n).Steady ph := by
  induction fuel generalizing s with
  | zero => exact h
  | succ fuel ih =>
    unfold State.makeRoom
    split
    · split
      · exact ih h.evictLru
      · exact h
    · split
      · exact h
      · split
        · exact ih h.evictLru
        · exact h

theorem Steady.tryLoad {hd : Nat} (h : s.Steady ph) : (s.tryLoad hd).Steady ph := by
  unfold State.tryLoad
  dsimp only
  split
  · exact h
  · split
    · split
      · exact .ite h.makeRoom h.makeRoom.count.modModel
      · exact h.makeRoom.modModel.askGrant
    · exact h

theorem Steady.retryLoads (h : s.Steady ph) : s.retryLoads.Steady ph := h.foldl (fun _ h1 => Steady.ite h1.tryLoad h1)

theorem Steady.releasePlacement {l : Placement} (h : s.Steady ph) : (s.releasePlacement l).Steady ph :=
  .ite (Steady.ite h.writeBackAll h).dropPrograms.upd.fail (Steady.ite h.writeBackAll h).dropPrograms.upd

theorem Steady.unregister {m : Model} (h : s.Steady ph) : (s.unregister m).Steady ph :=
  (h.upd.foldl (fun _ h1 => h1.releasePlacement)).foldl (fun _ h1 => h1.fail)

theorem Steady.endEvict {hd : Nat} (h : s.Steady ph) : (s.endEvict hd).Steady ph := by
  unfold State.endEvict
  dsimp only
  split
  · exact h
  · split
    · exact .ite ((Steady.ite h.count.unregister h.count.modModel).foldl (fun _ h1 => h1.finish)).retryLoads h
    · exact h

theorem Steady.hold {hd : Nat} (h : s.Steady ph) : (s.hold hd).Steady ph := h.upd

theorem Steady.unhold {hd : Nat} (h : s.Steady ph) : (s.unhold hd).Steady ph := h.modModel.endEvict.retryLoads

/-! ### Machine/Jobs -/

theorem Steady.modSearch {cid ix : Nat} {f : Search → Search} (h : s.Steady ph) : (s.modSearch cid ix f).Steady ph := h.upd

theorem Steady.useClass {part cls i n : Nat} (h : s.Steady ph) : (s.useClass part cls i n).Steady ph := h.upd

theorem Steady.useCmd {cid i n : Nat} (h : s.Steady ph) : (s.useCmd cid i n).Steady ph := by
  unfold State.useCmd
  split
  · exact h
  · exact h.useClass

theorem Steady.waitTick {cid : Nat} (h : s.Steady ph) : (s.waitTick cid).Steady ph := h.upd

theorem Steady.askRescore {x : Search} (h : s.Steady ph) : (s.askRescore x).Steady ph := h.same rfl

theorem Steady.dropRescore {x : Search} (h : s.Steady ph) : (s.dropRescore x).Steady ph := by
  unfold State.dropRescore
  split
  · exact h.endGrant
  · exact h

theorem Steady.releaseSearch {x : Search} (h : s.Steady ph) : (s.releaseSearch x).Steady ph := by
  unfold State.releaseSearch
  dsimp only
  split
  · exact (Steady.ite h.dropRescore.upd.useCmd h.dropRescore.upd).unhold
  · exact .ite h.dropRescore.upd.useCmd h.dropRescore.upd

theorem Steady.dropSearch {x : Search} (h : s.Steady ph) : (s.dropSearch x).Steady ph := h.releaseSearch.upd

theorem Steady.dropSearches {cid : Nat} (h : s.Steady ph) : (s.dropSearches cid).Steady ph := h.foldl (fun _ h1 => h1.dropSearch)

theorem Steady.noteCompleted {x : Search} (h : s.Steady ph) : (s.noteCompleted x).Steady ph :=
  .ite (.ite h.ccount.modColl h.ccount) h

theorem Steady.noteAll {cid : Nat} (h : s.Steady ph) : (s.noteAll cid).Steady ph := h.foldl (fun _ h1 => h1.noteCompleted)

theorem Steady.dropSeqs {cid : Nat} {p : Seqn → Bool} (h : s.Steady ph) : (s.dropSeqs cid p).Steady ph :=
  h.upd.foldl (fun _ h1 => h1.unhold)

theorem Steady.rejoinSeqs {cid : Nat} (h : s.Steady ph) : (s.rejoinSeqs cid).Steady ph := h.upd

theorem Steady.againSearches {cid : Nat} {phase : SPhase} (h : s.Steady ph) : (s.againSearches cid phase).Steady ph :=
  (h.foldl (fun _ h1 => h1.releaseSearch)).upd

theorem Steady.dropFetch {c : Cmd} (h : s.Steady ph) : (s.dropFetch c).Steady ph := h.upd

theorem Steady.release {cid : Nat} (h : s.Steady ph) : (s.release cid).Steady ph :=
  (Steady.dropSearches (by split; exacts [h.dropFetch, h])).dropSeqs.count

theorem Steady.restartCmd {c : Cmd} (h : s.Steady ph) : (s.restartCmd c).Steady ph := by
  unfold State.restartCmd
  dsimp only
  split
  · exact h.dropFetch.count.count.againSearches.dropSeqs.modCmd
  · split
    · exact h.dropFetch.count.count.againSearches.dropSeqs.modCmd
    · split
      · split
        · exact h.dropFetch.count.count.rejoinSeqs.modCmd
        · exact h.dropFetch.count.count.modCmd
      · exact h.dropFetch.count.count.dropSearches.dropSeqs.modCmd

theorem Steady.faultCmd {cid : Nat} {checksum : Bool} (h : s.Steady ph) : (s.faultCmd cid checksum).Steady ph := by
  unfold State.faultCmd
  split
  · exact h
  · exact .ite h (.ite h.restartCmd (.ite h h.noteAll.release.fail))

/-! ### Machine/Snapshot -/

theorem Steady.pruneLog (h : s.Steady ph) : s.pruneLog.Steady ph := h.upd

theorem Steady.logChange {coll node : Nat} {tomb : Bool} {old : Nat} (h : s.Steady ph) :
    (s.logChange coll node tomb old).Steady ph :=
  h.upd

theorem Steady.countNand {n : Nat} (h : s.Steady ph) : (s.countNand n).Steady ph := .ite h.count.raiseEvent h.count

theorem Steady.program {t part : Nat} {bs : Bytes} (h : s.Steady ph) : (s.program t part bs).Steady ph := h.upd.countNand

theorem Steady.eraseTiles {die base n : Nat} (h : s.Steady ph) : (s.eraseTiles die base n).Steady ph := h.upd

theorem Steady.touchTile {c : Nat} {l : CacheLine} (h : s.Steady ph) : (s.touchTile c l).Steady ph := h.upd.ccount

theorem Steady.fillTile {c t : Nat} {bs : Bytes} (h : s.Steady ph) : (s.fillTile c t bs).Steady ph := .ite h h.upd

theorem Steady.dropLines {c : Nat} {p : Nat → Bool} (h : s.Steady ph) : (s.dropLines c p).Steady ph := h.upd

theorem Steady.shrinkCache {c : Nat} (h : s.Steady ph) : (s.shrinkCache c).Steady ph := h.upd

theorem Steady.pinEntrySet {c : Coll} (h : s.Steady ph) : (s.pinEntrySet c).Steady ph := h.upd

/-! ### Machine/Rescore -/

theorem Steady.endBatch {c : Cmd} (h : s.Steady ph) : (s.endBatch c).Steady ph := .ite h.outWrite.upd.finish h

theorem Steady.endSearch {x : Search} {status quals dw5 dw6 dw7 : Nat} (h : s.Steady ph) :
    (s.endSearch x status quals dw5 dw6 dw7).Steady ph := by
  unfold State.endSearch
  dsimp only
  split
  · exact h.noteCompleted.dropSearch
  · exact .ite h.noteCompleted.dropSearch.upd.endBatch h.noteCompleted.dropSearch.finish

theorem Steady.finishResult {x : Search} (h : s.Steady ph) : (s.finishResult x).Steady ph := by
  unfold State.finishResult
  dsimp only
  split
  · exact h
  · exact (Steady.ite h.outWrite.ccount.ccount.ccount.ccount.ccount.ccount
      h.outWrite.ccount.ccount.ccount.ccount.ccount).endSearch

theorem Steady.select {x : Search} {c : Coll} {cut : Bool} (h : s.Steady ph) : (s.select x c cut).Steady ph :=
  .ite h.dropRescore.modSearch.finishResult h.dropRescore.modSearch

theorem Steady.hitTile {cid c t : Nat} (h : s.Steady ph) : (s.hitTile cid c t).Steady ph := by
  unfold State.hitTile
  split
  · exact h.touchTile.useCmd
  · exact h

theorem Steady.lookVector {x : Search} {c : Coll} {r : RankCand} (h : s.Steady ph) : (s.lookVector x c r).2.Steady ph := by
  unfold State.lookVector
  dsimp only
  split
  · exact h
  · exact .ite h (h.foldl (fun _ h1 => h1.hitTile))

theorem Steady.lookVectors {x : Search} {c : Coll} {rs : List RankCand} (h : s.Steady ph) :
    (State.lookVectors x c s rs).2.Steady ph := by
  induction rs generalizing s with
  | nil => exact h
  | cons r rs ih => exact ih h.lookVector

theorem Steady.addSeq {entry : Nat} {c : Cmd} {m : Model} {tokens : Nat} {batch : Option (Nat × Nat)} {holding : Bool}
    {input : Bytes} (h : s.Steady ph) : (s.addSeq entry c m tokens batch holding input).Steady ph :=
  h.upd

theorem Steady.startBatch {x : Search} {c : Coll} {cmd : Cmd} {m : Model} {b : Nat} (h : s.Steady ph) :
    (s.startBatch x c cmd m b).Steady ph := by
  unfold State.startBatch
  dsimp only
  split
  · exact h
  · split
    · exact h
    · exact h.addSeq

theorem Steady.startBatches {x : Search} {c : Coll} (h : s.Steady ph) : (s.startBatches x c).Steady ph := by
  unfold State.startBatches
  split
  · split
    · exact h.endSearch
    · exact h.foldl (fun _ h1 => h1.startBatch)
  · exact h

theorem Steady.scoreArrived {x : Search} {c : Coll} (h : s.Steady ph) : (s.scoreArrived x c).2.Steady ph := by
  unfold State.scoreArrived
  dsimp only
  split
  · split
    · exact h.modSearch.useCmd
    · exact h
  · exact h

theorem Steady.maybeSelect {cid ix : Nat} (h : s.Steady ph) : (s.maybeSelect cid ix).Steady ph := by
  unfold State.maybeSelect
  split
  · exact h
  · split
    · exact h
    · exact .ite h (.ite (Steady.ite_snd h.scoreArrived h).select (.ite (Steady.ite_snd h.scoreArrived h).startBatches
        (.ite_snd h.scoreArrived h)))

theorem Steady.startRescore {x : Search} {useHits : Bool} (h : s.Steady ph) : (s.startRescore x useHits).Steady ph := by
  unfold State.startRescore
  dsimp only
  split
  · exact h
  · exact (Steady.ite h.lookVectors.askRescore h.lookVectors).modSearch.maybeSelect

theorem Steady.checkFault {cid : Nat} (h : s.Steady ph) : (s.checkFault cid).Steady ph := h.count.faultCmd

theorem Steady.countReads {cid coll n : Nat} (h : s.Steady ph) : (s.countReads cid coll n).Steady ph := h.ccount.useCmd

theorem Steady.execVectorRead {cid ix slot : Nat} (h : s.Steady ph) : NextHolds (Steady ph) (execVectorRead cid ix slot s) := by
  unfold Machine.execVectorRead
  dsimp only
  split
  · exact .next h
  · split
    · exact .next h
    · split
      · split
        · split
          · exact .ite (.next (h.countReads.foldl (fun _ h1 => h1.fillTile)).modSearch) (.next h)
          · exact .next h
        · exact .next h
      · split
        · split
          · exact .ite (.next h.countReads.modSearch) (.next h)
          · exact .next h
        · exact .next h

theorem Steady.staleReply {cid ix node : Nat} (h : s.Steady ph) : (s.staleReply cid ix node).Steady ph := .ite h.upd.count h

theorem Steady.execVectorReply {cid ix slot : Nat} (h : s.Steady ph) : NextHolds (Steady ph) (execVectorReply cid ix slot s) := by
  unfold Machine.execVectorReply
  dsimp only
  split
  · exact .next h.staleReply
  · split
    · exact .next h
    · split
      · exact .ite (.next h) (.ite (.next h.modSearch) (.ite (.next h.modSearch.maybeSelect)
          (.next h.modSearch.useCmd.maybeSelect)))
      · exact .ite (.next h.checkFault) (.next h)
      · exact .next h.staleReply

theorem Steady.rescoreCut {x : Search} (h : s.Steady ph) : (s.rescoreCut x).Steady ph := by
  unfold State.rescoreCut
  dsimp only
  split
  · exact h
  · exact .ite h.upd.dropSeqs.modSearch.modSearch h.upd.dropSeqs.modSearch.select

theorem Steady.execRescoringCut {cid ix : Nat} (h : s.Steady ph) : NextHolds (Steady ph) (execRescoringCut cid ix s) := by
  unfold Machine.execRescoringCut
  split
  · exact .next h
  · exact .ite (.next h.rescoreCut) (.next h)

theorem Steady.beginFetch {cmd : Cmd} {c : Coll} (h : s.Steady ph) : (s.beginFetch cmd c).Steady ph :=
  (h.foldl (fun _ h1 => h1.hitTile)).modCmd

theorem Steady.endFetch {cmd : Cmd} {c : Coll} {adm : Tick} (h : s.Steady ph) : (s.endFetch cmd c adm).Steady ph :=
  .ite h.countReads.modCmd.checkFault (h.countReads.modCmd.foldl (fun _ h1 => h1.fillTile)).outWrite.finish

theorem Steady.execFetch {cid : Nat} {inbuf : Bytes} (h : s.Steady ph) : NextHolds (Steady ph) (execFetch cid inbuf s) := by
  unfold Machine.execFetch
  dsimp only
  split
  · exact .next h
  · split
    · exact .next h
    · split
      · exact .next h.fail
      · split
        · exact .next h.fail
        · split
          · exact .next h.fail
          · split
            · exact .next (Steady.ite h.beginFetch h)
            · exact .ite (.next (Steady.ite h.beginFetch h).endFetch) (.next (Steady.ite h.beginFetch h))

theorem Steady.mergeRerank {cmd : Cmd} {inbuf : Bytes} (h : s.Steady ph) : (s.mergeRerank cmd inbuf).Steady ph :=
  .ite h.fail h.outWrite.finish

/-! ### Machine/Walk -/

theorem Steady.makeSearches {cmd : Cmd} {inbuf : Bytes} {n : Nat} (h : s.Steady ph) : (s.makeSearches cmd inbuf n).Steady ph := by
  unfold State.makeSearches
  dsimp only
  split
  · exact h.modCmd.fail
  · split
    · exact h.modCmd.fail
    · split
      · exact h.modCmd.finish
      · exact h.modCmd.upd.modCmd

theorem Steady.execSearch {cid : Nat} {inbuf : Bytes} (h : s.Steady ph) : NextHolds (Steady ph) (execSearch cid inbuf s) := by
  unfold Machine.execSearch
  split
  · exact .next h
  · exact .next h.makeSearches

theorem Steady.execSearchBatch {cid : Nat} {inbuf : Bytes} (h : s.Steady ph) :
    NextHolds (Steady ph) (execSearchBatch cid inbuf s) := by
  unfold Machine.execSearchBatch
  split
  · exact .next h
  · exact .next h.makeSearches

theorem Steady.execRerank {cid : Nat} {inbuf : Bytes} (h : s.Steady ph) : NextHolds (Steady ph) (execRerank cid inbuf s) := by
  unfold Machine.execRerank
  split
  · exact .next h
  · exact .ite (.next h.mergeRerank) (.next h.makeSearches)

theorem Steady.endWalk {x : Search} {reason : Nat} (h : s.Steady ph) : (s.endWalk x reason).Steady ph :=
  .ite h.modSearch.startRescore h.modSearch

theorem Steady.testWalk {x : Search} (h : s.Steady ph) : (s.testWalk x).Steady ph := .ite h.endWalk (.ite h.endWalk h.modSearch)

theorem Steady.lookTile {cid c t : Nat} (h : s.Steady ph) : (s.lookTile cid c t).Steady ph := by
  unfold State.lookTile
  split
  · exact h.hitTile
  · exact h.countReads.fillTile

theorem Steady.beginAttempt {x : Search} {c : Coll} (h : s.Steady ph) : (s.beginAttempt x c).Steady ph := by
  unfold State.beginAttempt
  dsimp only
  split
  · exact h.startRescore
  · split
    · exact h.modSearch.checkFault
    · exact (h.foldl (fun _ h1 => h1.lookTile)).ccount.ccount.testWalk

theorem Steady.admitOne {x : Search} (h : s.Steady ph) : (s.admitOne x).Steady ph := by
  unfold State.admitOne
  dsimp only
  split
  · exact h
  · split
    · exact (Steady.ite h.modCmd h).endSearch
    · split
      · exact .ite h.modCmd h
      · exact (Steady.ite (Steady.ite h.modCmd h).hold (Steady.ite h.modCmd h)).modSearch.beginAttempt

theorem Steady.admitList {xs : List Search} (h : s.Steady ph) : (State.admitList s xs).Steady ph := by
  induction xs generalizing s with
  | nil => exact h
  | cons x xs ih =>
    unfold State.admitList
    exact .ite (ih h.admitOne) h

theorem Steady.closeRound {x : Search} {c : Coll} (h : s.Steady ph) : (s.closeRound x c).Steady ph :=
  h.ccount.ccount.ccount.modSearch.testWalk

theorem Steady.lookNode {x : Search} {c : Coll} {k : Cand} (h : s.Steady ph) : (s.lookNode x c k).2.Steady ph := by
  unfold State.lookNode
  split
  · exact h
  · dsimp only
    split
    · exact h.touchTile.useCmd
    · exact h

theorem Steady.lookNodes {x : Search} {c : Coll} {ks : List Cand} (h : s.Steady ph) :
    (State.lookNodes x c s ks).2.Steady ph := by
  induction ks generalizing s with
  | nil => exact h
  | cons k ks ih => exact ih h.lookNode

theorem Steady.openRound {x : Search} {c : Coll} (h : s.Steady ph) : (s.openRound x c).Steady ph :=
  .ite h.lookNodes.modSearch.closeRound h.lookNodes.modSearch

theorem Steady.execRound {cid ix : Nat} (h : s.Steady ph) : NextHolds (Steady ph) (execRound cid ix s) := by
  unfold Machine.execRound
  split
  · exact .next h
  · split
    · exact .next h
    · exact .ite (.next h.openRound) (.next h)

theorem Steady.execExpansionRequest {cid ix node : Nat} (h : s.Steady ph) :
    NextHolds (Steady ph) (execExpansionRequest cid ix node s) := by
  unfold Machine.execExpansionRequest
  dsimp only
  split
  · exact .next h
  · split
    · exact .ite (.next (Steady.ite h.ccount.useCmd.fillTile h.ccount.useCmd).modSearch) (.next h)
    · exact .next h

theorem Steady.execExpansionReply {cid ix node : Nat} (h : s.Steady ph) :
    NextHolds (Steady ph) (execExpansionReply cid ix node s) := by
  unfold Machine.execExpansionReply
  dsimp only
  split
  · exact .next h.staleReply
  · split
    · split
      · split
        · exact .next h
        · split
          · exact .next h.checkFault
          · exact .ite (.next h.modSearch.closeRound) (.next h.modSearch)
      · exact .next h.staleReply
    · exact .next h.staleReply

theorem Steady.execReplyDeadline {cid ix : Nat} (h : s.Steady ph) : NextHolds (Steady ph) (execReplyDeadline cid ix s) := by
  unfold Machine.execReplyDeadline
  dsimp only
  split
  · exact .next h.upd
  · exact .ite (.next h.upd.faultCmd) (.next h.upd)

theorem Steady.cutWalk {x : Search} (h : s.Steady ph) : (s.cutWalk x).Steady ph := h.upd.modSearch.startRescore

theorem Steady.execCutTick {cid ix : Nat} (h : s.Steady ph) : NextHolds (Steady ph) (execCutTick cid ix s) := by
  unfold Machine.execCutTick
  split
  · exact .next h
  · exact .ite (.next h.cutWalk) (.next h)

theorem Steady.startPass {n : Nat} (h : s.Steady ph) : (s.startPass n).Steady ph := h.upd.setObj

theorem Steady.execRemainderPassStart (h : s.Steady ph) : NextHolds (Steady ph) (execRemainderPassStart s) := by
  unfold Machine.execRemainderPassStart
  split
  · exact .ite (.next h.startPass) (.next h)
  · exact .next h

theorem Steady.deliverHits {k : Nat × Nat} (h : s.Steady ph) : (s.deliverHits k).Steady ph := by
  unfold State.deliverHits
  dsimp only
  split
  · exact h
  · split
    · exact h
    · exact .ite (.ite h.modSearch.startRescore h.modSearch) h

theorem Steady.execRemainderPassEnd (h : s.Steady ph) : NextHolds (Steady ph) (execRemainderPassEnd s) := by
  unfold Machine.execRemainderPassEnd
  dsimp only
  split
  · exact .next h
  · exact .ite (.next (h.upd.count.foldl (fun _ h1 => h1.deliverHits))) (.next h)

/-! ### Machine/Host -/

theorem Steady.ring {p : Port} {body : OrderBody} {same : OrderBody → Bool} (h : s.Steady ph) : (s.ring p body same).Steady ph :=
  h.upd

theorem Steady.execSqTailDoorbell {p : Port} {fn : Fin 64} {q : Nat} {value : BitVec 32} (h : s.Steady ph) :
    NextHolds (Steady ph) (execSqTailDoorbell p fn q value s) :=
  .ite (.next h.ring) (.next h)

theorem Steady.execCqHeadDoorbell {p : Port} {fn : Fin 64} {q : Nat} {value : BitVec 32} (h : s.Steady ph) :
    NextHolds (Steady ph) (execCqHeadDoorbell p fn q value s) :=
  .ite (.next h.ring) (.next h)

theorem Steady.badDoorbell {p : Port} (h : s.Steady ph) : (s.badDoorbell p).Steady ph := h.modPort

theorem Steady.applyTail {p : Port} {fn q v : Nat} (h : s.Steady ph) : (s.applyTail p fn q v).Steady ph := by
  unfold State.applyTail
  dsimp only
  split
  · exact h.badDoorbell
  · exact .ite h.badDoorbell h.modSq

theorem Steady.applyHead {p : Port} {fn q v : Nat} (h : s.Steady ph) : (s.applyHead p fn q v).Steady ph := by
  unfold State.applyHead
  dsimp only
  split
  · exact h.badDoorbell
  · exact .ite h.badDoorbell h.modCq

theorem Steady.unwait {cid : Nat} (h : s.Steady ph) : (s.unwait cid).Steady ph := h.upd

theorem Steady.abandon {c : Cmd} (h : s.Steady ph) : (s.abandon c).Steady ph := by
  unfold State.abandon
  dsimp only
  split
  · split
    · exact h
    · exact h.fail
  · exact .ite h.noteAll.release.fail (.ite h.fail (.ite h.unwait.fail h))

theorem Steady.abandonAll {q : Nat} (h : s.Steady ph) : (s.abandonAll q).Steady ph := h.foldl (fun _ h1 => h1.abandon)

theorem Steady.cutQueue {q : Nat} {delete deleteCq : Bool} {cid : Option Nat} (h : s.Steady ph) :
    (s.cutQueue q delete deleteCq cid).Steady ph :=
  h.modSq.abandonAll.drain

theorem Steady.killQueues {p : Port} {fn : Option Nat} (h : s.Steady ph) : (s.killQueues p fn).Steady ph :=
  .ite ((h.upd.foldl (fun _ h1 => h1.abandon)).foldl (fun _ h1 => by split; exacts [h1.finish, h1])).modPort
    ((h.upd.foldl (fun _ h1 => h1.abandon)).foldl (fun _ h1 => by split; exacts [h1.finish, h1]))

theorem Steady.noteHold {q : Sq} (h : s.Steady ph) : (s.noteHold q).Steady ph := .ite h h.modPort.modSq

theorem Steady.fetchEntry {q : Sq} {entry : Bytes} (h : s.Steady ph) : (s.fetchEntry q entry).Steady ph := by
  unfold State.fetchEntry
  dsimp only
  split
  · exact h.modSq.modCq.upd.finish
  · split
    · exact h.modSq.modCq.upd.addSeq
    · exact h.modSq.modCq.upd

theorem Steady.holdStage {q : Sq} (h : s.Steady ph) : (s.holdStage q).Steady ph := .ite h h.count.modSq

theorem Steady.holdEntry {q : Sq} (h : s.Steady ph) : (s.holdEntry q).Steady ph := .ite h h.count.modSq

theorem Steady.execEntryFetch {q : Nat} {entry : Bytes} (h : s.Steady ph) : NextHolds (Steady ph) (execEntryFetch q entry s) := by
  unfold Machine.execEntryFetch
  dsimp only
  split
  · exact .next h
  · split
    · exact .next h
    · exact .ite (.next h) (.ite (.next h.noteHold) (.ite (.next h.holdStage) (.ite (.next h.holdEntry) (.next h.fetchEntry))))

theorem Steady.execCqStall {q : Nat} (h : s.Steady ph) : NextHolds (Steady ph) (execCqStall q s) := by
  unfold Machine.execCqStall
  split
  · exact .next h
  · split
    · exact .ite (.next h.modSq) (.next h)
    · exact .next h

theorem Steady.execSqReadError {q : Nat} (h : s.Steady ph) : NextHolds (Steady ph) (execSqReadError q s) := by
  unfold Machine.execSqReadError
  dsimp only
  split
  · exact .next h
  · split
    · exact .next h
    · exact .ite (.next h.modSq.modCq.modPort.post) (.next h)

theorem Steady.finishNop {c : Cmd} (h : s.Steady ph) : (s.finishNop c).Steady ph := h.finish

theorem Steady.execNop {cid : Nat} (h : s.Steady ph) : NextHolds (Steady ph) (execNop cid s) := by
  unfold Machine.execNop
  split
  · exact .next h
  · exact .ite (.ite (.next h.modCmd) (.ite (.next h.finishNop) (.next h))) (.next h)

theorem Steady.execNopWaitEnd {cid : Nat} (h : s.Steady ph) : NextHolds (Steady ph) (execNopWaitEnd cid s) := by
  unfold Machine.execNopWaitEnd
  split
  · exact .next h
  · split
    · exact .ite (.next h.finishNop) (.next h)
    · exact .next h

theorem Steady.applyQueueCreate {c : Cmd} (h : s.Steady ph) : (s.applyQueueCreate c).Steady ph := .ite h.fail h.upd.finish

theorem Steady.applyQueueCut {c : Cmd} (h : s.Steady ph) : (s.applyQueueCut c).Steady ph := .ite h.fail h.modCmd.cutQueue

theorem Steady.execQueueCreate {cid : Nat} (h : s.Steady ph) : NextHolds (Steady ph) (execQueueCreate cid s) := by
  unfold Machine.execQueueCreate
  split
  · exact .next h
  · exact .next h.orderCmd

theorem Steady.execQueueDelete {cid : Nat} (h : s.Steady ph) : NextHolds (Steady ph) (execQueueDelete cid s) := by
  unfold Machine.execQueueDelete
  split
  · exact .next h
  · exact .next h.orderCmd

theorem Steady.execQueueReset {cid : Nat} (h : s.Steady ph) : NextHolds (Steady ph) (execQueueReset cid s) := by
  unfold Machine.execQueueReset
  split
  · exact .next h
  · exact .next h.orderCmd

theorem Steady.sendMsix (h : s.Steady ph) : s.sendMsix.Steady ph :=
  (h.upd.foldl (fun _ h1 => h1.sendVector)).foldl (fun _ h1 => h1.modPort.foldl (fun _ h2 => h2.sendVector))

/-! ### Machine/System -/

theorem Steady.askBuckets {old : Coll} (h : s.Steady ph) : (s.askBuckets old).Steady ph := by
  unfold State.askBuckets
  split
  · exact h
  · exact h.askTiles

theorem Steady.askBlock {u : SysUse} {cid : Option Nat} {make : Nat → Bytes} (h : s.Steady ph) :
    (s.askBlock u cid make).Steady ph :=
  h.same rfl

theorem Steady.rewriteCopy {n : Nat} (h : s.Steady ph) : (s.rewriteCopy n).Steady ph := by
  unfold State.rewriteCopy
  dsimp only
  split
  · exact h
  · split
    · exact h.upd
    · exact h.upd.upd.askGrant

theorem Steady.putBlock {u : SysUse} {n : Nat} {bs : Bytes} (h : s.Steady ph) : (s.putBlock u n bs).Steady ph := h.upd.countNand

theorem Steady.dropBlocks {p : SysUse → Bool} (h : s.Steady ph) : (s.dropBlocks p).Steady ph := h.foldl (fun _ h1 => h1.askGrant)

theorem Steady.dropOldEntries {coll g : Nat} (h : s.Steady ph) : (s.dropOldEntries coll g).Steady ph :=
  h.foldl (fun _ h1 => h1.askGrant)

theorem Steady.eraseBlock {n : Nat} (h : s.Steady ph) : (s.eraseBlock n).Steady ph := h.upd

theorem Steady.askSlices {k : Coll} {g : Nat} (h : s.Steady ph) : (s.askSlices k g).Steady ph :=
  h.dropBlocks.foldl (fun _ h1 => h1.askBlock)

theorem Steady.askEntrySet {k : Coll} (h : s.Steady ph) : (s.askEntrySet k).Steady ph := h.dropBlocks.askBlock

theorem Steady.askDescriptor {k : Coll} (h : s.Steady ph) : (s.askDescriptor k).Steady ph :=
  h.askEntrySet.foldl (fun _ h1 => h1.askBlock)

theorem Steady.askRecords (h : s.Steady ph) : s.askRecords.Steady ph := .ite h h.askBlock

theorem Steady.putRecords {n : Nat} {rs : List JRec} (h : s.Steady ph) : (State.putRecords n s rs).Steady ph := by
  induction n generalizing s rs with
  | zero => exact h
  | succ n ih =>
    unfold State.putRecords
    exact .ite h (ih h.upd.putBlock.putBlock)

theorem Steady.recordsProgrammed {rs : List JRec} (h : s.Steady ph) : (s.recordsProgrammed rs).Steady ph := h.upd

theorem Steady.dropRecords (h : s.Steady ph) : s.dropRecords.Steady ph := h.dropBlocks

theorem Steady.cfgAppend {index sub arg v : Nat} (h : s.Steady ph) : (s.cfgAppend index sub arg v).Steady ph :=
  .ite h.upd.askBlock h.upd

theorem Steady.cfgForget {p : Nat → Bool} (h : s.Steady ph) : (s.cfgForget p).Steady ph := h.upd

theorem Steady.cfgReplay (h : s.Steady ph) : s.cfgReplay.Steady ph := h.foldl (fun _ h1 => h1.setObj)

/-! ### Machine/Dict -/

theorem Steady.internal {sub : Nat} {body : OrderBody} (h : s.Steady ph) : (s.internal sub body).Steady ph := h.upd

theorem Steady.setLocks {m : BitVec 5} (h : s.Steady ph) : (s.setLocks m).Steady ph := h.upd

theorem Steady.requestSwitch (h : s.Steady ph) : s.requestSwitch.Steady ph := h.upd

theorem Steady.applyWrite {index sub arg v : Nat} (h : s.Steady ph) : (s.applyWrite index sub arg v).Steady ph := by
  unfold State.applyWrite
  dsimp only
  split
  · exact Steady.order (by split; exacts [Steady.ite h.count.cfgAppend h, h])
  · exact Steady.upd (by split; exacts [Steady.ite h.count.cfgAppend h, h])
  · exact Steady.requestSwitch (by split; exacts [Steady.ite h.count.cfgAppend h, h])
  · exact (Steady.upd (by split; exacts [Steady.ite h.count.cfgAppend h, h])).setObj
  · exact Steady.setObj (by split; exacts [Steady.ite h.count.cfgAppend h, h])
  · exact Steady.internal (by split; exacts [Steady.ite h.count.cfgAppend h, h])
  · exact Steady.setLocks (by split; exacts [Steady.ite h.count.cfgAppend h, h])
  · exact (Steady.setObj (by split; exacts [Steady.ite h.count.cfgAppend h, h])).retryLoads
  · exact .ite (Steady.setObj (by split; exacts [Steady.ite h.count.cfgAppend h, h])).shrinkCache
      (Steady.setObj (by split; exacts [Steady.ite h.count.cfgAppend h, h]))

/-! ### Machine/Mutate -/

theorem Steady.formCmd {c : Cmd} {inbuf : Bytes} (h : s.Steady ph) : (s.formCmd c inbuf).Steady ph := by
  unfold State.formCmd
  split
  · exact h.fail
  · exact .ite h.fail h.modCmd

theorem Steady.execInsert {cid : Nat} {inbuf : Bytes} (h : s.Steady ph) : NextHolds (Steady ph) (execInsert cid inbuf s) := by
  unfold Machine.execInsert
  split
  · exact .next h
  · exact .next h.formCmd

theorem Steady.execUpsert {cid : Nat} {inbuf : Bytes} (h : s.Steady ph) : NextHolds (Steady ph) (execUpsert cid inbuf s) := by
  unfold Machine.execUpsert
  split
  · exact .next h
  · exact .next h.formCmd

theorem Steady.execDelete {cid : Nat} (h : s.Steady ph) : NextHolds (Steady ph) (execDelete cid s) := by
  unfold Machine.execDelete
  split
  · exact .next h
  · exact .next h.modCmd

theorem Steady.execStage {cid : Nat} (h : s.Steady ph) : NextHolds (Steady ph) (execStage cid s) := by
  unfold Machine.execStage
  split
  · exact .next h
  · exact .ite (.ite (.next h.modCmd) (.ite (.next h.count.modCmd) (.next h))) (.next h)

theorem Steady.tombstone {coll n : Nat} (h : s.Steady ph) : (s.tombstone coll n).Steady ph := by
  unfold State.tombstone
  split
  · exact h
  · exact .ite h h.logChange.modColl

theorem Steady.deleteCopies {k : Coll} {ext : BitVec 64} (h : s.Steady ph) : (s.deleteCopies k ext).Steady ph := by
  unfold State.deleteCopies
  dsimp only
  split
  · split
    · exact h.tombstone
    · exact h
  · exact Steady.modColl (by split; exacts [h.tombstone, h])

theorem Steady.journal {r : JRec} (h : s.Steady ph) : (s.journal r).Steady ph := h.upd

theorem Steady.askProgram {coll t : Nat} (h : s.Steady ph) : (s.askProgram coll t).Steady ph := h.same rfl

theorem Steady.enterItem {k : Coll} {i : Item} (h : s.Steady ph) : (s.enterItem k i).2.Steady ph := by
  unfold State.enterItem
  dsimp only
  split
  · exact h.modColl.count.ccount.foldl fun _ h1 => h1.askProgram
  · exact h.modColl.count.ccount

theorem Steady.applyItem {k : Coll} {op : Nat} {ext : BitVec 64} {item : Option Item} (h : s.Steady ph) :
    (s.applyItem k op ext item).2.Steady ph := by
  unfold State.applyItem
  dsimp only
  split
  · exact (Steady.ite h h.deleteCopies).enterItem.journal
  · exact (Steady.ite h h.deleteCopies).journal

theorem Steady.commitOne {c : Cmd} (h : s.Steady ph) : (s.commitOne c).Steady ph := by
  unfold State.commitOne
  dsimp only
  split
  · exact h.modCmd.ccount
  · split
    · exact h.modCmd
    · split
      · exact h
      · exact .ite h.modCmd h.applyItem.modCmd

theorem Steady.commitDue (h : s.Steady ph) : s.commitDue.Steady ph := h.foldl (fun _ h1 => h1.commitOne)

theorem Steady.execCommit {cid : Nat} (h : s.Steady ph) : NextHolds (Steady ph) (execCommit cid s) :=
  .ite (.next (h.foldl (fun _ h1 => h1.commitOne))) (.next h)

theorem Steady.programJournal {coll t : Nat} (h : s.Steady ph) : (s.programJournal coll t).Steady ph := by
  unfold State.programJournal
  dsimp only
  split
  · exact h
  · exact h.program.modColl

/-! ### Machine/Carry -/

theorem Steady.setPass {p : Option Pass} (h : s.Steady ph) : (s.setPass p).Steady ph := h.upd

theorem Steady.requestPass {n : Nat} {who : List Nat} (h : s.Steady ph) : (s.requestPass n who).Steady ph := by
  unfold State.requestPass
  dsimp only
  split
  · exact .ite h.setPass (.ite h.upd h.upd)
  · exact .ite h.upd h.upd

theorem Steady.execCarry {cid : Nat} (h : s.Steady ph) : NextHolds (Steady ph) (execCarry cid s) := by
  unfold Machine.execCarry
  split
  · exact .next h
  · exact .ite (.next h.fail) (.ite (.next h.fail) (.next h.modCmd.requestPass))

theorem Steady.failWaiters {ws : List Nat} {st : Nat} (h : s.Steady ph) : (s.failWaiters ws st).Steady ph :=
  h.foldl (fun _ h1 => h1.fail)

theorem Steady.dropEntry {n : Nat} (h : s.Steady ph) : (s.dropEntry n).Steady ph := h.same rfl

theorem Steady.endPassGrant {p : Pass} (h : s.Steady ph) : (s.endPassGrant p).Steady ph := by
  unfold State.endPassGrant
  dsimp only
  split
  · exact h.dropPrograms.dropEntry.endGrant
  · exact h.dropPrograms.dropEntry

theorem Steady.abandonPass {p : Pass} {st : Nat} (h : s.Steady ph) : (s.abandonPass p st).Steady ph :=
  h.setPass.endPassGrant.raiseEvent.failWaiters

theorem Steady.suspendPass {p : Pass} {st : Nat} (h : s.Steady ph) : (s.suspendPass p st).Steady ph :=
  .ite h.setPass.endPassGrant.upd.failWaiters h.abandonPass

theorem Steady.suspendForRepair {p : Pass} (h : s.Steady ph) : (s.suspendForRepair p).Steady ph := h.setPass.endPassGrant.upd

theorem Steady.endPass {p : Pass} (h : s.Steady ph) : (s.endPass p).Steady ph :=
  h.modColl.journal.upd.setPass.endPassGrant.raiseEvent.foldl (fun _ h1 => by split; exacts [h1.finish, h1])

theorem Steady.askRewrite {p : Pass} (h : s.Steady ph) : (s.askRewrite p).Steady ph := by
  unfold State.askRewrite
  split
  · exact h.setPass
  · exact h.setPass.askGrant

theorem Steady.closePlan {k : Coll} {p : Pass} (h : s.Steady ph) : (s.closePlan k p).Steady ph := h.journal.askRewrite

theorem Steady.resumePass {p : Pass} {who : List Nat} (h : s.Steady ph) : (s.resumePass p who).Steady ph := h.upd.askRewrite

theorem Steady.startCarry {r : CarryReq} (h : s.Steady ph) : (s.startCarry r).Steady ph := by
  unfold State.startCarry
  dsimp only
  split
  · exact h.commitDue.upd.failWaiters
  · split
    · exact h.commitDue.upd.failWaiters
    · split
      · exact h.commitDue.upd.resumePass
      · exact .ite h.commitDue.upd.setObj.journal.closePlan h.commitDue.upd.setObj.journal.setPass

theorem Steady.execPassStart (h : s.Steady ph) : NextHolds (Steady ph) (execPassStart s) := by
  unfold Machine.execPassStart
  split
  · exact .ite (.next h.startCarry) (.next h)
  · exact .next h

theorem Steady.carryTile {c t : Nat} (h : s.Steady ph) : (s.carryTile c t).Steady ph := by
  unfold State.carryTile
  dsimp only
  split
  · exact h.touchTile
  · exact h.fillTile.upd

theorem Steady.carryLook {c : Nat} {t : Bool × Nat} (h : s.Steady ph) : (s.carryLook c t).Steady ph := .ite h.carryTile h.upd

theorem Steady.carryLooks {c : Nat} {ts : List (Bool × Nat)} (h : s.Steady ph) : (s.carryLooks c ts).Steady ph :=
  h.foldl (fun _ h1 => h1.carryLook)

theorem Steady.planRound {k : Coll} {x : Search} (h : s.Steady ph) : (s.planRound k x).2.Steady ph := by
  unfold State.planRound
  dsimp only
  split
  · exact h.foldl (fun _ h1 => h1.carryTile)
  · exact h.foldl (fun _ h1 => h1.carryTile)

theorem Steady.planWalk {k : Coll} {fuel : Nat} {x : Search} (h : s.Steady ph) : (State.planWalk k fuel s x).2.Steady ph := by
  induction fuel generalizing s x with
  | zero => exact h
  | succ fuel ih =>
    unfold State.planWalk
    split
    · exact h
    · split
      · next e => exact .of_snd e h.planRound
      · next e => exact ih (.of_snd e h.planRound)

theorem Steady.backEdge {k : Coll} {item : Loc} {p : Pass} {n : Loc} (h : s.Steady ph) : (s.backEdge k item p n).2.Steady ph := by
  unfold State.backEdge
  dsimp only
  split
  · exact h.carryLooks
  · split
    · exact h.carryLooks.carryLooks
    · exact h.carryLooks.carryLooks

theorem Steady.backEdges {k : Coll} {item : Loc} {p : Pass} {ns : List Loc} (h : s.Steady ph) :
    (State.backEdges k item s p ns).2.Steady ph := by
  induction ns generalizing s p with
  | nil => exact h
  | cons n ns ih => exact ih h.backEdge

theorem Steady.planItem {k : Coll} {p : Pass} {f : Folded} (h : s.Steady ph) : (s.planItem k p f).2.Steady ph := by
  unfold State.planItem
  dsimp only
  split
  · exact h
  · split
    · exact h
    · split
      · exact h.carryLooks
      · split
        · next e => exact .of_snd e h.carryLooks.planWalk
        · next e =>
          have hw := Steady.of_snd e h.carryLooks.planWalk
          split
          · exact hw.carryLooks
          · exact hw.carryLooks.backEdges.upd

theorem Steady.planItems {k : Coll} {p : Pass} {fs : List Folded} (h : s.Steady ph) : (State.planItems k s p fs).2.Steady ph := by
  induction fs generalizing s p with
  | nil => exact h
  | cons f fs ih =>
    unfold State.planItems
    split
    · next e => exact .of_snd e h.planItem
    · next e => exact ih (.of_snd e h.planItem)

theorem Steady.spend (h : s.Steady ph) : s.spend.Steady ph := h.upd

theorem Steady.execPlan (h : s.Steady ph) : NextHolds (Steady ph) (execPlan s) := by
  unfold Machine.execPlan
  split
  · exact .next h
  · split
    · exact .next h
    · split
      · exact .next h
      · split
        · exact .next h.abandonPass
        · split
          · exact .next h
          · split
            · next e => exact .next (Steady.of_snd e h.planItems).upd.closePlan
            · next e => exact .next (Steady.of_snd e h.planItems).upd.count.abandonPass

theorem Steady.dropUnused {n g : Nat} (h : s.Steady ph) : (s.dropUnused n g).Steady ph := h.upd

theorem Steady.rewriteDurable {n : Nat} (h : s.Steady ph) : (s.rewriteDurable n).Steady ph := by
  unfold State.rewriteDurable
  dsimp only
  split
  · split
    · exact h
    · exact .ite h (.ite (.ite h.dropUnused.setPass.askBlock.askBlock h.dropUnused.setPass.askBlock) (.ite h h.journal.setPass))
  · exact h

theorem Steady.fillBlocks {u : SysUse} {make : Nat → Bytes} (h : s.Steady ph) : (s.fillBlocks u make).Steady ph := h.upd

theorem Steady.rewriteReads {k : Coll} {p : Pass} {g : Nat} (h : s.Steady ph) : (s.rewriteReads k p g).Steady ph := h.carryLooks

theorem Steady.rewriteSegment {k : Coll} {p : Pass} {g base : Nat} (h : s.Steady ph) : (s.rewriteSegment k p g base).Steady ph :=
  h.rewriteReads.setPass.askTiles.rewriteDurable

theorem Steady.faultPass {p : Pass} {checksum : Bool} (h : s.Steady ph) : (s.faultPass p checksum).Steady ph :=
  .ite h.suspendPass h.setPass

theorem Steady.execSegmentRewrite {place : Nat} (h : s.Steady ph) : NextHolds (Steady ph) (execSegmentRewrite place s) := by
  unfold Machine.execSegmentRewrite
  split
  · exact .next h
  · split
    · split
      · exact .next h
      · split
        · exact .next h.suspendPass
        · split
          · exact .next h
          · split
            · exact .next h.rewriteReads.spend.count.faultPass
            · split
              · exact .next h
              · exact .next h.rewriteSegment.spend
    · exact .next h

theorem Steady.putGen {coll n g : Nat} (h : s.Steady ph) : (s.putGen coll n g).Steady ph := by
  unfold State.putGen
  split
  · exact h
  · exact h.logChange.modColl

theorem Steady.untomb {coll n : Nat} (h : s.Steady ph) : (s.untomb coll n).Steady ph := by
  unfold State.untomb
  split
  · exact h
  · exact .ite h.logChange.modColl h

theorem Steady.retireNodes {coll : Nat} {ns : List Nat} (h : s.Steady ph) : (s.retireNodes coll ns).Steady ph :=
  (h.foldl (fun _ h1 => h1.tombstone)).modColl

theorem Steady.enterMap {coll : Nat} {e : MapEntry} (h : s.Steady ph) : (s.enterMap coll e).Steady ph := by
  unfold State.enterMap
  dsimp only
  split
  · exact h
  · exact h.modColl

theorem Steady.switchBlocks {old : Coll} {g : Nat} (h : s.Steady ph) : (s.switchBlocks old g).Steady ph := by
  unfold State.switchBlocks
  dsimp only
  split
  · exact h
  · exact (Steady.ite ((Steady.fillBlocks (by split; exacts [h.fillBlocks, h])).foldl (fun _ h1 => h1.askGrant))
      (by split; exacts [h.fillBlocks, h])).askBuckets.askSlices

theorem Steady.leaveDeletes {n g : Nat} (h : s.Steady ph) : (s.leaveDeletes n g).Steady ph := h.upd

theorem Steady.switchSegment {p : Pass} {w : Rewrite} (h : s.Steady ph) : (s.switchSegment p w).Steady ph := by
  unfold State.switchSegment
  split
  · exact h
  · extract_lets n here item deleted s1 s2 s3 s4 top issued skipped skipped' s5 reborn s6 t s7 entries s8 s9
    have h4 : s4.Steady ph := ((h.foldl fun _ h => h.putGen.untomb).foldl fun _ h => h.putGen).foldl
      (fun _ h => h.tombstone) |>.retireNodes
    have h5 : s5.Steady ph := h4.foldl fun _ h => by
      split
      · exact h.enterMap
      · exact h
    have h8 : s8.Steady ph := .ite h5.modColl.modColl.modColl h5.modColl.modColl
    have h9 : s9.Steady ph := by
      unfold s9
      split
      · exact .ite h8.pinEntrySet h8
      · exact h8
    exact h9.leaveDeletes.switchBlocks.ccount

theorem Steady.takeSwitch {p : Pass} {w : Rewrite} (h : s.Steady ph) : (s.takeSwitch p w).Steady ph :=
  .ite h.commitDue.switchSegment.endPassGrant.endPass (.ite h.commitDue.switchSegment.endPassGrant.suspendForRepair
    h.commitDue.switchSegment.endPassGrant.askRewrite)

theorem Steady.execDirectorySwitch (h : s.Steady ph) : NextHolds (Steady ph) (execDirectorySwitch s) := by
  unfold Machine.execDirectorySwitch
  dsimp only
  split
  · exact .next h
  · split
    · exact .ite (.next h) (.ite (.next h.takeSwitch) (.ite (.next h) (.next h.count.setPass)))
    · exact .next h

theorem Steady.execItemRelease {coll : Fin 64} (h : s.Steady ph) : NextHolds (Steady ph) (execItemRelease coll s) :=
  .next h.modColl

theorem Steady.releaseEntry {n : Nat} {d : DirEntry} (h : s.Steady ph) : (s.releaseEntry n d).Steady ph := by
  unfold State.releaseEntry
  dsimp only
  split
  · exact h
  · exact h.dropLines.askErase.upd.modColl.dropOldEntries

theorem Steady.removeColl {k : Coll} (h : s.Steady ph) : (s.removeColl k).Steady ph := by
  unfold State.removeColl
  extract_lets mine s1 s2
  have h1 : s1.Steady ph := h.dropLines.foldl fun _ h => h.askErase
  have h2 : s2.Steady ph := h1.dropBlocks.cfgForget
  clear_value s2
  exact h2.keepDict.same rfl

theorem Steady.execTileRelease {coll : Fin 64} (h : s.Steady ph) : NextHolds (Steady ph) (execTileRelease coll s) := by
  unfold Machine.execTileRelease
  split
  · exact .next h
  · exact .ite (.ite (.next h) (.next h.removeColl)) (.next (h.foldl (fun _ h1 => h1.releaseEntry)))

/-! ### Machine/Build -/

theorem Steady.placeColl {k : Coll} {kind length : Nat} (h : s.Steady ph) : (s.placeColl k kind length).Steady ph := by
  unfold State.placeColl
  dsimp only
  split
  · exact h
  · exact h.upd

theorem Steady.applyCreate {c : Cmd} {place : Nat} (h : s.Steady ph) : (s.applyCreate c place).Steady ph := by
  unfold State.applyCreate
  dsimp only
  split
  · exact h.fail
  · refine Steady.finish (Steady.placeColl (Steady.placeColl (Steady.askDescriptor (Steady.cfgForget ?_))))
    exact h.keepDict.same rfl

theorem Steady.execCollectionCreate {cid : Nat} {inbuf : Bytes} {place : Nat} (h : s.Steady ph) :
    NextHolds (Steady ph) (execCollectionCreate cid inbuf place s) := by
  unfold Machine.execCollectionCreate
  split
  · exact .next h
  · exact .next h.orderCmd.modCmd

theorem Steady.dropPass {n : Nat} (h : s.Steady ph) : (s.dropPass n).Steady ph :=
  Steady.failWaiters (by split; exacts [Steady.ite h.upd.setPass.endPassGrant.raiseEvent.failWaiters h.upd, h.upd])

theorem Steady.applyDrop {c : Cmd} (h : s.Steady ph) : (s.applyDrop c).Steady ph := .ite h.fail h.modColl.dropPass.finish

theorem Steady.execCollectionDrop {cid : Nat} (h : s.Steady ph) : NextHolds (Steady ph) (execCollectionDrop cid s) := by
  unfold Machine.execCollectionDrop
  split
  · exact .next h
  · exact .next h.orderCmd

theorem Steady.patchTile {k : Coll} {t off fmt g : Nat} {bs : Bytes} (h : s.Steady ph) :
    (s.patchTile k t off fmt g bs).Steady ph :=
  h.upd

theorem Steady.putNode {k : Coll} {d : DirEntry} {n : Nat} {r : NodeRec} {i : Item} (h : s.Steady ph) :
    (s.putNode k d n r i).Steady ph :=
  .ite (.ite (h.patchTile.foldl (fun _ h1 => h1.patchTile)) h.patchTile.patchTile)
    (Steady.ite (h.patchTile.foldl (fun _ h1 => h1.patchTile)) h.patchTile.patchTile).patchTile

theorem Steady.askBatch {s0 s : State} {old k : Coll} {cid : Nat} {ts : List Nat} (h : s.Steady ph) :
    (s0.askBatch s old k cid ts).Steady ph :=
  h.upd.askTiles.foldl fun _ h1 => h1.askBlock

theorem Steady.applyItems {k : Coll} {items : List Item} {ids : List Nat} {graph : List (List Nat)} (h : s.Steady ph) :
    (s.applyItems k items ids graph).Steady ph := by
  unfold State.applyItems
  dsimp only
  split
  · exact h.modColl
  · exact (h.modColl.foldl (fun _ h1 => by split; exacts [h1, h1.putNode.enterMap])).count.ccount

theorem Steady.putImageTile {k : Coll} {i : Nat} {b : Bytes} (h : s.Steady ph) : (s.putImageTile k i b).Steady ph := .ite h.upd h

theorem Steady.flagEntry {k : Coll} {l : Loc} (h : s.Steady ph) : (s.flagEntry k l).Steady ph := by
  unfold State.flagEntry
  dsimp only
  split
  · exact h
  · exact h.upd

theorem Steady.askMap {k : Coll} {cid : Nat} (h : s.Steady ph) : (s.askMap k cid).Steady ph := h.askTiles

theorem Steady.markEntries {k : Coll} {vs : List (Nat × Bytes)} {ts : List Nat} (h : s.Steady ph) :
    (s.markEntries k vs ts).1.Steady ph := by
  unfold State.markEntries
  dsimp only
  split
  · exact h
  · exact h.foldl (fun _ h1 => h1.flagEntry)

theorem Steady.applyBuild {c : Cmd} (h : s.Steady ph) : (s.applyBuild c).Steady ph := by
  unfold State.applyBuild
  dsimp only
  split
  · exact h.fail
  · split
    · exact h.fail
    · split
      · exact h.fail
      · refine (Steady.modCmd ?_).finish
        split
        · exact (h.modColl.retireNodes.foldl fun _ h => h.dropOldEntries).pinEntrySet.askEntrySet
        · exact h.modColl.retireNodes.foldl fun _ h => h.dropOldEntries

theorem Steady.endBuild {cid : Nat} (h : s.Steady ph) : (s.endBuild cid).Steady ph := by
  unfold State.endBuild
  split
  · exact h
  · split
    · exact .ite h (.ite h.fail (.ite h.orderCmd h.finish))
    · exact h

theorem Steady.buildItems {k : Coll} {c : Cmd} {graph : List (List Nat)} (h : s.Steady ph) :
    BuiltSteady ph (s.buildItems k c graph) := by
  unfold State.buildItems
  dsimp only
  split
  · exact .error
  · exact .ite .error (.ok (.ite h h.applyItems))

theorem Steady.buildImage {k : Coll} {c : Cmd} (h : s.Steady ph) : BuiltSteady ph (s.buildImage k c) := by
  unfold State.buildImage
  dsimp only
  split
  · exact .error
  · split
    · exact .error
    · exact .ite .error (.ok ((h.upd.foldl (fun _ h1 => h1.putImageTile)).foldl (fun _ h1 => h1.enterMap)).count.ccount)

theorem Steady.buildBatch {c : Cmd} {k : Coll} {graph : List (List Nat)} (h : s.Steady ph) :
    (s.buildBatch c k graph).Steady ph := by
  unfold State.buildBatch
  dsimp only
  split
  · exact h.finish
  · next e =>
    have hn := (BuiltSteady.ite (Steady.buildImage h) (Steady.buildItems h)) _ _ _ e
    split
    · exact hn.modCmd
    · split
      · exact hn.modCmd.askBatch.endBuild
      · split
        · exact h.finish
        · split
          · exact h.checkFault
          · exact hn.modCmd.markEntries.askBatch.askMap.endBuild

theorem Steady.execBulkBuild {cid : Nat} {inbuf : Bytes} {graph : List (List Nat)} (h : s.Steady ph) :
    NextHolds (Steady ph) (execBulkBuild cid inbuf graph s) := by
  unfold Machine.execBulkBuild
  dsimp only
  split
  · exact .next h
  · split
    · exact .next h.fail
    · exact .ite (.next h.fail) (.ite (.next h.fail) (.ite (.next h.fail) (.ite (.next h) (.next h.buildBatch))))

theorem Steady.rehomeItems {n fmt : Nat} {beaten : BitVec 64 → Bool} {gs : List GivenItem} {done : Nat} {f : Flags}
    (h : s.Steady ph) : (State.rehomeItems n fmt beaten s gs done f).1.Steady ph := by
  induction gs generalizing s done f with
  | nil => exact h
  | cons g gs ih =>
    unfold State.rehomeItems
    split
    · exact h
    · simp only [apply_ite Prod.fst]
      exact .ite h (.ite h (.ite h (.ite h (.ite h.ccount (.ite h (ih h.applyItem))))))

theorem Steady.endRehome {c : Cmd} {done t st : Nat} (h : s.Steady ph) : (s.endRehome c done t st).Steady ph := h.finish

theorem Steady.applyRehome {c : Cmd} {beaten : BitVec 64 → Bool} (h : s.Steady ph) : (s.applyRehome c beaten).1.Steady ph := by
  unfold State.applyRehome
  dsimp only
  split
  · exact h.endRehome
  · split
    · exact h.endRehome
    · split
      · exact h.retireNodes.finish
      · split
        · exact h.finish
        · split
          · exact h.rehomeItems.modCmd.orderCmd.modCmd
          · exact h.rehomeItems.modCmd.endRehome

theorem Steady.execRehome {cid : Nat} {inbuf : Bytes} (h : s.Steady ph) : NextHolds (Steady ph) (execRehome cid inbuf s) := by
  unfold Machine.execRehome
  split
  · exact .next h
  · exact .next h.orderCmd.modCmd

/-! ### Machine/Models -/

theorem Steady.failJob {cid status : Nat} (h : s.Steady ph) : (s.failJob cid status).Steady ph := h.noteAll.release.fail

theorem Steady.execModelLoad {cid : Nat} {inbuf : Bytes} {place : Nat} (h : s.Steady ph) :
    NextHolds (Steady ph) (execModelLoad cid inbuf place s) := by
  unfold Machine.execModelLoad
  dsimp only
  split
  · exact .next h
  · split
    · exact .next h.checkFault
    · exact .next h.finish
    · exact .next h.orderCmd.modCmd

theorem Steady.enterModel {c : Cmd} {pkg : ModelPkg} {tiles : List Bytes} {id : Nat} (h : s.Steady ph) :
    (s.enterModel c pkg tiles id).Steady ph :=
  .ite h.upd.modCmd.tryLoad h.upd.finish

theorem Steady.endCopy {cid : Nat} (h : s.Steady ph) : (s.endCopy cid).Steady ph := by
  unfold State.endCopy
  split
  · exact h
  · split
    · split
      · exact h
      · split
        · exact h.enterModel
        · exact h.fail
    · exact h

theorem Steady.applyLoad {c : Cmd} {place : Nat} (h : s.Steady ph) : (s.applyLoad c place).Steady ph := by
  unfold State.applyLoad
  dsimp only
  split
  · exact h.checkFault
  · exact h.finish
  · split
    · exact h.fail
    · split
      · exact h.fail
      · split
        · exact .ite h.upd.enterModel h.upd.modCmd.askTiles.endCopy
        · exact h.fail

theorem Steady.takeHold {c : Cmd} {hd : Nat} (h : s.Steady ph) : (s.takeHold c hd).Steady ph := h.upd

theorem Steady.loaded {m : Model} {c : Cmd} (h : s.Steady ph) : (s.loaded m c).Steady ph := .ite h.finish (.ite h h.takeHold)

theorem Steady.moveEnded (h : s.Steady ph) : s.moveEnded.Steady ph :=
  (h.foldl (fun _ h1 => h1.foldl (fun _ h2 => h2.loaded))).retryLoads

theorem Steady.pokeTiles {a : Nat} {ts : List Bytes} (h : s.Steady ph) : (s.pokeTiles a ts).Steady ph := by
  induction ts generalizing s a with
  | nil => exact h
  | cons t ts ih => exact ih h.poke

theorem Steady.execLoadComplete {handle : Fin 1024} (h : s.Steady ph) :
    NextHolds (Steady ph) (execLoadComplete handle s) := by
  unfold Machine.execLoadComplete
  split
  · exact .next h
  · extract_lets granted s1 s2 us s3 ws s4 ev
    have h2 : s2.Steady ph := by
      unfold s2
      split
      · exact h.pokeTiles.endGrant
      · exact h.pokeTiles
    have h4 : s4.Steady ph := h2.count.setObj.modModel.foldl fun _ h => h.loaded
    exact .ite (.ite (.next h4) (.next h4.modModel.endEvict)) (.next h)

theorem Steady.execModelEvict {cid : Nat} (h : s.Steady ph) : NextHolds (Steady ph) (execModelEvict cid s) := by
  unfold Machine.execModelEvict
  split
  · exact .next h
  · exact .next h.orderCmd

theorem Steady.applyEvict {c : Cmd} (h : s.Steady ph) : (s.applyEvict c).Steady ph := by
  unfold State.applyEvict
  dsimp only
  split
  · exact h.fail
  · split
    · exact h.modCmd.modModel.endEvict
    · exact h.modCmd.modModel
    · exact h.modCmd
    · exact .ite h.unregister.finish h.finish
    · exact .ite h.finish (.ite h.unregister.finish h.modCmd.modModel)

theorem Steady.askSequence {c : Cmd} {m : Model} {tokens : Nat} {input : Bytes} (h : s.Steady ph) :
    (s.askSequence c m tokens input).Steady ph :=
  .ite h.failJob (.ite h.failJob (.ite (Steady.ite h.upd (by split; exacts [h.addSeq, h])).takeHold
    (Steady.ite h.upd (by split; exacts [h.addSeq, h])).modCmd.tryLoad))

theorem Steady.execRun {cid : Nat} {inbuf : Bytes} (h : s.Steady ph) : NextHolds (Steady ph) (execRun cid inbuf s) := by
  unfold Machine.execRun
  split
  · exact .next h
  · split
    · exact .next h.failJob
    · exact .ite (.next h.askSequence) (.next h)

theorem Steady.execEncodeSearch {cid : Nat} {inbuf : Bytes} (h : s.Steady ph) :
    NextHolds (Steady ph) (execEncodeSearch cid inbuf s) := by
  unfold Machine.execEncodeSearch
  dsimp only
  split
  · exact .next h
  · split
    · split
      · exact .next h.failJob
      · exact .ite (.next h) (.ite (.next h.failJob) (.next (Steady.ite h h.upd).modCmd.askSequence))
    · exact .next h.failJob
    · exact .next h.failJob

theorem Steady.chargeStep {hd p status : Nat} (h : s.Steady ph) : (s.chargeStep hd p status).Steady ph := h.upd

theorem Steady.execReload {handle : Fin 1024} {block : Nat} {flashOk : Bool} (h : s.Steady ph) :
    NextHolds (Steady ph) (execReload handle block flashOk s) := by
  unfold Machine.execReload
  dsimp only
  split
  · exact .next h
  · exact .ite (.ite (.next h.pokeTiles.modModel) (.ite (.next (Steady.pokeTiles
      (by split; exacts [Steady.ite h.askTiles h, h])).modModel.count)
        (.next (h.count.modModel.foldl (fun _ h1 => h1.chargeStep))))) (.next h)

/-! ### Machine/Arbiter -/

theorem Steady.setCtx {c : FrameCtx} (h : s.Steady ph) : (s.setCtx c).Steady ph := h.upd

theorem Steady.noteReady (h : s.Steady ph) : s.noteReady.Steady ph := h.upd

/-! ### Machine/Frames -/

theorem Steady.chargeClocks {c : FrameCtx} {n : Nat} (h : s.Steady ph) : (s.chargeClocks c n).Steady ph := h.upd

theorem Steady.stepOn {c : FrameCtx} {t : TileInstr} {n : Nat} (h : s.Steady ph) : (s.stepOn c t n).Steady ph :=
  h.setCtx.chargeClocks.count

theorem Steady.runTile {f op : Nat} {clocks : TileInstr → Nat} {go : State → FrameCtx → ModelPkg → TileInstr → TileEffect}
    (h : s.Steady ph) (hgo : ∀ {s : State} {c pkg t}, s.Steady ph → TileSteady ph (go s c pkg t)) :
    (s.runTile f op clocks go).Steady ph := by
  unfold State.runTile
  dsimp only
  split
  · exact h
  · split
    · exact h
    · split
      · next e => exact (hgo h _ _ e).stepOn
      · exact h.upd.stepOn

theorem Steady.storeRows {a stride : Nat} {rs : List Bytes} (h : s.Steady ph) : (s.storeRows a stride rs).Steady ph := by
  induction rs generalizing s a with
  | nil => exact h
  | cons r rs ih => exact ih h.poke

theorem Steady.storeTile {fl : Bool} {sram : Nat} {c : FrameCtx} {t : TileInstr} {xs : List (List F32)} (h : s.Steady ph) :
    TileSteady ph (s.storeTile fl sram c t xs) :=
  .ite (.some h.storeRows) (.none)

theorem Steady.fuse {fl : Bool} {sram : Nat} {c : FrameCtx} {t : TileInstr} {xs : List (List F32)} (h : s.Steady ph) :
    TileSteady ph (s.fuse fl sram c t xs) :=
  .ite (.some h) (.ite (.none) (.ite (.some h) (.ite (.some h.poke) (.none))))

theorem Steady.finishMatmul {fl : Bool} {sram : Nat} {c : FrameCtx} {t : TileInstr} {xs : List (List F32)} (h : s.Steady ph) :
    TileSteady ph (s.finishMatmul fl sram c t xs) := by
  unfold State.finishMatmul
  split
  · exact .none
  · next e => exact (h.fuse _ _ e).storeTile

theorem Steady.matmulPlain {fl : Bool} {sram : Nat} {c : FrameCtx} {t : TileInstr} {as bs : List (List Val)} (h : s.Steady ph) :
    TileSteady ph (s.matmulPlain fl sram c t as bs) :=
  .ite (.some h) h.finishMatmul

theorem Steady.deliver {new : List BlockSum} (h : s.Steady ph) : (s.deliver new).Steady ph := h.upd

theorem Steady.dropSums {c : FrameCtx} {keys : List Nat} (h : s.Steady ph) : (s.dropSums c keys).Steady ph := h.upd

theorem Steady.matmulOrdered {fl : Bool} {sram : Nat} {c : FrameCtx} {t : TileInstr} {as bs : List (List Val)}
    (h : s.Steady ph) : TileSteady ph (s.matmulOrdered fl sram c t as bs) := by
  unfold State.matmulOrdered
  dsimp only
  split
  · exact .some h.upd
  · split
    · exact h.upd.finishMatmul
    · split
      · exact .none
      · next e =>
        have hf := Steady.finishMatmul h.upd _ _ e
        exact .some (.ite hf.upd hf)

theorem Steady.setWords {fl : Bool} {t : TileInstr} (h : s.Steady ph) : (s.setWords fl t).1.Steady ph :=
  h.foldl (fun _ h1 => h1.poke)

theorem Steady.matmulArrival {fl : Bool} {c : FrameCtx} {t : TileInstr} {as bs : List (List Val)} (h : s.Steady ph) :
    TileSteady ph (s.matmulArrival fl c t as bs) := by
  unfold State.matmulArrival
  extract_lets key word
  refine .ite .none ?_
  split
  next s1 f0 e =>
    have h1 : s1.Steady ph := .of_fst e (.ite_fst h h.setWords)
    extract_lets s2
    have h2 : s2.Steady ph := .ite h1.deliver h1
    exact .ite (.some h2) (.some (.ite (h2.foldl fun _ h => h.poke).dropSums (h2.foldl fun _ h => h.poke)))

theorem Steady.matmul {c : FrameCtx} {pkg : ModelPkg} {t : TileInstr} (h : s.Steady ph) : TileSteady ph (s.matmul c pkg t) :=
  .ite (.none) (.ite (.ite h.matmulArrival (.ite h.matmulOrdered h.matmulPlain)) (.none))

theorem Steady.execMatmul {f : Fin 16} (h : s.Steady ph) : NextHolds (Steady ph) (execMatmul f s) := .next (h.runTile (·.matmul))

theorem Steady.xorpop {c : FrameCtx} {pkg : ModelPkg} {t : TileInstr} (h : s.Steady ph) : TileSteady ph (s.xorpop c pkg t) :=
  .ite h.storeTile (.none)

theorem Steady.execXorpop {f : Fin 16} (h : s.Steady ph) : NextHolds (Steady ph) (execXorpop f s) := .next (h.runTile (·.xorpop))

theorem Steady.ewise {c : FrameCtx} {pkg : ModelPkg} {t : TileInstr} (h : s.Steady ph) : TileSteady ph (s.ewise c pkg t) :=
  .ite h.storeTile (.none)

theorem Steady.execEwise {f : Fin 16} (h : s.Steady ph) : NextHolds (Steady ph) (execEwise f s) := .next (h.runTile (·.ewise))

theorem Steady.mapTile {c : FrameCtx} {pkg : ModelPkg} {t : TileInstr} {g : Nat → Nat → F32 → Flagged F32} (h : s.Steady ph) :
    TileSteady ph (s.mapTile c pkg t g) :=
  .ite h.storeTile (.none)

theorem Steady.curveTile {c : FrameCtx} {pkg : ModelPkg} {t : TileInstr} (h : s.Steady ph) :
    TileSteady ph (s.curveTile c pkg t) := by
  unfold State.curveTile
  split
  · exact h.mapTile
  · exact .none

theorem Steady.execCurve {f : Fin 16} (h : s.Steady ph) : NextHolds (Steady ph) (execCurve f s) := .next (h.runTile (·.curveTile))

theorem Steady.norm {c : FrameCtx} {pkg : ModelPkg} {t : TileInstr} (h : s.Steady ph) : TileSteady ph (s.norm c pkg t) :=
  .ite h.mapTile (.none)

theorem Steady.execNorm {f : Fin 16} (h : s.Steady ph) : NextHolds (Steady ph) (execNorm f s) := .next (h.runTile (·.norm))

theorem Steady.softnorm {c : FrameCtx} {pkg : ModelPkg} {t : TileInstr} (h : s.Steady ph) : TileSteady ph (s.softnorm c pkg t) :=
  .ite h.mapTile (.none)

theorem Steady.execSoftnorm {f : Fin 16} (h : s.Steady ph) : NextHolds (Steady ph) (execSoftnorm f s) :=
  .next (h.runTile (·.softnorm))

theorem Steady.chargeSeq {entry status : Nat} (h : s.Steady ph) : (s.chargeSeq entry status).Steady ph := h.upd

theorem Steady.gatherTile {c : FrameCtx} {pkg : ModelPkg} {t : TileInstr} (h : s.Steady ph) :
    TileSteady ph (s.gatherTile c pkg t) :=
  .ite (.some (h.storeRows.foldl (fun _ h1 => h1.chargeSeq))) (.none)

theorem Steady.execGather {f : Fin 16} (h : s.Steady ph) : NextHolds (Steady ph) (execGather f s) := .next (h.runTile (·.gatherTile))

theorem Steady.argmaxTile {c : FrameCtx} {pkg : ModelPkg} {t : TileInstr} (h : s.Steady ph) :
    TileSteady ph (s.argmaxTile c pkg t) :=
  .ite (.some h.poke) (.none)

theorem Steady.execArgmax {f : Fin 16} (h : s.Steady ph) : NextHolds (Steady ph) (execArgmax f s) := .next (h.runTile (·.argmaxTile))

theorem Steady.topkTile {c : FrameCtx} {pkg : ModelPkg} {t : TileInstr} (h : s.Steady ph) : TileSteady ph (s.topkTile c pkg t) :=
  .ite (.some h.poke) (.none)

theorem Steady.execTopk {f : Fin 16} (h : s.Steady ph) : NextHolds (Steady ph) (execTopk f s) := .next (h.runTile (·.topkTile))

/-! ### Machine/Streams -/

theorem Steady.fillShadow {id k : Nat} (h : s.Steady ph) : (s.fillShadow id k).Steady ph := by
  unfold State.fillShadow
  dsimp only
  split
  · exact h
  · exact .ite h h.poke.upd

theorem Steady.readTier {a n : Nat} (h : s.Steady ph) : (s.readTier a n).2.Steady ph := by
  unfold State.readTier
  dsimp only
  split
  · split
    · exact h.foldl (fun _ h1 => h1.fillShadow)
    · exact h
  · split
    · exact h
    · exact h

theorem Steady.writeTier {a : Nat} {bs : Bytes} (h : s.Steady ph) : (s.writeTier a bs).Steady ph := by
  unfold State.writeTier
  dsimp only
  split
  · exact (h.foldl (fun _ h1 => h1.fillShadow)).poke.upd
  · exact h.poke

theorem Steady.runStream {f i op : Nat} {go : Stream → StreamInstr → Stream} (h : s.Steady ph) :
    (s.runStream f i op go).Steady ph := by
  unfold State.runStream
  split
  · exact h
  · exact h.setCtx

theorem Steady.execStreamBase {f i : Fin 16} (h : s.Steady ph) : NextHolds (Steady ph) (execStreamBase f i s) := .next h.runStream

theorem Steady.execStreamLoop {f i : Fin 16} (h : s.Steady ph) : NextHolds (Steady ph) (execStreamLoop f i s) := .next h.runStream

theorem Steady.execStreamNext {f i : Fin 16} (h : s.Steady ph) : NextHolds (Steady ph) (execStreamNext f i s) := .next h.runStream

theorem Steady.execStreamAdd {f i : Fin 16} (h : s.Steady ph) : NextHolds (Steady ph) (execStreamAdd f i s) := .next h.runStream

theorem Steady.execStreamEnd {f i : Fin 16} (h : s.Steady ph) : NextHolds (Steady ph) (execStreamEnd f i s) := .next h.runStream

theorem Steady.strand {c : FrameCtx} {i : Nat} {x : Stream} (h : s.Steady ph) : (s.strand c i x).Steady ph := h.upd

theorem Steady.stopStream {c : FrameCtx} {i : Nat} {x : Stream} (h : s.Steady ph) : (s.stopStream c i x).Steady ph := h.upd

theorem Steady.emit {i count : Nat} {c : FrameCtx} {pkg : ModelPkg} {x : Stream} (h : s.Steady ph) :
    (s.emit i count c pkg x).Steady ph :=
  .ite (Steady.ite h.count h).setCtx h.chargeStep.stopStream

theorem Steady.of_takeTurn {r : SegReady} (e : s.takeTurn r = some t) (h : s.Steady ph) : t.Steady ph := by
  unfold State.takeTurn at e
  dsimp only at e
  split at e
  · split at e
    · cases e; exact h.upd
    · cases e
  · split at e
    · cases e
    · split at e
      · cases e
      · split at e
        · cases e; exact h.upd
        · cases e

theorem Steady.execStreamEmit {f i : Fin 16} (h : s.Steady ph) : NextHolds (Steady ph) (execStreamEmit f i s) := by
  unfold Machine.execStreamEmit
  split
  · split
    · next e => exact .next (h.of_takeTurn e).emit
    · exact .next h
  · exact .next h

theorem Steady.putSegment {c : FrameCtx} {pkg : ModelPkg} {x : Stream} {g : SegXfer} (h : s.Steady ph) :
    (s.putSegment c pkg x g).Steady ph := by
  unfold State.putSegment
  dsimp only
  split
  · exact h.writeTier.upd
  · exact h

theorem Steady.stall {p ix n : Nat} (h : s.Steady ph) : (s.stall p ix n).Steady ph := h.upd

theorem Steady.trySwap {c : FrameCtx} {pkg : ModelPkg} {t : TileInstr} {i : Nat} (h : s.Steady ph) :
    (s.trySwap c pkg t i).Steady ph := by
  unfold State.trySwap
  split
  · exact h.chargeStep.stepOn
  · exact .ite h.stepOn (.ite h h.setCtx.stall)

theorem Steady.tryReArm {c : FrameCtx} {pkg : ModelPkg} {t : TileInstr} {i : Nat} (h : s.Steady ph) :
    (s.tryReArm c pkg t i).Steady ph := by
  unfold State.tryReArm
  dsimp only
  split
  · exact h.chargeStep.stepOn
  · exact .ite h.chargeStep.stepOn (.ite h.stepOn (.ite h h.setCtx))

theorem Steady.execStreamSwap {f : Fin 16} (h : s.Steady ph) : NextHolds (Steady ph) (execStreamSwap f s) := by
  unfold Machine.execStreamSwap
  split
  · exact .ite (.next h.trySwap) (.next h)
  · exact .next h

theorem Steady.execStreamReArm {f : Fin 16} (h : s.Steady ph) : NextHolds (Steady ph) (execStreamReArm f s) := by
  unfold Machine.execStreamReArm
  split
  · exact .ite (.next h.tryReArm) (.next h)
  · exact .next h

theorem Steady.wake {f : Nat} (h : s.Steady ph) : (s.wake f).Steady ph := by
  unfold State.wake
  split
  · split
    · exact h.trySwap
    · exact h.tryReArm
    · exact h
  · exact h

theorem Steady.badTensor {c : FrameCtx} {i : Nat} {x : Stream} {g : SegXfer} (h : s.Steady ph) :
    (s.badTensor c i x g).Steady ph := by
  unfold State.badTensor
  dsimp only
  split
  · exact h.stopStream
  · exact .ite h.stopStream.chargeStep ((Steady.ite h.stopStream.modModel h.stopStream).foldl (fun _ h1 => h1.checkFault))

theorem Steady.of_deliverTile {c : FrameCtx} {pkg : ModelPkg} {x : Stream} {gs : List SegXfer} (h : s.Steady ph)
    (e : State.deliverTile c pkg x s gs = .done t) : t.Steady ph := by
  induction gs generalizing s with
  | nil => cases e; exact h
  | cons g gs ih =>
    unfold State.deliverTile at e
    split at e
    · exact ih h e
    · split at e
      · cases e
      · cases e
      · next e1 _ =>
        split at e
        · exact ih (Steady.of_snd e1 h.readTier).poke e
        · cases e
      · next e1 _ => exact ih (.of_snd e1 h.readTier) e

theorem Steady.execStreamTileArrival {f i : Fin 16} (h : s.Steady ph) :
    NextHolds (Steady ph) (execStreamTileArrival f i s) := by
  unfold Machine.execStreamTileArrival
  dsimp only
  split
  · exact .next h
  · split
    · split
      · exact .next h
      · split
        · exact .next (h.foldl (fun _ h1 => h1.putSegment)).upd.wake
        · split
          · exact .next h
          · split
            · exact .next h
            · split
              · next e => exact .next (h.of_deliverTile e).upd.wake
              · exact .next h.upd.wake
              · exact .next h.badTensor.wake
    · exact .next h

theorem Steady.pageFail {c : FrameCtx} {i : Nat} {x : Stream} (h : s.Steady ph) : (s.pageFail c i x).Steady ph :=
  h.chargeStep.stopStream.wake

theorem Steady.applyPrg {c : FrameCtx} {i : Nat} {x : Stream} {code : PrgCode} (h : s.Steady ph) :
    (s.applyPrg c i x code).Steady ph := by
  unfold State.applyPrg
  split
  · exact h.setCtx
  · exact h.pageFail

theorem Steady.blockPri {c : FrameCtx} (h : s.Steady ph) : (s.blockPri c).Steady ph := by
  unfold State.blockPri
  split
  · exact h.modPort
  · exact h

theorem Steady.streamPrg {f i : Nat} {code : PrgCode} (h : s.Steady ph) : (s.streamPrg f i code).Steady ph := by
  unfold State.streamPrg
  dsimp only
  split
  · exact h
  · exact .ite (Steady.ite h.blockPri h).setCtx (Steady.ite h.blockPri h).applyPrg

theorem Steady.streamPageTimeout {f i : Nat} (h : s.Steady ph) : (s.streamPageTimeout f i).Steady ph := by
  unfold State.streamPageTimeout
  split
  · split
    · exact .ite h.pageFail h
    · exact h
  · exact h

theorem Steady.bufferFail {cid : Nat} (h : s.Steady ph) : (s.bufferFail cid).Steady ph := h.modCmd.failJob

theorem Steady.bufferPrg {cid : Nat} {code : PrgCode} (h : s.Steady ph) : (s.bufferPrg cid code).Steady ph := by
  unfold State.bufferPrg
  split
  · exact h
  · split
    · split
      · exact h.modCmd
      · exact h.bufferFail
      · exact h.modPort.bufferFail
    · exact h

theorem Steady.bufferPageTimeout {cid : Nat} (h : s.Steady ph) : (s.bufferPageTimeout cid).Steady ph := by
  unfold State.bufferPageTimeout
  split
  · split
    · exact .ite h.bufferFail h
    · exact h
  · exact h

theorem Steady.bufferTranslated {cid : Nat} {granted : Bool} (h : s.Steady ph) : (s.bufferTranslated cid granted).Steady ph := by
  unfold State.bufferTranslated
  dsimp only
  split
  · exact h
  · split
    · exact h
    · exact .ite h.upd.modCmd (.ite h (.ite h.bufferFail (.ite h.modCmd h.modCmd.count)))

theorem Steady.execPrgResponse {u : PageUser} {i : Fin 16} {code : PrgCode} (h : s.Steady ph) :
    NextHolds (Steady ph) (execPrgResponse u i code s) := by
  unfold Machine.execPrgResponse
  split
  · exact .next h.streamPrg
  · exact .next h.bufferPrg

theorem Steady.execPageRequestTimeout {u : PageUser} {i : Fin 16} (h : s.Steady ph) :
    NextHolds (Steady ph) (execPageRequestTimeout u i s) := by
  unfold Machine.execPageRequestTimeout
  split
  · exact .next h.streamPageTimeout
  · exact .next h.bufferPageTimeout

theorem Steady.execBufferReadError {r : FailedRead} (h : s.Steady ph) : NextHolds (Steady ph) (execBufferReadError r s) := by
  unfold Machine.execBufferReadError
  split
  · exact .next h
  · split
    · exact .next h.modPort.dropSeqs.fail
    · split
      · exact .next h.modPort.chargeStep.stopStream.wake
      · exact .next h

theorem Steady.moveHost {c : FrameCtx} {pkg : ModelPkg} {x : Stream} {g : SegXfer} {data : Bytes} (h : s.Steady ph) :
    (s.moveHost c pkg x g data).Steady ph := by
  unfold State.moveHost
  split
  · exact h.putSegment
  · split
    · exact h.poke
    · exact h

theorem Steady.addAtc {e : AtcEntry} (h : s.Steady ph) : (s.addAtc e).Steady ph := h.upd

theorem Steady.translated {c : FrameCtx} {i : Nat} {pkg : ModelPkg} {x : Stream} {g : SegXfer} {r : Requester} {granted : Bool}
    {data : Bytes} (h : s.Steady ph) : (s.translated c i pkg x g r granted data).Steady ph :=
  .ite (Steady.ite h.addAtc h).setCtx (.ite (Steady.ite h.addAtc h).moveHost.setCtx
    (.ite (Steady.ite h.addAtc h).pageFail (.ite (Steady.ite h.addAtc h).setCtx (Steady.ite h.addAtc h).setCtx.count)))

theorem Steady.staleHostReply {f i : Nat} (h : s.Steady ph) : (s.staleHostReply f i).Steady ph := by
  unfold State.staleHostReply
  dsimp only
  split
  · exact h.upd.count
  · exact h

theorem Steady.streamTranslated {f i : Nat} {granted : Bool} {data : Bytes} (h : s.Steady ph) :
    (s.streamTranslated f i granted data).Steady ph := by
  unfold State.streamTranslated
  split
  · exact h.staleHostReply
  · split
    · split
      · exact .ite h.translated h
      · exact h
    · exact h.staleHostReply

theorem Steady.execAtsTranslationCompletion {u : PageUser} {i : Fin 16} {granted : Bool} {data : Bytes} (h : s.Steady ph) :
    NextHolds (Steady ph) (execAtsTranslationCompletion u i granted data s) := by
  unfold Machine.execAtsTranslationCompletion
  split
  · exact .next h.streamTranslated
  · exact .next h.bufferTranslated

theorem Steady.execAtsInvalidation {p : Port} {fn : Fin 64} {addr len : Nat} (h : s.Steady ph) :
    NextHolds (Steady ph) (execAtsInvalidation p fn addr len s) :=
  .ite (.next h.upd.count) (.next h)

/-! ### Machine/Steps -/

theorem Steady.setRunning {f : Nat} {r : Option (Nat × Nat)} (h : s.Steady ph) : (s.setRunning f r).Steady ph := h.upd

theorem Steady.takeSlots {hd p : Nat} (h : s.Steady ph) : (s.takeSlots hd p).Steady ph := h.upd

theorem Steady.startCtx {c : FrameCtx} (h : s.Steady ph) : (s.startCtx c).Steady ph := by
  unfold State.startCtx
  dsimp only
  split
  · exact (Steady.ite h.takeSlots h).setCtx.setRunning
  · exact .ite h.takeSlots h

theorem Steady.fillFrame {f : Nat} (h : s.Steady ph) : (s.fillFrame f).Steady ph := by
  unfold State.fillFrame
  dsimp only
  split
  · split
    · exact .ite h.noteReady h.noteReady.startCtx
    · exact h.noteReady
  · exact h.noteReady

theorem Steady.rotate {c : FrameCtx} {pkg : ModelPkg} {t : TileInstr} {g : Nat} (h : s.Steady ph) :
    (s.rotate c pkg t g).Steady ph :=
  .ite (Steady.stepOn (by split; exacts [h.poke.setCtx, h.poke])) h.chargeStep.stepOn

theorem Steady.execRotate {f : Fin 16} (h : s.Steady ph) : NextHolds (Steady ph) (execRotate f s) := by
  unfold Machine.execRotate
  dsimp only
  split
  · exact .ite (.ite (.next h.rotate) (.next h.setCtx)) (.next h)
  · exact .next h

theorem Steady.passSync {hd p imm : Nat} {code : List TileInstr} (h : s.Steady ph) : (s.passSync hd p imm code).Steady ph :=
  .ite (h.foldl (fun _ h1 => by split; exacts [h1.stepOn, h1])) h

theorem Steady.execSync {f : Fin 16} (h : s.Steady ph) : NextHolds (Steady ph) (execSync f s) := by
  unfold Machine.execSync
  split
  · exact .ite (.next h.setCtx.passSync) (.next h)
  · exact .next h

theorem Steady.releaseStep {hd p : Nat} (h : s.Steady ph) : (s.releaseStep hd p).Steady ph := by
  unfold State.releaseStep
  split
  · split
    · exact h.endGrant
    · exact h
  · exact h

theorem Steady.endFrame {c : FrameCtx} (h : s.Steady ph) : (s.endFrame c).Steady ph := h.setCtx.setRunning.releaseStep.fillFrame

theorem Steady.execEndStep {f : Fin 16} (h : s.Steady ph) : NextHolds (Steady ph) (execEndStep f s) := by
  unfold Machine.execEndStep
  dsimp only
  split
  · exact .next h
  · split
    · exact .next h
    · exact .ite (.next h.count.endFrame) (.next h)

theorem Steady.takeBatch {q : Seqn} {ix first : Nat} {f : Flags} {tally : List (F32 × BitVec 64)} (h : s.Steady ph) :
    (s.takeBatch q ix first f tally).Steady ph := by
  unfold State.takeBatch
  dsimp only
  split
  · exact h
  · exact .ite h h.modSearch.useCmd.maybeSelect

theorem Steady.handOver {m : Model} {q : Seqn} {f : Flags} {tally : List (F32 × BitVec 64)} (h : s.Steady ph) :
    (s.handOver m q f tally).Steady ph := by
  unfold State.handOver
  dsimp only
  split
  · exact h
  · split
    · exact h.takeBatch
    · exact .ite h.modCmd.unhold.finish h.modSearch.modCmd.unhold

theorem Steady.faultLeave {q : Seqn} {st : Nat} {f : Flags} (h : s.Steady ph) : (s.faultLeave q st f).Steady ph :=
  .ite (Steady.ite (Steady.ite h.unhold h).count (Steady.ite (Steady.ite h.unhold h).count
    (Steady.ite h.unhold h))).modCmd.failJob (.ite h.unhold h)

theorem Steady.leave {m : Model} {q : Seqn} (h : s.Steady ph) : (s.leave m q).Steady ph := by
  unfold State.leave
  dsimp only
  split
  · exact h.upd
  · exact h.upd
  · split
    · exact h.upd.faultLeave
    · exact .ite h.upd.handOver h.upd.modCmd

theorem Steady.chargeStepClocks {hd p : Nat} (h : s.Steady ph) : (s.chargeStepClocks hd p).Steady ph :=
  h.foldl (fun _ h1 => Steady.ite h1 h1.useClass)

theorem Steady.drawSteps {kind : Nat} (h : s.Steady ph) : (s.drawSteps kind).2.Steady ph := by
  unfold State.drawSteps
  split
  · exact h.draw
  · exact h

theorem Steady.join {kind : Nat} {q : Seqn} (h : s.Steady ph) : (s.join kind q).Steady ph := h.drawSteps.upd.poke.useClass

theorem Steady.joinAll {m : Model} {p : Nat} {qs : List Seqn} (h : s.Steady ph) : (State.joinAll m p s qs).1.Steady ph := by
  induction qs generalizing s with
  | nil => exact h
  | cons q qs ih =>
    unfold State.joinAll
    dsimp only
    split
    · exact ih h.join
    · exact h

theorem Steady.deal {m : Model} {p : Nat} (h : s.Steady ph) : (s.deal m p).Steady ph :=
  .ite h ((Steady.ite h.upd.askGrant h.upd).foldl (fun _ h1 => h1.fillFrame))

theorem Steady.execStepBoundary {handle : Fin 1024} {part : Fin 16} (h : s.Steady ph) :
    NextHolds (Steady ph) (execStepBoundary handle part s) := by
  unfold Machine.execStepBoundary
  split
  · exact .next h
  · extract_lets n p s1 s2 _ s3 js
    have h2 : s2.Steady ph := h.chargeStepClocks.foldl fun _ h => h.leave
    have h3 : s3.Steady ph := h2.upd
    refine .ite (.ite (.next (h3.foldl fun _ h => h.faultLeave)) ?_) (.next h)
    exact .next (Steady.ite h3.joinAll.count h3.joinAll).deal

theorem Steady.execSave {f : Fin 16} (h : s.Steady ph) : NextHolds (Steady ph) (execSave f s) := by
  unfold Machine.execSave
  dsimp only
  split
  · exact .next h.noteReady
  · split
    · exact .ite (.next h.noteReady) (.next (h.noteReady.foldl (fun _ h1 =>
        h1.strand)).setCtx.chargeClocks.setRunning.count.releaseStep.fillFrame)
    · exact .next h.noteReady

theorem Steady.reloadSram {f : Nat} {es : List (Nat × Bytes)} (h : s.Steady ph) : (s.reloadSram f es).Steady ph := by
  induction es generalizing s with
  | nil => exact h
  | cons e es ih => exact ih h.poke

theorem Steady.applyAnswers {f : Nat} (h : s.Steady ph) : (s.applyAnswers f).Steady ph :=
  h.foldl (fun _ h1 => by split; exacts [by split; exacts [h1.applyPrg, h1], h1])

theorem Steady.execRestore {f : Fin 16} (h : s.Steady ph) : NextHolds (Steady ph) (execRestore f s) := by
  unfold Machine.execRestore
  dsimp only
  split
  · exact .next h.noteReady
  · split
    · exact .next h.noteReady
    · split
      · exact .next h.noteReady
      · exact .ite (.next h.noteReady.reloadSram.setCtx.chargeClocks.setRunning.applyAnswers) (.next h.noteReady)

/-! ### Machine/Tiers -/

theorem Steady.modPlacement {id : Nat} {f : Placement → Placement} (h : s.Steady ph) : (s.modPlacement id f).Steady ph := h.upd

theorem Steady.execTierMove {cid place : Nat} (h : s.Steady ph) : NextHolds (Steady ph) (execTierMove cid place s) := by
  unfold Machine.execTierMove
  split
  · exact .next h
  · exact .next h.orderCmd

theorem Steady.placementBytes {l : Placement} (h : s.Steady ph) : (s.placementBytes l).2.Steady ph := by
  unfold State.placementBytes
  split
  · split
    · exact h
    · exact h
  · split
    · next e => exact .of_snd e h.readTier
    · next e => exact .of_snd e h.readTier

theorem Steady.failMove {l : Placement} (h : s.Steady ph) : (s.failMove l).Steady ph := h.modPlacement.fail.moveEnded

theorem Steady.startCopy {l : Placement} (h : s.Steady ph) : (s.startCopy l).Steady ph := by
  unfold State.startCopy
  dsimp only
  split
  · exact h
  · split
    · next e => exact (Steady.of_snd e h.placementBytes).failMove
    · next e => exact (Steady.of_snd e h.placementBytes).upd.askTiles

theorem Steady.startCopies (h : s.Steady ph) : s.startCopies.Steady ph := h.foldl (fun _ h1 => h1.startCopy)

theorem Steady.applyMove {c : Cmd} {place : Nat} (h : s.Steady ph) : (s.applyMove c place).Steady ph := by
  unfold State.applyMove
  dsimp only
  split
  · exact h.fail
  · split
    · exact h.fail
    · split
      · exact h.fail
      · split
        · exact h.writeBackAll.modPlacement.modCmd.startCopy
        · exact h.writeBackAll.modPlacement.modCmd

theorem Steady.switchPlacement {l : Placement} (h : s.Steady ph) : (s.switchPlacement l).Steady ph :=
  Steady.moveEnded (by split; exacts [(Steady.ite h.askErase h).modPlacement.upd,
    (Steady.ite h.askErase h).modPlacement.upd.finish])

theorem Steady.execMoveComplete {id : Fin 4096} (h : s.Steady ph) : NextHolds (Steady ph) (execMoveComplete id s) := by
  unfold Machine.execMoveComplete
  dsimp only
  split
  · exact .next h
  · split
    · exact .next h
    · split
      · exact .next h.switchPlacement
      · split
        · next e => exact .next (Steady.of_snd e h.placementBytes).failMove
        · next e => exact .next (Steady.of_snd e h.placementBytes).poke.switchPlacement

theorem Steady.execFlush {cid : Nat} (h : s.Steady ph) : NextHolds (Steady ph) (execFlush cid s) := by
  unfold Machine.execFlush
  split
  · exact .next h
  · exact .next h.orderCmd

theorem Steady.askFlush {cid : Nat} {tiles : List (Nat × Nat)} (h : s.Steady ph) : (s.askFlush cid tiles).Steady ph :=
  h.foldl (fun _ h1 => h1.askGrant)

theorem Steady.endFlush {cid : Nat} (h : s.Steady ph) : (s.endFlush cid).Steady ph := by
  unfold State.endFlush
  split
  · exact h
  · split
    · exact .ite h h.finish
    · exact h

theorem Steady.applyFlush {c : Cmd} (h : s.Steady ph) : (s.applyFlush c).Steady ph :=
  .ite h.fail (.ite h.fail (.ite h.fail (h.foldl (fun _ h1 => h1.writeBackAll)).modCmd.askFlush.endFlush))

/-! ### Machine/Window -/

theorem Steady.orderBar {p : Port} {off size value : Nat} (h : s.Steady ph) : (s.orderBar p off size value).Steady ph := by
  unfold State.orderBar
  split
  · exact h
  · exact .ite h.order.order h.order

theorem Steady.badAccess (h : s.Steady ph) : s.badAccess.Steady ph := h.count

theorem Steady.barWrite {p : Port} {off size value : Nat} (h : s.Steady ph) : (s.barWrite p off size value).Steady ph :=
  .ite h (.ite h.orderBar h.badAccess)

theorem Steady.execRegisterWrite {p : Port} {offset size : Nat} {value : BitVec 64} (h : s.Steady ph) :
    NextHolds (Steady ph) (execRegisterWrite p offset size value s) :=
  .next h.barWrite

theorem Steady.execHifEvtClear {p : Port} {value : BitVec 32} (h : s.Steady ph) :
    NextHolds (Steady ph) (execHifEvtClear p value s) :=
  .next h.barWrite

theorem Steady.execAdminPairEnable {p : Port} {vector : BitVec 11} {ien : Bool} (h : s.Steady ph) :
    NextHolds (Steady ph) (execAdminPairEnable p vector ien s) :=
  .next h.barWrite

theorem Steady.execAdminPairDisable {p : Port} (h : s.Steady ph) : NextHolds (Steady ph) (execAdminPairDisable p s) :=
  .next h.barWrite

theorem Steady.execSecLock {p : Port} {value : BitVec 32} (h : s.Steady ph) : NextHolds (Steady ph) (execSecLock p value s) :=
  .next h.barWrite

theorem Steady.readOut {p : Port} {v : Nat} (h : s.Steady ph) : (s.readOut p v).Steady ph := h.modPort

theorem Steady.serveTck {p : Port} {high : Bool} {size : Nat} (h : s.Steady ph) : (s.serveTck p high size).Steady ph :=
  .ite h.readOut (.ite (.ite h.readOut h.modPort.readOut) h.badAccess.readOut)

theorem Steady.execTckCount {p : Port} {high : Bool} {size : Nat} (h : s.Steady ph) :
    NextHolds (Steady ph) (execTckCount p high size s) :=
  .ite (.next h) (.ite (.next h.order) (.next h.serveTck))

theorem Steady.execHifEvtStatus {p : Port} (h : s.Steady ph) : NextHolds (Steady ph) (execHifEvtStatus p s) :=
  .ite (.next h) (.ite (.next h.readOut.modPort) (.next h.readOut))

theorem Steady.adminOn {p : Port} (h : s.Steady ph) : (s.adminOn p).Steady ph := by
  unfold State.adminOn
  exact h.upd.modPort

theorem Steady.effectBar {p : Port} {off size value : Nat} (h : s.Steady ph) : (s.effectBar p off size value).Steady ph := by
  unfold State.effectBar
  dsimp only
  split
  · exact h.modPort
  · exact .ite (.ite h.modPort.modCq h.modPort.modCq.adminOn) (.ite h.modPort.modCq.modPort.cutQueue h.modPort.modCq.modPort)
  · exact h.modPort
  · exact h.modPort
  · exact h.modPort
  · exact h.setLocks
  · exact h

theorem Steady.recordBar {p : Port} {off st : Nat} (h : s.Steady ph) : (s.recordBar p off st).Steady ph := by
  unfold State.recordBar
  exact h.modPort

theorem Steady.setWindow {k : Nat} {w : Window} (h : s.Steady ph) : (s.setWindow k w).Steady ph := h.upd

theorem Steady.winCommit {p : Port} {fn : Fin 64} {op : Nat} {w : WinFields} {data : Bytes} (h : s.Steady ph) :
    (s.winCommit p fn op w data).Steady ph :=
  .ite h (.ite h.count h.setWindow.order)

theorem Steady.execWinRead {p : Port} {fn : Fin 64} {w : WinFields} (h : s.Steady ph) :
    NextHolds (Steady ph) (execWinRead p fn w s) :=
  .next h.winCommit

theorem Steady.execWinWrite {p : Port} {fn : Fin 64} {w : WinFields} {data : Bytes} (h : s.Steady ph) :
    NextHolds (Steady ph) (execWinWrite p fn w data s) :=
  .next h.winCommit

theorem Steady.execWinReadDescriptor {p : Port} {fn : Fin 64} {w : WinFields} (h : s.Steady ph) :
    NextHolds (Steady ph) (execWinReadDescriptor p fn w s) :=
  .next h.winCommit

theorem Steady.winDone {k st : Nat} {data : Option Bytes} (h : s.Steady ph) : (s.winDone k st data).Steady ph := h.setWindow.count

theorem Steady.winRead {p : Port} {fn op : Nat} {w : WinFields} (h : s.Steady ph) : (s.winRead p fn op w).Steady ph := by
  unfold State.winRead
  dsimp only
  split
  · exact h.winDone
  · exact .ite (.ite h.winDone h.winDone) (.ite h.winDone h.winDone)

theorem Steady.winWrite {p : Port} {fn : Nat} {w : WinFields} {data : Bytes} (h : s.Steady ph) :
    (s.winWrite p fn w data).Steady ph :=
  .ite (.ite h.applyWrite h.applyWrite.winDone) h.winDone

theorem Steady.setBox {k : Nat} {b : Mailbox} (h : s.Steady ph) : (s.setBox k b).Steady ph := h.upd

theorem Steady.execMbxSend {p : Port} {fn : Fin 64} {dest : BitVec 16} {msg : Bytes} (h : s.Steady ph) :
    NextHolds (Steady ph) (execMbxSend p fn dest msg s) :=
  .ite (.next h.order) (.next h)

theorem Steady.execMbxInHead {p : Port} {fn : Fin 64} {value : BitVec 32} (h : s.Steady ph) :
    NextHolds (Steady ph) (execMbxInHead p fn value s) :=
  .ite (.next h.order) (.next h)

theorem Steady.applySend {p : Port} {fn dest : Nat} {msg : Bytes} (h : s.Steady ph) : (s.applySend p fn dest msg).Steady ph :=
  .ite h.setBox (.ite h.setBox h.setBox.count.setBox)

theorem Steady.applyInHead {p : Port} {fn v : Nat} (h : s.Steady ph) : (s.applyInHead p fn v).Steady ph :=
  .ite h (.ite h h.setBox)

theorem Steady.execObjRead {cid : Nat} (h : s.Steady ph) : NextHolds (Steady ph) (execObjRead cid s) := by
  unfold Machine.execObjRead
  split
  · exact .next h
  · exact .ite (.next h.orderCmd) (.next h)

theorem Steady.execObjWrite {cid : Nat} {inbuf : Bytes} (h : s.Steady ph) : NextHolds (Steady ph) (execObjWrite cid inbuf s) := by
  unfold Machine.execObjWrite
  split
  · exact .next h
  · exact .next h.orderCmd.modCmd

theorem Steady.applyObjRead {c : Cmd} (h : s.Steady ph) : (s.applyObjRead c).Steady ph := .ite h.outWrite.finish h.finish

theorem Steady.applyObjWrite {c : Cmd} (h : s.Steady ph) : (s.applyObjWrite c).Steady ph :=
  .ite (.ite h.applyWrite h.applyWrite.finish) h.finish

theorem Steady.writeVia {via : Via} {index sub arg len v : Nat} (h : s.Steady ph) :
    (s.writeVia via index sub arg len v).Steady ph := by
  unfold State.writeVia
  split
  · exact h.winCommit
  · exact .ite h.order h
  · split
    · exact .ite h.orderCmd.modCmd h
    · exact h

theorem Steady.execModuleReset {via : Via} (h : s.Steady ph) : NextHolds (Steady ph) (execModuleReset via s) := .next h.writeVia

theorem Steady.execConfigDefaults {via : Via} (h : s.Steady ph) : NextHolds (Steady ph) (execConfigDefaults via s) :=
  .next h.writeVia

theorem Steady.execTierModeRequest {via : Via} (h : s.Steady ph) : NextHolds (Steady ph) (execTierModeRequest via s) :=
  .next h.writeVia

theorem Steady.execTickTableSwitch {via : Via} (h : s.Steady ph) : NextHolds (Steady ph) (execTickTableSwitch via s) :=
  .next h.writeVia

theorem Steady.execUnitTakeOut {via : Via} {value : BitVec 16} (h : s.Steady ph) :
    NextHolds (Steady ph) (execUnitTakeOut via value s) :=
  .next h.writeVia

/-! ### Machine/Units -/

theorem Steady.dropCommit {c : Cmd} (h : s.Steady ph) : (s.dropCommit c).Steady ph := by
  unfold State.dropCommit
  split
  · exact h.endGrant
  · exact h

theorem Steady.stopOne {c : Cmd} (h : s.Steady ph) : (s.stopOne c).Steady ph := by
  unfold State.stopOne
  dsimp only
  split
  · exact h
  · exact (Steady.ite h.noteAll.release h.dropCommit.unwait).fail

theorem Steady.raiseFatal {cause : Nat} (h : s.Steady ph) : (s.raiseFatal cause).Steady ph :=
  .ite (Steady.ite (h.upd.raiseEvent.foldl (fun _ h1 => h1.stopOne)) h.upd.raiseEvent).order
    (.ite (h.upd.raiseEvent.foldl (fun _ h1 => h1.stopOne)) h.upd.raiseEvent)

theorem Steady.execFatal {cause : Fin 8} (h : s.Steady ph) : NextHolds (Steady ph) (execFatal cause s) :=
  .ite (.next h.raiseFatal) (.next h)

theorem Steady.faultAll {cids : List Nat} {checksum : Bool} (h : s.Steady ph) : (s.faultAll cids checksum).Steady ph :=
  h.foldl (fun _ h1 => h1.faultCmd)

theorem Steady.breakStep {hd p : Nat} (h : s.Steady ph) : (s.breakStep hd p).Steady ph :=
  Steady.upd (by split; exacts [(h.chargeStepClocks.foldl (fun _ h1 => h1.foldl (fun _ h2 => h2.strand))).faultAll.endGrant,
    (h.chargeStepClocks.foldl (fun _ h1 => h1.foldl (fun _ h2 => h2.strand))).faultAll])

theorem Steady.refreshBuffer (h : s.Steady ph) : s.refreshBuffer.Steady ph := h.upd

theorem Steady.putUnit {r : UnitRec} (h : s.Steady ph) : (s.putUnit r).Steady ph := h.upd

theorem Steady.countFault {u : Nat} (h : s.Steady ph) : (s.countFault u).Steady ph := .ite h.putUnit h

theorem Steady.startRepair {n : Nat} (h : s.Steady ph) : (s.startRepair n).Steady ph := by
  unfold State.startRepair
  dsimp only
  split
  · exact .ite h.modColl (.ite h.modColl.abandonPass.requestPass (.ite h.modColl.setPass h.modColl.suspendForRepair))
  · exact h.modColl

theorem Steady.takeOut {u cause : Nat} (h : s.Steady ph) : (s.takeOut u cause).Steady ph :=
  .ite h ((((h.putUnit.foldl (fun _ h1 => h1.putUnit)).faultAll.foldl (fun _ h1 => h1.breakStep)).foldl
    (fun _ h1 => h1.fillFrame)).foldl (fun _ h1 => Steady.ite h1.startRepair h1)).refreshBuffer.raiseEvent

theorem Steady.execUnitOut {unit : Nat} {cause : Fin 10} (h : s.Steady ph) : NextHolds (Steady ph) (execUnitOut unit cause s) :=
  .ite (.next h.takeOut) (.next h)

theorem Steady.noteFault {u : Nat} (h : s.Steady ph) : (s.noteFault u).2.Steady ph := h.upd.countFault

theorem Steady.execInternalFault {site : FaultSite} {cids : List Nat} (h : s.Steady ph) :
    NextHolds (Steady ph) (execInternalFault site cids s) := by
  unfold Machine.execInternalFault
  dsimp only
  split
  · exact .next h
  · split
    · exact .next h.raiseFatal
    · exact .next h.faultAll
    · exact .next h.count.faultAll
    · split
      · exact .next h.faultPass
      · exact .next h
    · split
      · exact .next h
      · exact .ite (.next h.noteFault.faultAll) (.ite (.next h.noteFault.faultAll.takeOut)
          (.next h.noteFault.faultAll.raiseFatal))

theorem Steady.execRodLinkFailure {chip : Fin 8} {retrained : Bool} (h : s.Steady ph) :
    NextHolds (Steady ph) (execRodLinkFailure chip retrained s) :=
  .ite (.next h) (.ite (.next h.count.faultAll) (.ite (.next h.count.faultAll.upd.countFault.takeOut)
    (.next h.count.faultAll.upd.countFault)))

theorem Steady.execNoReadyStatus {die : Fin 128} (h : s.Steady ph) : NextHolds (Steady ph) (execNoReadyStatus die s) :=
  .ite (.next h) (.ite (.next h.noteFault.faultAll.takeOut) (.next h.noteFault.faultAll))

theorem Steady.retireBucket {tile : Nat} (h : s.Steady ph) : (s.retireBucket tile).Steady ph :=
  h.foldl (fun _ h1 => Steady.ite h1.modColl.startRepair h1)

theorem Steady.execLostTile {tile : Nat} {system bothCopies : Bool} (h : s.Steady ph) :
    NextHolds (Steady ph) (execLostTile tile system bothCopies s) := by
  unfold Machine.execLostTile
  extract_lets readers _ s1 s2 s3 d n s4
  have h2 : s2.Steady ph := (Steady.count h.upd).faultAll
  have h3 : s3.Steady ph := .ite (.ite h2 h2.rewriteCopy) h2.retireBucket
  have h4 : s4.Steady ph := .ite h3.raiseFatal h3
  exact .ite (.next h) (.ite (.ite (.next h.raiseFatal) (.next h)) (.ite (.next h4.takeOut) (.next h4)))

theorem Steady.reEnter {coll : Nat} {ext : BitVec 64} {n : Nat} (h : s.Steady ph) : (s.reEnter coll ext n).Steady ph := by
  unfold State.reEnter
  split
  · exact h
  · split
    · exact h
    · exact h.enterMap

theorem Steady.endRepair {n : Nat} (h : s.Steady ph) : (s.endRepair n).Steady ph := by
  unfold State.endRepair
  dsimp only
  split
  · exact h.modColl
  · split
    · exact h.modColl.resumePass
    · exact h.modColl.requestPass

theorem Steady.execMapRepair {coll : Fin 64} (h : s.Steady ph) : NextHolds (Steady ph) (execMapRepair coll s) := by
  unfold Machine.execMapRepair
  dsimp only
  split
  · exact .next h
  · exact .ite (.next h) (.next (h.modColl.foldl (fun _ h1 => by split; exacts [h1.reEnter, h1])).spend.endRepair.askBuckets)

theorem Steady.scanColl {rod : Nat} {c : Coll} (h : s.Steady ph) : (s.scanColl rod c).Steady ph :=
  h.foldl (fun _ h1 => by split; exacts [h1, Steady.ite h1.retireNodes h1.reEnter])

theorem Steady.unitBack {u : Nat} (h : s.Steady ph) : (s.unitBack u).Steady ph := h.upd

theorem Steady.execReturnScan {rod : Fin 64} (h : s.Steady ph) : NextHolds (Steady ph) (execReturnScan rod s) :=
  .ite (.next (h.spend.foldl (fun _ h1 => h1.scanColl.askBuckets)).unitBack.refreshBuffer.raiseEvent) (.next h)

/-! ### Machine/Reset -/

theorem Steady.halt (h : s.Steady ph) : s.halt.Steady ph := h.same rfl

theorem Steady.takeDump (h : s.Steady ph) : s.takeDump.Steady ph :=
  .ite (Steady.count (Steady.setObj (Steady.count (h.same rfl)))) h

theorem Steady.cleared (h : s.Steady ph) : s.cleared.Steady ph := by
  obtain ⟨⟨hm, hd, -⟩, hph⟩ := h
  have hmem : Memory.wf (hostCells s.mem) = true := Memory.wf_keep hm
  exact ⟨⟨hmem, Sparse.wf_filter hd, (by decide : 100 ∈ [99, 100, 101]), rfl, fun _ => rfl⟩, hph⟩

theorem Steady.holdUp (h : s.Steady ph) : s.holdUp.Steady ph := h.halt.takeDump.cleared

theorem Steady.powerDown (h : s.Steady ph) : s.powerDown.Steady .off := (h.holdUp.enter fun _ => rfl).same rfl

theorem Steady.beginReset {cause : Nat} (h : s.Steady ph) : (s.beginReset cause).Steady (.holdup s.clk.world true) :=
  (h.halt.enter (p := .holdup s.clk.world true) nofun).upd

theorem Steady.endDump (h : s.Steady ph) : s.endDump.Inv := (h.takeDump.cleared.enter fun _ => rfl).inv

theorem Steady.execModuleResetEffect (h : s.Steady ph) : NextHolds State.Inv (execModuleResetEffect s) := by
  unfold Machine.execModuleResetEffect
  split
  · exact .next h.endDump
  · exact .next h.inv

theorem Steady.startBoot (h : s.Steady ph) : s.startBoot.Steady .on :=
  ((h.setObj (i := 0x6200) (u := 0x0D) (a := 0) (v := s.units.fatalJournal)).enter (p := .on) nofun).same rfl

theorem Steady.execResetRelease (h : s.Steady ph) : NextHolds State.Inv (execResetRelease s) := by
  unfold Machine.execResetRelease
  split
  · exact .ite (.next h.startBoot.inv) (.next h.inv)
  · exact .next h.inv

theorem Steady.execMrst {asserted : Bool} (h : s.Steady ph) : NextHolds (Steady ph) (execMrst asserted s) :=
  .ite (.ite (.next (h.same rfl)) (.next (Steady.order (h.same rfl)))) (.ite (.next (h.same rfl)) (.next h))

theorem Steady.discard {p : Order → Bool} (h : s.Steady ph) : (s.discard p).Steady ph := h.upd

theorem Steady.clearBar4 {p : Port} {fn : Option Nat} (h : s.Steady ph) : (s.clearBar4 p fn).Steady ph := h.upd

theorem Steady.endSpdm {p : Port} (h : s.Steady ph) : (s.endSpdm p).Steady ph := by
  unfold State.endSpdm
  dsimp only
  split
  · exact h.upd
  · exact h.upd

theorem Steady.dropAtc {p : Port} {fn : Option Nat} (h : s.Steady ph) : (s.dropAtc p fn).Steady ph := h.upd

theorem Steady.applyPortReset {p : Port} (h : s.Steady ph) : (s.applyPortReset p).Steady ph := by
  unfold State.applyPortReset
  exact h.discard.killQueues.modPort.clearBar4.endSpdm.dropAtc

theorem Steady.applyPerst {p : Port} {asserted : Bool} (h : s.Steady ph) : (s.applyPerst p asserted).Steady ph :=
  .ite h.applyPortReset.modPort h.modPort

theorem Steady.applyFlr {p : Port} {fn : Nat} (h : s.Steady ph) : (s.applyFlr p fn).Steady ph := by
  unfold State.applyFlr
  exact (Steady.ite h.discard.killQueues.modPort.endSpdm h.discard.killQueues.modPort).clearBar4.dropAtc

theorem Steady.execPerst {p : Port} {asserted : Bool} (h : s.Steady ph) : NextHolds (Steady ph) (execPerst p asserted s) :=
  .ite (.next h.order) (.next h.modPort)

theorem Steady.execHotReset {p : Port} (h : s.Steady ph) : NextHolds (Steady ph) (execHotReset p s) :=
  .ite (.next h.order) (.next h)

theorem Steady.execFunctionLevelReset {p : Port} {fn : Fin 64} (h : s.Steady ph) :
    NextHolds (Steady ph) (execFunctionLevelReset p fn s) :=
  .ite (.next h.order) (.next h)

/-! ### Machine/Power -/

theorem Steady.give {gid : Nat} (h : s.Steady ph) : (s.give gid).Steady ph := Steady.count (h.same rfl)

theorem Steady.servePool {pool : Nat} {media : Bool} {gs : List Grant} (h : s.Steady ph) :
    (State.servePool pool media s gs).2.Steady ph := by
  induction gs generalizing s with
  | nil => exact h
  | cons g gs ih =>
    unfold State.servePool
    split
    · exact ih h.give
    · exact h

theorem Steady.limitActive (h : s.Steady ph) : s.limitActive.Steady ph := .ite h.setObj.raiseEvent h

theorem Steady.govern (h : s.Steady ph) : s.govern.2.Steady ph := by
  unfold State.govern
  extract_lets _ s1
  have h1 : s1.Steady ph := h.same rfl
  exact (Steady.ite h1.servePool.servePool.count h1.servePool.servePool.count.limitActive).same rfl

theorem Steady.programmed {u : ProgUse} {cid : Option Nat} (h : s.Steady ph) : (s.programmed u cid).Steady ph := by
  unfold State.programmed
  split
  · exact h.rewriteDurable
  · exact h.endBuild
  · exact h.endCopy
  · split
    · exact h.endFlush
    · exact h
  · exact h
  · exact h

theorem Steady.blockDone {u : SysUse} {cid : Option Nat} (h : s.Steady ph) : (s.blockDone u cid).Steady ph := by
  unfold State.blockDone
  split
  · exact h
  · split
    · exact h.recordsProgrammed
    · split
      · exact h.endBuild
      · exact h.rewriteDurable
    · exact h.rewriteDurable
    · exact h
    · exact h
    · exact h

theorem Steady.execGrantRelease {gid : Nat} (h : s.Steady ph) : NextHolds (Steady ph) (execGrantRelease gid s) := by
  unfold Machine.execGrantRelease
  dsimp only
  split
  · exact .next h
  · split
    · split
      · exact .next (Steady.ite h.programJournal h).endGrant.endFlush
      · exact .next (Steady.ite h.programJournal h).endGrant
    · exact .next (Steady.ite h.program h).endGrant.programmed
    · exact .next h.eraseTiles.endGrant
    · exact .next h.putBlock.endGrant.blockDone
    · exact .next h.eraseBlock.endGrant
    · exact .next h

theorem Steady.execPwrLimitActiveClear (h : s.Steady ph) : NextHolds (Steady ph) (execPwrLimitActiveClear s) :=
  .ite (.next h.setObj) (.next h)

theorem Steady.engageGuard (h : s.Steady ph) : s.engageGuard.Steady ph :=
  .ite h (Steady.limitActive (Steady.count (h.same rfl)))

theorem Steady.execGuard {sample : BitVec 16} (h : s.Steady ph) : NextHolds (Steady ph) (execGuard sample s) := by
  unfold Machine.execGuard
  extract_lets _ _ s1 mw _ s2
  have h1 : s1.Steady ph := h.same rfl
  have h2 : s2.Steady ph := Steady.setObj (h1.same rfl)
  exact .ite (.next h) (.ite (.next h2.engageGuard) (.ite (.next (h2.same rfl)) (.next h2)))

theorem Steady.execThermalSample {readings : List Int} (h : s.Steady ph) : NextHolds (Steady ph) (execThermalSample readings s) :=
  .ite (.next (h.same rfl)) (.next h)

theorem Steady.thermalRise (h : s.Steady ph) : s.thermalRise.Steady ph := by
  unfold State.thermalRise
  split
  · exact h
  · extract_lets a _ s1 s2 s3
    have h1 : s1.Steady ph := h.same rfl
    have h2 : s2.Steady ph := h1.foldl fun _ h => h.count
    have h3 : s3.Steady ph := .ite h2.engageGuard h2
    exact .ite h1 (.ite h3.raiseFatal h3.raiseEvent)

theorem Steady.execThermalStepFall (h : s.Steady ph) : NextHolds (Steady ph) (execThermalStepFall s) := by
  unfold Machine.execThermalStepFall
  dsimp only
  split
  · exact .next h
  · exact .ite (.next (h.same rfl)) (.next h)

theorem Steady.execColdPowerOn (h : s.Steady ph) : NextHolds State.Inv (execColdPowerOn s) := by
  unfold Machine.execColdPowerOn
  split
  · next hoff =>
    extract_lets _ _ s1
    have h1 : s1.Steady ph := h.same rfl
    exact .ite (.next (h1.enter fun _ => h.counter_of_resting (by rw [hoff]; rfl)).inv) (.next h1.startBoot.inv)
  · exact .next h.inv

theorem Steady.execInputLoss (h : s.Steady ph) : NextHolds State.Inv (execInputLoss s) := by
  unfold Machine.execInputLoss
  split
  · next hoff => exact .next (h.enter fun _ => h.counter_of_resting (by rw [hoff]; rfl)).inv
  · exact .next h.inv
  · exact .next h.powerDown.inv

theorem Steady.execInrushRestart (h : s.Steady ph) : NextHolds State.Inv (execInrushRestart s) := by
  unfold Machine.execInrushRestart
  split
  · next hwait =>
    exact .ite (.next (h.enter fun _ => h.counter_of_resting (by rw [hwait]; rfl)).inv) (.next h.inv)
  · exact .next h.inv

theorem Steady.execOvervoltage (h : s.Steady ph) : NextHolds State.Inv (execOvervoltage s) := by
  unfold Machine.execOvervoltage
  split
  · exact .next h.inv
  · exact .next h.inv
  · exact .next h.powerDown.inv

theorem Steady.execLowInput (h : s.Steady ph) : NextHolds (Steady ph) (execLowInput s) := .ite (.next h.count) (.next h)

theorem Steady.execRailFault {rail : Fin 12} (h : s.Steady ph) : NextHolds State.Inv (execRailFault rail s) := by
  unfold Machine.execRailFault
  split
  · exact .next h.inv
  · exact .next h.inv
  · extract_lets r _ s1
    have h1 : s1.Steady ph := h.same rfl
    exact .ite (.next h1.raiseEvent.powerDown.inv) (.ite (.next h1.raiseFatal.inv) (.next h1.inv))

/-! ### Machine/Boot -/

theorem Steady.enterRecovery {cause : Nat} (h : s.Steady ph) : (s.enterRecovery cause).Steady ph := h.setObj.setObj.upd

theorem Steady.nextStage (h : s.Steady ph) : s.nextStage.Steady ph := h.setObj.upd

theorem Steady.readFingerprint {errors : Nat} (h : s.Steady ph) : (s.readFingerprint errors).Steady ph :=
  .ite h.setObj.nextStage h.upd.nextStage

theorem Steady.checkImage (h : s.Steady ph) : s.checkImage.Steady ph := by
  unfold State.checkImage
  dsimp only
  split
  · exact h.enterRecovery
  · split
    · exact h.upd.nextStage
    · exact h.enterRecovery
    · exact h.enterRecovery
    · exact h.enterRecovery

theorem Steady.bringUp {failed : List Nat} (h : s.Steady ph) : (s.bringUp failed).Steady ph :=
  (h.upd.foldl (fun _ h1 => Steady.ite h1.takeOut h1)).refreshBuffer

theorem Steady.applyCapacitance {measured : Nat} (h : s.Steady ph) : (s.applyCapacitance measured).Steady ph := by
  unfold State.applyCapacitance
  extract_lets s1 c r
  have h1 : s1.Steady ph := .ite h.setObj h
  exact .ite (Steady.refreshBuffer (h1.putUnit.same rfl))
    (.ite h1.putUnit.refreshBuffer.raiseEvent.raiseFatal h1.putUnit.refreshBuffer.raiseEvent)

theorem Steady.undo {kept : List JRec} {r : JRec} (h : s.Steady ph) : (s.undo kept r).Steady ph := by
  unfold State.undo
  dsimp only
  split
  · split
    · exact (Steady.ite h.modColl h).modColl
    · split
      · exact (Steady.ite h.modColl h).modColl
      · split
        · exact (Steady.ite h.modColl h).modColl.modColl
        · exact (Steady.ite h.modColl h).modColl
  · split
    · split
      · exact .ite (Steady.ite h.modColl h).setPass (.ite h.modColl h)
      · exact .ite h.modColl h
    · exact .ite h.modColl h

theorem Steady.restoreDump {pagesLost : List Nat} {headerLost : Bool} (h : s.Steady ph) :
    (s.restoreDump pagesLost headerLost).Steady ph := by
  unfold State.restoreDump
  dsimp only
  split
  · exact h.same rfl
  · refine Steady.putRecords (Steady.foldl (Steady.foldl ?_ fun _ h1 => h1.undo) fun _ h1 => h1.foldl fun _ h2 => h2.programJournal)
    exact (Steady.ite h h.count.raiseEvent).same rfl

theorem Steady.readJournal (h : s.Steady ph) : s.readJournal.Steady ph := h.upd.foldl (fun _ h1 => h1.undo)

theorem Steady.rebuildTables (h : s.Steady ph) : s.rebuildTables.Steady ph :=
  (h.readJournal.foldl (fun _ h1 => h1.foldl (fun _ h2 => h2.releaseEntry))).upd

theorem Steady.reportReady (h : s.Steady ph) : s.reportReady.Steady ph := h.setObj.setObj.upd

theorem Steady.replayConfig {identityLost : Bool} (h : s.Steady ph) : (s.replayConfig identityLost).Steady ph :=
  .ite h.clearDict.upd.reportReady.raiseEvent.raiseFatal
    (Steady.ite h.cfgReplay.upd.setObj.raiseEvent h.cfgReplay.upd.setObj).nextStage

theorem Steady.loadColls (h : s.Steady ph) : s.loadColls.Steady ph :=
  (h.foldl (fun _ h1 => h1.pinEntrySet)).foldl (fun _ h1 => Steady.ite h1 h1.modColl)

theorem Steady.takeManager (h : s.Steady ph) : s.takeManager.Steady ph := .ite h.upd h

theorem Steady.ready (h : s.Steady ph) : s.ready.Steady ph := by
  unfold State.ready
  dsimp only
  split
  · exact h.nextStage.upd.reportReady.setLocks.takeManager.resumePass
  · exact h.nextStage.upd.reportReady.setLocks.takeManager

theorem Steady.tryReady (h : s.Steady ph) : s.tryReady.Steady ph := .ite h (.ite h.ready.raiseEvent h.ready)

theorem Steady.execBootStage {result : StageResult} {data : StageData} (h : s.Steady ph) :
    NextHolds (Steady ph) (execBootStage result data s) := by
  unfold Machine.execBootStage
  dsimp only
  split
  · exact .next h
  · split
    · exact .ite (.next h.enterRecovery) (.next h)
    · exact .ite (.next h.raiseFatal) (.next h)
    · exact .ite (.next h.upd.nextStage) (.ite (.next h.replayConfig) (.next h))
    · split
      · exact .next h
      · split
        · exact .next h.readFingerprint
        · exact .ite (.next h.enterRecovery) (.next h.nextStage)
        · exact .next h.checkImage
        · exact .next h.upd.nextStage
        · exact .next h.bringUp.nextStage
        · exact .next h.applyCapacitance.nextStage
        · exact .next h.restoreDump.nextStage
        · exact .next h.replayConfig
        · exact .next h.rebuildTables.nextStage
        · exact .next h.loadColls.nextStage
        · exact .next h.tryReady
        · exact .next h

theorem Steady.execManagementStartTimeout (h : s.Steady ph) : NextHolds (Steady ph) (execManagementStartTimeout s) :=
  .ite (.next h.enterRecovery) (.next h)

theorem Steady.execFullIndexAvailability (h : s.Steady ph) : NextHolds (Steady ph) (execFullIndexAvailability s) :=
  .ite (.next h.upd.setObj) (.next h)

theorem Steady.execTickSyncWaitLimit (h : s.Steady ph) : NextHolds (Steady ph) (execTickSyncWaitLimit s) :=
  .ite (.next h.tryReady) (.next h)

/-! ### Machine/Beadline -/

theorem Steady.hear {fr : BdlFrame} (h : s.Steady ph) : (s.hear fr).2.Steady ph := by
  unfold State.hear
  split
  · exact h
  · split
    · exact h.count
    · split
      · exact h.count
      · split
        · exact h.count
        · exact h.count

theorem Steady.forward {fr : BdlFrame} {payload : Bytes} (h : s.Steady ph) : (s.forward fr payload).Steady ph :=
  .ite h (.ite h.count h.upd)

theorem Steady.passOn {fr : BdlFrame} (h : s.Steady ph) : (s.passOn fr).Steady ph := .ite h.forward h

theorem Steady.markSeen {fr : BdlFrame} (h : s.Steady ph) : (s.markSeen fr).Steady ph := h.upd

theorem Steady.originate {type dest : Nat} {payload : Bytes} {down up : Bool} (h : s.Steady ph) :
    (s.originate type dest payload down up).Steady ph :=
  .ite h h.upd.count

theorem Steady.send {type dest : Nat} {payload : Bytes} (h : s.Steady ph) : (s.send type dest payload).Steady ph :=
  .ite h.originate h.originate

theorem Steady.queueOn {type dest : Nat} {payload : Bytes} {down up : Bool} (h : s.Steady ph) :
    (s.queueOn type dest payload down up).Steady ph :=
  h.upd

theorem Steady.sendWaiting (h : s.Steady ph) : s.sendWaiting.Steady ph := by
  unfold State.sendWaiting
  dsimp only
  split
  · exact h.upd
  · exact .ite h.upd.count h.upd
  · exact h

theorem Steady.execFrameForward {fr : BdlFrame} (h : s.Steady ph) : NextHolds (Steady ph) (execFrameForward fr s) :=
  .ite (.next h.hear) (.ite (.next h.hear) (.next h.hear.forward))

theorem Steady.setLinks {up down : Bool} (h : s.Steady ph) : (s.setLinks up down).Steady ph :=
  .ite (.ite h.upd.count h.upd) (Steady.ite h.upd.count h.upd).raiseEvent

theorem Steady.execLinkUp {dir : BdlDir} (h : s.Steady ph) : NextHolds (Steady ph) (execLinkUp dir s) := by
  unfold Machine.execLinkUp
  split
  · split
    · exact .next h.setLinks
    · exact .next h.setLinks
  · exact .next h

theorem Steady.linkDown {dir : BdlDir} (h : s.Steady ph) : (s.linkDown dir).Steady ph := by
  unfold State.linkDown
  split
  · exact h.setLinks
  · exact h.setLinks

theorem Steady.execLinkDown {dir : BdlDir} (h : s.Steady ph) : NextHolds (Steady ph) (execLinkDown dir s) :=
  .ite (.next h.linkDown) (.next h)

theorem Steady.execSyncSend (h : s.Steady ph) : NextHolds (Steady ph) (execSyncSend s) :=
  .ite (.next (Steady.send (h.same rfl))) (.next h)

theorem Steady.tickSource {v : Nat} (h : s.Steady ph) : (s.tickSource v).Steady ph := h.setObj

theorem Steady.runFree (h : s.Steady ph) : s.runFree.Steady ph := Steady.raiseEvent (Steady.tickSource (h.same rfl))

theorem Steady.lockAt {offset : Int} (h : s.Steady ph) : (s.lockAt offset).Steady ph := Steady.tickSource (h.same rfl)

theorem Steady.stepTo {time offset : Int} (hon : ph.resting = false) (h : s.Steady ph) : (s.stepTo time offset).Steady ph := by
  obtain ⟨⟨hm, hd, hp, hch, -⟩, rfl⟩ := h
  exact Steady.lockAt ⟨⟨hm, hd, hp, hch, fun hr => by cases hon.symm.trans hr⟩, rfl⟩

theorem Steady.applySync {arrival offset : Int} (hon : ph.resting = false) (h : s.Steady ph) :
    (s.applySync arrival offset).Steady ph :=
  .ite h.setObj (.ite h.setObj.count (.ite (h.setObj.stepTo hon) (.ite h.setObj.runFree h.setObj.lockAt)))

theorem Steady.applySyncOrder {offset : Int} {interval : Nat} (hon : ph.resting = false) (h : s.Steady ph) :
    (s.applySyncOrder offset interval).Steady ph :=
  .ite h (Steady.applySync hon (h.same rfl))

theorem Steady.stationSync {fr : BdlFrame} {localNs residence : Nat} (h : s.Steady ph) :
    (s.stationSync fr localNs residence).Steady ph :=
  .ite h.forward h.forward.markSeen.order

theorem Steady.managerSync {fr : BdlFrame} (h : s.Steady ph) : (s.managerSync fr).Steady ph := h.upd

theorem Steady.applyRivalTag {tag : Nat} (h : s.Steady ph) : (s.applyRivalTag tag).Steady ph := .ite h.upd.count.raiseEvent h

theorem Steady.execSyncFrame {fr : BdlFrame} {localNs residence : Nat} (h : s.Steady ph) :
    NextHolds (Steady ph) (execSyncFrame fr localNs residence s) :=
  .ite (.next h) (.ite (.next h.hear) (.ite (.next h.hear.managerSync) (.next h.hear.stationSync)))

theorem Steady.execSyncLoss (h : s.Steady ph) : NextHolds (Steady ph) (execSyncLoss s) :=
  .ite (.next (Steady.raiseEvent (Steady.tickSource (h.same rfl)))) (.next h)

theorem Steady.execDelayMeasurement {dir : BdlDir} {sentNs : Nat} (h : s.Steady ph) :
    NextHolds (Steady ph) (execDelayMeasurement dir sentNs s) := by
  unfold Machine.execDelayMeasurement
  extract_lets every q t s1
  have h1 : s1.Steady ph := h.originate
  refine .ite ?_ (.next h)
  split
  · exact .next h1.upd
  · exact .next h1.upd

theorem Steady.execDelayReq {fr : BdlFrame} {turnaround : BitVec 32} (h : s.Steady ph) :
    NextHolds (Steady ph) (execDelayReq fr turnaround s) :=
  .ite (.next h) (.ite (.next h.hear) (.ite (.next h.hear.originate) (.next h.hear.queueOn)))

theorem Steady.execDelayResp {fr : BdlFrame} {recvNs : Nat} (h : s.Steady ph) :
    NextHolds (Steady ph) (execDelayResp fr recvNs s) := by
  unfold Machine.execDelayResp
  dsimp only
  split
  · exact .next h
  · split
    · exact .next h.hear
    · exact .ite (.next h.hear) (.ite (.next (Steady.linkDown (by split; exacts [h.hear.upd, h.hear.upd])))
        (.next (by split; exacts [h.hear.upd, h.hear.upd])))

theorem Steady.answer {stamp : Tick} {index sub status arg offset : Nat} {data : Bytes} (h : s.Steady ph) :
    (s.answer stamp index sub status arg offset data).Steady ph :=
  h.upd

theorem Steady.takeOd {fr : BdlFrame} (h : s.Steady ph) : (s.takeOd fr).2.Steady ph := by
  unfold State.takeOd
  dsimp only
  split
  · exact h.hear
  · split
    · exact h.hear.count
    · split
      · exact h.hear.passOn.markSeen
      · exact h.hear.passOn

theorem Steady.badSegment {r : OdReq} (h : s.Steady ph) : (s.badSegment r).Steady ph := h.upd

theorem Steady.execOdRead {fr : BdlFrame} (h : s.Steady ph) : NextHolds (Steady ph) (execOdRead fr s) := by
  unfold Machine.execOdRead
  dsimp only
  split
  · exact .next h
  · split
    · exact .next h.takeOd
    · split
      · exact .next h.takeOd.badSegment
      · split
        · exact .ite (.next h.takeOd.badSegment) (.next h.takeOd.upd.order)
        · split
          · exact .next h.takeOd.badSegment
          · exact .ite (.next h.takeOd.upd.answer) (.next h.takeOd.badSegment)

theorem Steady.applyOdRead {index sub arg count : Nat} (h : s.Steady ph) : (s.applyOdRead index sub arg count).Steady ph := by
  unfold State.applyOdRead
  dsimp only
  split
  · exact h.answer
  · exact .ite h.answer h.upd.answer

theorem Steady.execOdWrite {fr : BdlFrame} (h : s.Steady ph) : NextHolds (Steady ph) (execOdWrite fr s) := by
  unfold Machine.execOdWrite
  dsimp only
  split
  · exact .next h
  · split
    · exact .next h.takeOd
    · split
      · exact .next h.takeOd.badSegment
      · split
        · exact .next h.takeOd.badSegment
        · exact .ite (.next h.takeOd.upd.order) (.next h.takeOd.upd.answer)

theorem Steady.execOdTransferTimeout (h : s.Steady ph) : NextHolds (Steady ph) (execOdTransferTimeout s) := by
  unfold Machine.execOdTransferTimeout
  dsimp only
  split
  · exact .ite (.next h.upd) (.next h)
  · exact .next h

theorem Steady.noteOrigin (h : s.Steady ph) : s.noteOrigin.Steady ph := h.upd

theorem Steady.execEventQueueSend (h : s.Steady ph) : NextHolds (Steady ph) (execEventQueueSend s) := by
  unfold Machine.execEventQueueSend
  dsimp only
  split
  · exact .next h
  · exact .ite (.next h.upd.send.noteOrigin) (.next h)

theorem Steady.execReport {row : Fin 8} (h : s.Steady ph) : NextHolds (Steady ph) (execReport row s) :=
  .ite (.next h.upd.queueEvent) (.next h)

theorem Steady.sendAssign (h : s.Steady ph) : s.sendAssign.Steady ph := .ite h.upd h.send.upd

theorem Steady.assignMore (h : s.Steady ph) : s.assignMore.Steady ph := by
  unfold State.assignMore
  dsimp only
  split
  · exact .ite h.upd.sendAssign h
  · exact h

theorem Steady.execHeartbeatSend (h : s.Steady ph) : NextHolds (Steady ph) (execHeartbeatSend s) :=
  .ite (.ite (.next h.upd.send.noteOrigin.sendAssign) (.next h.upd.send.noteOrigin)) (.next h)

theorem Steady.execHeartbeat {fr : BdlFrame} (h : s.Steady ph) : NextHolds (Steady ph) (execHeartbeat fr s) :=
  .ite (.next h) (.ite (.next h.hear) (.ite (.next h.hear.passOn.markSeen.order) (.next h.hear.passOn)))

theorem Steady.applyManagerSeen (h : s.Steady ph) : s.applyManagerSeen.Steady ph := h.upd

theorem Steady.execManagerHeartbeatLoss (h : s.Steady ph) : NextHolds (Steady ph) (execManagerHeartbeatLoss s) :=
  .ite (.next h.upd.raiseEvent) (.next h)

theorem Steady.takeCtrl {fr : BdlFrame} {op : Nat} (h : s.Steady ph) : (s.takeCtrl fr op).2.Steady ph := by
  unfold State.takeCtrl
  dsimp only
  split
  · exact h
  · split
    · exact h.hear
    · split
      · exact h.hear.passOn
      · split
        · exact (Steady.ite h.hear h.hear.passOn).markSeen
        · exact .ite h.hear h.hear.passOn

theorem Steady.execAssign {fr : BdlFrame} (h : s.Steady ph) : NextHolds (Steady ph) (execAssign fr s) :=
  .ite (.ite (.next h.takeCtrl.upd) (.next h.takeCtrl)) (.ite (.next h.takeCtrl.order) (.next h.takeCtrl))

theorem Steady.execRelease {fr : BdlFrame} (h : s.Steady ph) : NextHolds (Steady ph) (execRelease fr s) :=
  .ite (.next h.takeCtrl.order) (.next h.takeCtrl)

theorem Steady.execStart {fr : BdlFrame} (h : s.Steady ph) : NextHolds (Steady ph) (execStart fr s) :=
  .ite (.next h.takeCtrl.order) (.next h.takeCtrl)

theorem Steady.execStop {fr : BdlFrame} (h : s.Steady ph) : NextHolds (Steady ph) (execStop fr s) :=
  .ite (.next h.takeCtrl.order) (.next h.takeCtrl)

theorem Steady.applyNodeCtrl {op id : Nat} (h : s.Steady ph) : (s.applyNodeCtrl op id).Steady ph := by
  unfold State.applyNodeCtrl
  dsimp only
  split
  · exact .ite h.upd.raiseEvent h
  · exact .ite h.upd.raiseEvent h
  · exact .ite h.upd h
  · exact .ite h.upd.count h
  · exact h

theorem Steady.execReset {fr : BdlFrame} (h : s.Steady ph) : NextHolds (Steady ph) (execReset fr s) :=
  .ite (.next h.takeCtrl.order) (.next h.takeCtrl)

/-! ### Machine/Firmware -/

theorem Steady.execFwLoad {cid : Nat} {inbuf : Bytes} (h : s.Steady ph) : NextHolds (Steady ph) (execFwLoad cid inbuf s) := by
  unfold Machine.execFwLoad
  dsimp only
  split
  · exact .next h
  · exact .next (Steady.ite h.upd h.upd.setObj).finish

theorem Steady.logUpdate {step : Nat} (h : s.Steady ph) : (s.logUpdate step).Steady ph := h.upd

theorem Steady.endCommit {c : Cmd} {commitState status dw7 : Nat} (h : s.Steady ph) :
    (s.endCommit c commitState status dw7).Steady ph :=
  (Steady.setObj (by split; exacts [h.endGrant, h])).finish

theorem Steady.askBoot {c : Cmd} (h : s.Steady ph) : (s.askBoot c).Steady ph := Steady.askGrant (by split; exacts [h.endGrant, h])

theorem Steady.execFwCommit {cid : Nat} {programFails : Bool} (h : s.Steady ph) :
    NextHolds (Steady ph) (execFwCommit cid programFails s) := by
  unfold Machine.execFwCommit
  dsimp only
  split
  · exact .next h
  · split
    · exact .ite (.next h) (.ite (.next h.finish) (.next h.logUpdate.setObj.modCmd.askBoot))
    · exact .ite (.next h) (.ite (.next h.endCommit) (.next h.logUpdate.upd.modCmd.askBoot))
    · exact .ite (.next h) (.ite (.next h.endCommit) (.next h.logUpdate.logUpdate.logUpdate.upd.countNand.endCommit))
    · exact .next h

/-! ### Machine/Links -/

theorem Steady.execLinkTraining {p : Port} {info : LinkInfo} (h : s.Steady ph) :
    NextHolds (Steady ph) (execLinkTraining p info s) :=
  .ite (.next h) (.next h.modPort)

theorem Steady.execVfEnable {p : Port} {count : Fin 64} (h : s.Steady ph) : NextHolds (Steady ph) (execVfEnable p count s) :=
  .ite (.next h) (.next (h.foldl (fun _ h1 => h1.killQueues.clearBar4)).modPort)

theorem Steady.setSpdm {p : Port} {x : Spdm} (h : s.Steady ph) : (s.setSpdm p x).Steady ph := by
  unfold State.setSpdm
  dsimp only
  split
  · exact h.upd
  · exact h.upd

theorem Steady.spdmAnswer {p : Port} {need next : Nat} {reply : SpdmReply} (h : s.Steady ph) :
    (s.spdmAnswer p need next reply).Steady ph :=
  .ite h (.ite h.setSpdm h.setSpdm)

theorem Steady.execDoeDiscovery {p : Port} {index : BitVec 8} (h : s.Steady ph) :
    NextHolds (Steady ph) (execDoeDiscovery p index s) :=
  .ite (.next h) (.next h.setSpdm)

theorem Steady.execGetVersion {p : Port} (h : s.Steady ph) : NextHolds (Steady ph) (execGetVersion p s) := .next h.spdmAnswer

theorem Steady.execGetCapabilities {p : Port} (h : s.Steady ph) : NextHolds (Steady ph) (execGetCapabilities p s) :=
  .next h.spdmAnswer

theorem Steady.execNegotiateAlgorithms {p : Port} {asym hash : BitVec 32} (h : s.Steady ph) :
    NextHolds (Steady ph) (execNegotiateAlgorithms p asym hash s) :=
  .ite (.next h.spdmAnswer.setSpdm) (.next h.spdmAnswer)

theorem Steady.execGetDigests {p : Port} (h : s.Steady ph) : NextHolds (Steady ph) (execGetDigests p s) := .next h.spdmAnswer

theorem Steady.execGetCertificate {p : Port} {slot : Fin 8} {offset len : Nat} (h : s.Steady ph) :
    NextHolds (Steady ph) (execGetCertificate p slot offset len s) :=
  .ite (.next h.spdmAnswer) (.next h.spdmAnswer)

theorem Steady.execChallenge {p : Port} {slot : Fin 8} {nonce : Bytes} (h : s.Steady ph) :
    NextHolds (Steady ph) (execChallenge p slot nonce s) :=
  .ite (.next h.spdmAnswer) (.next h.spdmAnswer)

theorem Steady.execGetMeasurements {p : Port} {index : BitVec 8} {nonce : Bytes} (h : s.Steady ph) :
    NextHolds (Steady ph) (execGetMeasurements p index nonce s) :=
  .ite (.next h.order) (.next h)

theorem Steady.applyMeasure {p : Port} {index : Nat} {nonce : Bytes} (h : s.Steady ph) :
    (s.applyMeasure p index nonce).Steady ph :=
  .ite h.spdmAnswer h.spdmAnswer

theorem Steady.execIdcode (h : s.Steady ph) : NextHolds (Steady ph) (execIdcode s) := .ite (.next h.upd) (.next h)

theorem Steady.execDebugAccess (h : s.Steady ph) : NextHolds (Steady ph) (execDebugAccess s) :=
  .ite (.next h) (.ite (.refused) (.next h.upd))

theorem Steady.execTestLogicReset {dbgSel : Bool} (h : s.Steady ph) : NextHolds (Steady ph) (execTestLogicReset dbgSel s) :=
  .ite (.next h.upd) (.next h)

theorem Steady.execPowerStateEntry (h : s.Steady ph) : NextHolds (Steady ph) (execPowerStateEntry s) := by
  unfold Machine.execPowerStateEntry
  dsimp only
  split
  · exact .next h
  · refine .ite (.next (Steady.count ?_)) (.next h)
    split
    · exact h.keepMem.same rfl
    · exact h.same rfl

theorem Steady.endExit (h : s.Steady ph) : s.endExit.Steady ph := by
  unfold State.endExit
  split
  · exact .ite h.upd h
  · exact h

theorem Steady.execPowerStateExit (h : s.Steady ph) : NextHolds (Steady ph) (execPowerStateExit s) :=
  .ite (.next h.endExit) (.ite (.next h.upd) (.next h))

/-! ### Machine/Orders -/

theorem Steady.settle {o : Order} {st dw7 : Nat} (h : s.Steady ph) : (s.settle o st dw7).Steady ph := by
  unfold State.settle
  dsimp only
  split
  · exact h.answer
  · exact h.winDone
  · exact h.recordBar
  · split
    · exact .ite h.modCmd.ccount h.modCmd
    · exact h.modCmd
  · split
    · exact h.finish
    · exact h
  · exact h

theorem Steady.applyOdWrite {index sub arg offset : Nat} {data : Bytes} (h : s.Steady ph) :
    (s.applyOdWrite index sub arg offset data).Steady ph :=
  (Steady.ite h.applyWrite h).answer

theorem Steady.applyBar {p : Port} {off size v : Nat} (h : s.Steady ph) : (s.applyBar p off size v).Steady ph :=
  (Steady.ite h.effectBar h).recordBar

theorem Steady.applyEffect {cid place : Nat} (h : s.Steady ph) : (s.applyEffect cid place).Steady ph := by
  unfold State.applyEffect
  split
  · exact h
  · split
    · exact h.applyBuild
    · exact h.applyRehome
    · exact h.applyCreate
    · exact h.applyDrop
    · exact h.applyLoad
    · exact h.applyEvict
    · exact h.applyObjRead
    · exact h.applyObjWrite
    · exact h.applyMove
    · exact h.applyFlush
    · exact h.applyQueueCreate
    · exact h.applyQueueCut
    · exact h.applyQueueCut
    · exact h

theorem Steady.applyOrder {o : Order} (hon : ph.resting = false) (h : s.Steady ph) : (s.applyOrder o).Steady ph := by
  unfold State.applyOrder
  split
  · exact h.applyOdWrite
  · exact h.applyOdRead
  · exact h.applyMeasure
  · exact h.applyBar
  · exact h.serveTck
  · exact h.winWrite
  · exact h.winRead
  · exact h.applySend
  · exact h.applyInHead
  · exact h.applyTail
  · exact h.applyHead
  · exact h.applyEffect
  · exact h.modCmd
  · exact h.takeOut
  · exact h.applyNodeCtrl
  · exact h.applyManagerSeen
  · exact Steady.applySyncOrder hon h
  · exact h.applyRivalTag
  · exact h

theorem Steady.takeOrders {s0 : State} {all : List Order} {won : List Target} {os : List Order} (hon : ph.resting = false)
    (h : s.Steady ph) : (State.takeOrders s0 all s won os).Steady ph := by
  induction os generalizing s won with
  | nil => exact h
  | cons o os ih =>
    unfold State.takeOrders
    split
    · exact ih h.commitDue.applyRehome
    · exact ih (h.applyOrder hon)
    · exact .ite (ih h.settle) (.ite (ih h.settle) (ih (h.applyOrder hon)))

theorem Steady.exchangeBanks (h : s.Steady ph) : s.exchangeBanks.Steady ph := .ite h.upd h

theorem Steady.execBankExchange (h : s.Steady ph) : NextHolds (Steady ph) (execBankExchange s) := .next h.exchangeBanks

theorem Steady.phaseTwo (hon : ph.resting = false) (h : s.Steady ph) : s.phaseTwo.Steady ph := by
  unfold State.phaseTwo
  extract_lets all s1 reads writes outer inner s2 s3 s4 s5
  have h2 : s2.Steady ph := Steady.takeOrders hon h.upd
  have h3 : s3.Steady ph := .ite h2 h2.commitDue
  have h4 : s4.Steady ph := (h3.foldl fun _ h => h.applyOrder hon).thermalRise
  have h5 : s5.Steady ph := .ite h4 h4.exchangeBanks
  exact h5.foldl fun _ h => h.applyOrder hon

theorem Steady.applyReset {o : Order} (h : s.Steady ph) : (s.applyReset o).Steady ph := by
  unfold State.applyReset
  split
  · exact h.applyPortReset
  · exact h.applyPerst
  · exact h.applyFlr
  · exact h

theorem Steady.phaseOne (h : s.Steady ph) : s.phaseOne.2.Inv ∧ (s.phaseOne.1 = true → s.phaseOne.2.Steady ph) := by
  unfold State.phaseOne
  dsimp only
  split
  · split
    · exact ⟨h.beginReset.inv, nofun⟩
    · exact ⟨h.powerDown.inv, nofun⟩
  · have hr := h.foldl (l := s.dueResets) fun (o : Order) h => h.applyReset (o := o)
    exact ⟨hr.upd.inv, fun _ => hr.upd⟩

/-! ### Machine/Issue -/

theorem Steady.sendRead {r : ReadReq} (h : s.Steady ph) : (s.sendRead r).Steady ph := by
  unfold State.sendRead
  dsimp only
  split
  · exact h.modSearch
  · exact h.modSearch
  · exact h.modSearch
  · exact h.modCmd
  · exact h.upd.useClass

theorem Steady.serve {i j : Issue} {p : Nat} (h : i.s.Steady ph) (e : i.serve p = some j) : j.s.Steady ph := by
  unfold Issue.serve at e
  dsimp only at e
  split at e
  · cases e
  · cases e; exact h.sendRead.upd

theorem Steady.guaranteed {i : Issue} {p quota : Nat} (h : i.s.Steady ph) : (Issue.guaranteed p quota i).s.Steady ph := by
  induction quota generalizing i with
  | zero => exact h
  | succ quota ih =>
    unfold Issue.guaranteed
    split
    · exact h
    · next e => exact ih (h.serve e)

theorem Steady.bestEffort {i : Issue} {slot fuel : Nat} (h : i.s.Steady ph) : (Issue.bestEffort slot fuel i).s.Steady ph := by
  induction fuel generalizing i with
  | zero => exact h
  | succ fuel ih =>
    unfold Issue.bestEffort
    dsimp only
    split
    · exact h
    · split
      · exact h
      · next e => exact ih (h.serve e).upd

theorem Steady.issueReads (h : s.Steady ph) : s.issueReads.2.Steady ph := by
  unfold State.issueReads
  dsimp only
  refine Steady.same (Steady.bestEffort (List.foldlRecOn (motive := fun i : Issue => i.s.Steady ph) _ _ h fun i hi p _ => ?_)) rfl
  split
  · exact hi
  · exact hi.guaranteed

theorem Steady.chargeWaits {cids : List Nat} (h : s.Steady ph) : (s.chargeWaits cids).Steady ph :=
  h.foldl (fun _ h1 => h1.waitTick)

/-! ### Machine/Tick -/

theorem Steady.completeEnded (h : s.Steady ph) : s.completeEnded.Steady ph :=
  h.foldl (fun _ h1 => by split; exacts [Steady.ite h1.finish h1, h1])

theorem Steady.autoCarry (h : s.Steady ph) : s.autoCarry.Steady ph := h.foldl (fun _ h1 => Steady.ite h1.requestPass h1)

theorem Steady.endIdlePass (h : s.Steady ph) : s.endIdlePass.Steady ph := by
  unfold State.endIdlePass
  split
  · exact .ite h.endPass h
  · exact h

theorem Steady.writeResults (h : s.Steady ph) : s.writeResults.Steady ph :=
  h.foldl (fun _ h1 => by split; exacts [Steady.ite h1.finishResult h1, h1])

theorem Steady.fetchTimers (h : s.Steady ph) : s.fetchTimers.Steady ph := h.foldl (fun _ h1 => h1.faultCmd)

theorem Steady.admitAll (h : s.Steady ph) : s.admitAll.Steady ph := h.foldl (fun _ h1 => h1.admitList)

theorem Steady.searchTimers (h : s.Steady ph) : s.searchTimers.Steady ph :=
  h.foldl (fun _ h1 => ((h1.run (·.execCutTick)).run (·.execRescoringCut)).run (·.execReplyDeadline))

theorem Steady.endNops (h : s.Steady ph) : s.endNops.Steady ph :=
  h.foldl (fun _ h1 => (h1.run (·.execNop)).run (·.execNopWaitEnd))

theorem Steady.lostSegments (h : s.Steady ph) : s.lostSegments.Steady ph :=
  h.foldl (fun _ h1 => h1.foldl (fun _ h2 => Steady.ite (h2.stopStream.foldl (fun _ h3 => h3.faultCmd)).wake h2))

theorem Steady.pageTimers (h : s.Steady ph) : s.pageTimers.Steady ph :=
  (h.foldl (fun _ h1 => h1.foldl (fun _ h2 => h2.streamPageTimeout))).foldl (fun _ h1 => h1.bufferPageTimeout)

theorem Steady.askRestores (h : s.Steady ph) : s.askRestores.Steady ph :=
  h.foldl (fun _ h1 => by split; exacts [Steady.ite h1.askGrant h1, h1])

theorem Steady.frameTicks (h : s.Steady ph) : s.frameTicks.Steady ph :=
  ((h.foldl (fun _ h1 => by split; exacts [Steady.ite h1.stall h1, h1])).foldl (fun _ h1 => Steady.ite h1.count h1)).count

theorem Steady.frameWork (h : s.Steady ph) : s.frameWork.Steady ph :=
  ((h.startCopies.retryLoads.foldl (fun _ h1 => Steady.ite h1 h1.maybeSelect)).lostSegments.pageTimers.askRestores.foldl
    (fun _ h1 => h1.fillFrame)).frameTicks

theorem Steady.releaseAll (h : s.Steady ph) : s.releaseAll.Steady ph :=
  h.foldl (fun _ h1 => Steady.dite (fun _ => (h1.run (·.execItemRelease)).run (·.execTileRelease)) (fun _ => h1))

theorem Steady.holdQueues (h : s.Steady ph) : s.holdQueues.Steady ph :=
  h.foldl (fun _ h1 => by split; exacts [Steady.ite (h1.noteHold.run (·.execCqStall)) h1.modSq, h1])

theorem Steady.beadlineWork (h : s.Steady ph) : s.beadlineWork.Steady ph :=
  (((((((h.run (·.execSyncLoss)).run (·.execSyncSend)).run (·.execOdTransferTimeout)).foldl
    (fun _ h1 => h1.run (·.execReport))).run (·.execHeartbeatSend)).run (·.execEventQueueSend)).run
      (·.execManagerHeartbeatLoss)).sendWaiting.assignMore

theorem Steady.powerWork (h : s.Steady ph) : s.powerWork.Steady ph :=
  ((h.run (·.execPwrLimitActiveClear)).run (·.execThermalStepFall)).askRecords.dropRecords

theorem Steady.noteIdle (h : s.Steady ph) : s.noteIdle.Steady ph := h.upd.endExit

theorem Steady.endTick (h : s.Steady ph) : s.endTick.Steady ph := by
  unfold State.endTick
  extract_lets s1 s2 s3 s4 s5 s6 held
  have h3 : s3.Steady ph := (h.commitDue.completeEnded.autoCarry.endIdlePass.run (·.execBankExchange)).run
    (·.execTickSyncWaitLimit)
  have h6 : s6.Steady ph :=
    h3.writeResults.admitAll.searchTimers.fetchTimers.endNops.frameWork.releaseAll.holdQueues
  clear_value s6
  split
  · next e =>
    extract_lets s7 _ s8 s9 s10
    have h7 : s7.Steady ph := (Steady.of_snd e h6.issueReads).chargeWaits
    have h9 : s9.Steady ph := (Steady.upd h7 : s8.Steady ph).beadlineWork.powerWork
    clear_value s9
    exact (Steady.upd h9 : s10.Steady ph).noteIdle.sendMsix.pruneLog

theorem Steady.advance (hon : ph.resting = false) (h : s.Steady ph) : s.advance.Steady ph := by
  obtain ⟨⟨hm, hd, -, hch, -⟩, rfl⟩ := h
  obtain ⟨hperiod, hchips⟩ := s.clk.advance_frame
  unfold State.advance
  extract_lets _ c done s1
  have h1 : s1.Steady s.pwr.phase :=
    ⟨⟨hm, hd, hperiod, (congrArg List.length hchips).trans hch, fun hr => by cases hon.symm.trans hr⟩, rfl⟩
  exact .ite h1.tickSource h1

theorem Steady.silentChips (h : s.Steady ph) : s.silentChips.Steady ph := h.foldl (fun _ h1 => Steady.ite h1.internal h1)

theorem Steady.modChip {chip : Nat} {f : ChipClock → ChipClock} (h : s.Steady ph) : (s.modChip chip f).Steady ph := by
  obtain ⟨⟨hm, hd, hp, hch, hrest⟩, hph⟩ := h
  exact ⟨⟨hm, hd, hp, by simpa only [State.modChip, List.length_map, List.length_zipIdx] using hch, hrest⟩, hph⟩

theorem Steady.measureSkew (h : s.Steady ph) : s.measureSkew.Steady ph := h.same rfl

theorem Steady.execTickSymbol {chip : Fin 8} {low : BitVec 12} {full : Option (BitVec 64)} (h : s.Steady ph) :
    NextHolds (Steady ph) (execTickSymbol chip low full s) := by
  unfold Machine.execTickSymbol
  dsimp only
  split
  · exact .ite (.next (Steady.ite h.modChip.measureSkew.count h.modChip.measureSkew)) (.next h)
  · exact .next h

theorem Steady.execTickSymbolTimeout {chip : Fin 8} (h : s.Steady ph) : NextHolds (Steady ph) (execTickSymbolTimeout chip s) := by
  unfold Machine.execTickSymbolTimeout
  split
  · exact .next h
  · exact .ite (.next h.modChip) (.next h)

theorem Steady.execAdmission {cid ix : Nat} (h : s.Steady ph) : NextHolds (Steady ph) (execAdmission cid ix s) := by
  unfold Machine.execAdmission
  dsimp only
  split
  · exact .next h
  · exact .ite (.next h.commitDue.admitList) (.next h)

/-! ### TICK, and every command -/

theorem Steady.tickOn (hon : ph.resting = false) (h : s.Steady ph) : s.tickOn.Inv := by
  have hone := (h.endTick.advance hon).phaseOne
  unfold State.tickOn
  split
  next goes t e =>
    rw [e] at hone
    obtain ⟨hinv, hsteady⟩ := hone
    split
    · next hgoes => exact ((hsteady hgoes).phaseTwo hon).govern.silentChips.inv
    · exact hinv

theorem Steady.tickOff (h : s.Steady ph) : s.tickOff.Inv := by
  unfold State.tickOff
  extract_lets _ s1
  have h1 : s1.Steady ph := h.same rfl
  split
  · split
    · exact h1.endDump
    · exact h1.inv
  · exact h1.inv

theorem up_phase (h : s.up = true) : s.pwr.phase = .on := by
  simp only [State.up, Bool.and_eq_true, decide_eq_true_eq] at h
  exact h.1

theorem Steady.execTick (h : s.Steady ph) : NextHolds State.Inv (execTick s) := by
  unfold Machine.execTick
  split
  · next hup =>
    obtain rfl : s.pwr.phase = ph := h.phase
    exact .next (h.tickOn (by rw [up_phase hup]; rfl))
  · exact .next h.tickOff

/-- Every command keeps the invariant: the rows that move the power phase by the counter being 0 in a resting one, every other
row in the phase it finds. -/
theorem Inv.exec (i : Instr) (h : s.Inv) : NextHolds State.Inv (exec i s) := by
  have hs : s.Steady s.pwr.phase := ⟨h, rfl⟩
  match i with
  | .tick => exact hs.execTick
  | .tickSymbol .. => exact hs.execTickSymbol.inv
  | .tickSymbolTimeout .. => exact hs.execTickSymbolTimeout.inv
  | .tickSyncWaitLimit => exact hs.execTickSyncWaitLimit.inv
  | .tickTableSwitch .. => exact hs.execTickTableSwitch.inv
  | .bankExchange => exact hs.execBankExchange.inv
  | .nop .. => exact hs.execNop.inv
  | .nopWaitEnd .. => exact hs.execNopWaitEnd.inv
  | .search .. => exact hs.execSearch.inv
  | .searchBatch .. => exact hs.execSearchBatch.inv
  | .encodeSearch .. => exact hs.execEncodeSearch.inv
  | .rerank .. => exact hs.execRerank.inv
  | .fetch .. => exact hs.execFetch.inv
  | .insert .. => exact hs.execInsert.inv
  | .upsert .. => exact hs.execUpsert.inv
  | .delete .. => exact hs.execDelete.inv
  | .stage .. => exact hs.execStage.inv
  | .commit .. => exact hs.execCommit.inv
  | .carry .. => exact hs.execCarry.inv
  | .passStart => exact hs.execPassStart.inv
  | .plan => exact hs.execPlan.inv
  | .segmentRewrite .. => exact hs.execSegmentRewrite.inv
  | .directorySwitch => exact hs.execDirectorySwitch.inv
  | .itemRelease .. => exact hs.execItemRelease.inv
  | .tileRelease .. => exact hs.execTileRelease.inv
  | .bulkBuild .. => exact hs.execBulkBuild.inv
  | .rehome .. => exact hs.execRehome.inv
  | .collectionCreate .. => exact hs.execCollectionCreate.inv
  | .collectionDrop .. => exact hs.execCollectionDrop.inv
  | .modelLoad .. => exact hs.execModelLoad.inv
  | .loadComplete .. => exact hs.execLoadComplete.inv
  | .modelEvict .. => exact hs.execModelEvict.inv
  | .run .. => exact hs.execRun.inv
  | .objRead .. => exact hs.execObjRead.inv
  | .objWrite .. => exact hs.execObjWrite.inv
  | .tierMove .. => exact hs.execTierMove.inv
  | .moveComplete .. => exact hs.execMoveComplete.inv
  | .flush .. => exact hs.execFlush.inv
  | .fwLoad .. => exact hs.execFwLoad.inv
  | .fwCommit .. => exact hs.execFwCommit.inv
  | .queueCreate .. => exact hs.execQueueCreate.inv
  | .queueDelete .. => exact hs.execQueueDelete.inv
  | .queueReset .. => exact hs.execQueueReset.inv
  | .sqTailDoorbell .. => exact hs.execSqTailDoorbell.inv
  | .cqHeadDoorbell .. => exact hs.execCqHeadDoorbell.inv
  | .entryFetch .. => exact hs.execEntryFetch.inv
  | .cqStall .. => exact hs.execCqStall.inv
  | .sqReadError .. => exact hs.execSqReadError.inv
  | .bufferReadError .. => exact hs.execBufferReadError.inv
  | .admission .. => exact hs.execAdmission.inv
  | .round .. => exact hs.execRound.inv
  | .expansionRequest .. => exact hs.execExpansionRequest.inv
  | .expansionReply .. => exact hs.execExpansionReply.inv
  | .replyDeadline .. => exact hs.execReplyDeadline.inv
  | .cutTick .. => exact hs.execCutTick.inv
  | .remainderPassStart => exact hs.execRemainderPassStart.inv
  | .remainderPassEnd => exact hs.execRemainderPassEnd.inv
  | .vectorRead .. => exact hs.execVectorRead.inv
  | .vectorReply .. => exact hs.execVectorReply.inv
  | .rescoringCut .. => exact hs.execRescoringCut.inv
  | .matmul .. => exact hs.execMatmul.inv
  | .xorpop .. => exact hs.execXorpop.inv
  | .ewise .. => exact hs.execEwise.inv
  | .curve .. => exact hs.execCurve.inv
  | .norm .. => exact hs.execNorm.inv
  | .softnorm .. => exact hs.execSoftnorm.inv
  | .gather .. => exact hs.execGather.inv
  | .argmax .. => exact hs.execArgmax.inv
  | .topk .. => exact hs.execTopk.inv
  | .rotate .. => exact hs.execRotate.inv
  | .streamSwap .. => exact hs.execStreamSwap.inv
  | .streamReArm .. => exact hs.execStreamReArm.inv
  | .sync .. => exact hs.execSync.inv
  | .endStep .. => exact hs.execEndStep.inv
  | .streamBase .. => exact hs.execStreamBase.inv
  | .streamLoop .. => exact hs.execStreamLoop.inv
  | .streamNext .. => exact hs.execStreamNext.inv
  | .streamEmit .. => exact hs.execStreamEmit.inv
  | .streamAdd .. => exact hs.execStreamAdd.inv
  | .streamEnd .. => exact hs.execStreamEnd.inv
  | .streamTileArrival .. => exact hs.execStreamTileArrival.inv
  | .stepBoundary .. => exact hs.execStepBoundary.inv
  | .save .. => exact hs.execSave.inv
  | .restore .. => exact hs.execRestore.inv
  | .prgResponse .. => exact hs.execPrgResponse.inv
  | .pageRequestTimeout .. => exact hs.execPageRequestTimeout.inv
  | .atsInvalidation .. => exact hs.execAtsInvalidation.inv
  | .grantRelease .. => exact hs.execGrantRelease.inv
  | .guard .. => exact hs.execGuard.inv
  | .pwrLimitActiveClear => exact hs.execPwrLimitActiveClear.inv
  | .thermalSample .. => exact hs.execThermalSample.inv
  | .thermalStepFall => exact hs.execThermalStepFall.inv
  | .coldPowerOn => exact hs.execColdPowerOn
  | .inputLoss => exact hs.execInputLoss
  | .overvoltage => exact hs.execOvervoltage
  | .lowInput => exact hs.execLowInput.inv
  | .railFault .. => exact hs.execRailFault
  | .moduleReset .. => exact hs.execModuleReset.inv
  | .moduleResetEffect => exact hs.execModuleResetEffect
  | .mrst .. => exact hs.execMrst.inv
  | .resetRelease => exact hs.execResetRelease
  | .perst .. => exact hs.execPerst.inv
  | .hotReset .. => exact hs.execHotReset.inv
  | .functionLevelReset .. => exact hs.execFunctionLevelReset.inv
  | .bootStage .. => exact hs.execBootStage.inv
  | .managementStartTimeout => exact hs.execManagementStartTimeout.inv
  | .fullIndexAvailability => exact hs.execFullIndexAvailability.inv
  | .internalFault .. => exact hs.execInternalFault.inv
  | .rodLinkFailure .. => exact hs.execRodLinkFailure.inv
  | .noReadyStatus .. => exact hs.execNoReadyStatus.inv
  | .unitOut .. => exact hs.execUnitOut.inv
  | .unitTakeOut .. => exact hs.execUnitTakeOut.inv
  | .lostTile .. => exact hs.execLostTile.inv
  | .mapRepair .. => exact hs.execMapRepair.inv
  | .returnScan .. => exact hs.execReturnScan.inv
  | .reload .. => exact hs.execReload.inv
  | .fatal .. => exact hs.execFatal.inv
  | .powerStateEntry => exact hs.execPowerStateEntry.inv
  | .powerStateExit => exact hs.execPowerStateExit.inv
  | .registerWrite .. => exact hs.execRegisterWrite.inv
  | .tckCount .. => exact hs.execTckCount.inv
  | .hifEvtClear .. => exact hs.execHifEvtClear.inv
  | .hifEvtStatus .. => exact hs.execHifEvtStatus.inv
  | .adminPairEnable .. => exact hs.execAdminPairEnable.inv
  | .adminPairDisable .. => exact hs.execAdminPairDisable.inv
  | .secLock .. => exact hs.execSecLock.inv
  | .configDefaults .. => exact hs.execConfigDefaults.inv
  | .tierModeRequest .. => exact hs.execTierModeRequest.inv
  | .winRead .. => exact hs.execWinRead.inv
  | .winWrite .. => exact hs.execWinWrite.inv
  | .winReadDescriptor .. => exact hs.execWinReadDescriptor.inv
  | .mbxSend .. => exact hs.execMbxSend.inv
  | .mbxInHead .. => exact hs.execMbxInHead.inv
  | .syncSend => exact hs.execSyncSend.inv
  | .syncFrame .. => exact hs.execSyncFrame.inv
  | .syncLoss => exact hs.execSyncLoss.inv
  | .delayMeasurement .. => exact hs.execDelayMeasurement.inv
  | .delayReq .. => exact hs.execDelayReq.inv
  | .delayResp .. => exact hs.execDelayResp.inv
  | .odRead .. => exact hs.execOdRead.inv
  | .odWrite .. => exact hs.execOdWrite.inv
  | .odTransferTimeout => exact hs.execOdTransferTimeout.inv
  | .frameForward .. => exact hs.execFrameForward.inv
  | .report .. => exact hs.execReport.inv
  | .heartbeatSend => exact hs.execHeartbeatSend.inv
  | .heartbeat .. => exact hs.execHeartbeat.inv
  | .managerHeartbeatLoss => exact hs.execManagerHeartbeatLoss.inv
  | .assign .. => exact hs.execAssign.inv
  | .release .. => exact hs.execRelease.inv
  | .start .. => exact hs.execStart.inv
  | .stop .. => exact hs.execStop.inv
  | .reset .. => exact hs.execReset.inv
  | .linkUp .. => exact hs.execLinkUp.inv
  | .linkDown .. => exact hs.execLinkDown.inv
  | .getVersion .. => exact hs.execGetVersion.inv
  | .getCapabilities .. => exact hs.execGetCapabilities.inv
  | .negotiateAlgorithms .. => exact hs.execNegotiateAlgorithms.inv
  | .getDigests .. => exact hs.execGetDigests.inv
  | .getCertificate .. => exact hs.execGetCertificate.inv
  | .challenge .. => exact hs.execChallenge.inv
  | .getMeasurements .. => exact hs.execGetMeasurements.inv
  | .idcode => exact hs.execIdcode.inv
  | .debugAccess => exact hs.execDebugAccess.inv
  | .testLogicReset .. => exact hs.execTestLogicReset.inv
  | .linkTraining .. => exact hs.execLinkTraining.inv
  | .atsTranslationCompletion .. => exact hs.execAtsTranslationCompletion.inv
  | .doeDiscovery .. => exact hs.execDoeDiscovery.inv
  | .vfEnable .. => exact hs.execVfEnable.inv
  | .inrushRestart => exact hs.execInrushRestart
  | .eventQueueSend => exact hs.execEventQueueSend.inv

/-- A step from a good state takes the front command away, which the invariant does not read, and runs it. -/
theorem Inv.step (h : s.Inv) : NextHolds State.Inv (step s) := by
  unfold Machine.step
  split
  · exact .next h
  · next c rest _ => exact Inv.exec c (Steady.upd (ph := s.pwr.phase) ⟨h, rfl⟩).inv

/-- Settles O60: by `State.Inv.step`. -/
theorem invariantKept : Obligations.InvariantKept := by
  unfold Obligations.InvariantKept
  exact fun s t h e => h.step t e

end Sys2Proof.Machine.State
end

section
namespace Sys2Proof.Machine

/-! ### Finding a search -/

theorem State.search?_is {s : State} {cid ix : Nat} {x : Search} (h : s.search? cid ix = some x) : x.is cid ix = true :=
  List.find?_some (p := fun y : Search => y.is cid ix) h

theorem State.search?_key {s : State} {cid ix : Nat} {x : Search} (h : s.search? cid ix = some x) : x.cid = cid ∧ x.ix = ix := by
  simpa only [Search.is, Bool.and_eq_true, decide_eq_true_eq] using State.search?_is h

/-! ### Searches made and waiting (13 R322-R327) -/

theorem State.cobj_modCmd (s : State) (k : Nat) (f : Cmd → Cmd) : (s.modCmd k f).cobj = s.cobj := rfl

theorem State.blockLen_modCmd (s : State) (k : Nat) (f : Cmd → Cmd) : (s.modCmd k f).blockLen = s.blockLen := rfl

theorem State.resolve_modCmd (s : State) (k : Nat) (f : Cmd → Cmd) : (s.modCmd k f).resolve = s.resolve := by
  unfold State.resolve
  rw [State.cobj_modCmd]

theorem State.lengthsOk_modCmd (s : State) (k : Nat) (f : Cmd → Cmd) : (s.modCmd k f).lengthsOk = s.lengthsOk := by
  unfold State.lengthsOk
  rw [State.blockLen_modCmd]

/-- A change of the commands changes neither the parameters of a search command nor the searches it makes: they read the
models and the dictionary only. -/
theorem State.searchParams_modCmd (s : State) (k : Nat) (f : Cmd → Cmd) : (s.modCmd k f).searchParams = s.searchParams := by
  unfold State.searchParams
  rw [State.resolve_modCmd, State.lengthsOk_modCmd]

theorem State.fillQuery_modCmd (s : State) (k : Nat) (f : Cmd → Cmd) : (s.modCmd k f).fillQuery = s.fillQuery := by
  unfold State.fillQuery
  rw [State.blockLen_modCmd]

theorem State.queriesOf_modCmd (s : State) (k : Nat) (f : Cmd → Cmd) (cmd : Cmd) (c : Coll) (p : WalkParams) (n : Nat) :
    (s.modCmd k f).queriesOf cmd c p n = s.queriesOf cmd c p n := by
  simp only [State.queriesOf, State.fillQuery_modCmd]

/-- The buffer and then the stage of a command, with its searches between, are one change. -/
theorem State.searchesAsked_eq_modCmd (s : State) (cmd : Cmd) (inbuf : Bytes) (xs : List Search) :
    ({ s.modCmd cmd.cid (fun d => { d with inbuf := inbuf }) with searches := s.searches ++ xs } : State).modCmd cmd.cid
      (fun d => { d with stage := .searching }) = s.searchesAsked cmd inbuf xs := by
  have hmap := mapWhere_comp (fun d : Cmd => decide (d.cid = cmd.cid)) (fun d => { d with inbuf := inbuf })
    (fun d => { d with stage := .searching }) (fun _ hd => hd) s.cmds
  simp only [State.modCmd, State.searchesAsked, hmap]

/-- A command whose parameters are good and whose queries are all well formed makes its searches. -/
theorem State.makeSearches_good {s : State} {cmd : Cmd} {inbuf : Bytes} {n : Nat} {c : Coll} {p : WalkParams}
    (hc : s.coll? cmd.collByte = some c) (hp : s.searchParams { cmd with inbuf := inbuf } c = some p)
    (hq : ∀ x ∈ s.queriesOf { cmd with inbuf := inbuf } c p n, x.queryOk c = true) :
    s.makeSearches cmd inbuf n = s.searchesAsked cmd inbuf (s.queriesOf { cmd with inbuf := inbuf } c p n) := by
  have hc' : (s.modCmd cmd.cid (fun d => { d with inbuf := inbuf })).coll? { cmd with inbuf := inbuf }.collByte = some c := hc
  have hnone : (s.queriesOf { cmd with inbuf := inbuf } c p n).find? (fun x => !x.queryOk c) = none :=
    List.find?_eq_none.2 fun x hx => by simp [hq x hx]
  rw [← State.searchesAsked_eq_modCmd]
  rw [← State.queriesOf_modCmd s cmd.cid (fun d => { d with inbuf := inbuf }), State.queriesOf] at hnone
  simp only [State.makeSearches, hc', State.searchParams_modCmd, hp, hnone]
  rfl

/-- Settles O12: each row is `State.makeSearches` of its ready command. -/
theorem searchRowsWait : Obligations.SearchRowsWait := by
  unfold Obligations.SearchRowsWait
  intro s cid inbuf cmd c p n hc hp hq
  have hmade := State.makeSearches_good hc hp hq
  refine ⟨?_, ?_, ?_⟩
  · rintro rfl hready
    simp only [exec, execSearch, hready, hmade]
  · rintro rfl hready
    simp only [exec, execSearchBatch, hready, hmade]
  · rintro rfl hform hready
    simp only [exec, execRerank, hready, if_neg hform, hmade]

/-! ### Admission (R493; 02 R39, R40, R48) -/

/-- Settles O13: with a deadline given, `State.judge` compares its extension before anything that follows the parameters. -/
theorem deadlineTooFar : Obligations.DeadlineTooFar := by
  unfold Obligations.DeadlineTooFar
  intro s x cmd adm c p hc hstate hp hgiven hfar
  simp only [State.judge, hc, hstate, hp, if_neg hgiven, if_pos hfar, ne_eq, not_true_eq_false, if_false]

theorem State.commitDue_of_none {s : State} (h : s.dueCommits = []) : s.commitDue = s := by
  simp only [State.commitDue, h, List.foldl_nil]

theorem upTo_cons_is {cid ix : Nat} {x : Search} {xs : List Search} (h : x.is cid ix = true) : upTo cid ix (x :: xs) = [x] := by
  simp only [upTo, h, if_true]

theorem mapWhere_id {α : Type} (p : α → Bool) (l : List α) : mapWhere p (fun x => x) l = l := by
  simp only [mapWhere, ite_self, List.map_id']

/-- The admission tick is noted with the first search of a command only. -/
theorem State.modCmd_ite (s : State) (k : Nat) (b : Prop) [Decidable b] (f : Cmd → Cmd) :
    s.modCmd k (fun d => if b then f d else d) = if b then s.modCmd k f else s := by
  split
  · rfl
  · simp only [State.modCmd, mapWhere_id]

/-- ADMISSION of the first search that may be admitted, with no mutation due and a context free, admits it alone. -/
theorem execAdmission_first {s : State} {cid ix : Nat} {x : Search} {rest : List Search} (hup : s.up = true)
    (hx : s.search? cid ix = some x) (hdue : s.dueCommits = []) (hadm : s.admissible x.part = x :: rest)
    (hfree : s.contextsUsed x.part < recContexts (s.partRec x.part)) :
    execAdmission cid ix s = .next (s.admitOne x) := by
  have his : x.is cid ix = true := State.search?_is hx
  simp only [execAdmission, hx, hup, hadm, List.any_cons, his, Bool.true_or, Bool.and_self, if_true, State.commitDue_of_none hdue,
    upTo_cons_is his, State.admitList, if_pos hfree]

/-- What a search that scores by no model keeps of its first admission (R81). -/
theorem State.admitted_first (s : State) {x y : Search} (c : Coll) (adm : Tick) (hbegan : x.began = false)
    (hmode : y.params.mode ≠ 2) : s.admitted x y c adm = { y with
      admTick := adm, firstAdm := some adm, began := true, entrySet := c.entrySet, cold := s.isCold c.num
      context := true, ctxSince := s.now, phase := .walking, holdsModel := none } := by
  simp only [State.admitted, hbegan, Bool.false_eq_true, if_false, if_neg hmode]

/-- A search judged good at its first admission, that neither scores by a model nor lists ids, begins its attempt. -/
theorem State.admitOne_good {s : State} {x y : Search} {cmd : Cmd} {c : Coll} (hcmd : s.cmd? x.cid = some cmd)
    (hfirst : x.firstAdm = none)
    (hy : (s.modCmd x.cid (fun d => if x.ix = 0 then { d with admTick := some s.now } else d)).judge x cmd s.now = .ok y)
    (hc : s.coll? y.coll = some c) (hmode : y.params.mode ≠ 2) (hlist : y.isRerank = false) (hbegan : x.began = false) :
    s.admitOne x =
      ((s.modCmd x.cid (fun d => if x.ix = 0 then { d with admTick := some s.now } else d)).modSearch y.cid y.ix
        (fun _ => s.admitted x y c s.now)).beginAttempt (s.admitted x y c s.now) c := by
  have hc' (f : Cmd → Cmd) : (s.modCmd x.cid f).coll? y.coll = some c := hc
  have hkept (f : Cmd → Cmd) : (s.modCmd x.cid f).admitted x y c s.now = s.admitted x y c s.now := rfl
  have hsame : (s.admitted x y c s.now).cid = y.cid ∧ (s.admitted x y c s.now).ix = y.ix
      ∧ (s.admitted x y c s.now).isRerank = y.isRerank ∧ (s.admitted x y c s.now).params = y.params := by
    rw [State.admitted_first s c s.now hbegan hmode]
    exact ⟨rfl, rfl, rfl, rfl⟩
  obtain ⟨hcid, hix, hrr, hpar⟩ := hsame
  rw [State.admitOne, hcmd]
  simp only [hfirst, Option.getD_none, ← State.modCmd_ite, hy, hc', hkept, hrr, hlist, hpar, Bool.false_eq_true, if_false,
    if_neg hmode, hcid, hix]

/-- Settles O14: `execAdmission_first` admits the search, and `State.admitOne_good` says how. -/
theorem admissionAdmits : Obligations.AdmissionAdmits := by
  unfold Obligations.AdmissionAdmits
  intro s cid ix x y rest cmd c hup hx hdue hadm hfree hcmd hfirst hbegan hy hc hmode hlist
  obtain ⟨rfl, rfl⟩ := State.search?_key hx
  have hone := State.admitOne_good hcmd hfirst hy hc hmode hlist hbegan
  rw [State.admitted_first s c s.now hbegan hmode] at hone
  simp only [exec, execAdmission_first hup hx hdue hadm hfree, hone]

/-! ### Rounds and expansions (R87-R93) -/

/-- A round opens no more than W expansions, nor more than the budget of the walk leaves (R87). -/
theorem State.pickRound_roundExps_le (s : State) (x : Search) (c : Coll) :
    (s.pickRound x c).1.roundExps ≤ min x.params.w (x.params.h - x.expansions) :=
  List.length_take_le _ _

theorem execRound_open {s : State} {cid ix : Nat} {x : Search} {c : Coll} (hx : s.search? cid ix = some x)
    (hc : s.coll? x.coll = some c) (hphase : x.phase = .walking) (hopen : x.open_ = []) (hnext : x.nextRound ≤ s.now)
    (hcut : s.now < x.cut) : execRound cid ix s = .next (s.openRound x c) := by
  simp only [execRound, hx, hc, hphase, hopen, hnext, hcut, List.isEmpty_nil, decide_true, Bool.and_self, if_true]

/-- Reading a tile for a command changes its class account and the counters of the collection only. -/
theorem State.countReads_frame (s : State) (cid coll n : Nat) :
    ∃ d sh, s.countReads cid coll n = { s with dict := d, shares := sh } := by
  unfold State.countReads State.useCmd
  split
  · exact ⟨_, s.shares, rfl⟩
  · exact ⟨_, _, rfl⟩

/-- Filling a tile changes the node cache only. -/
theorem State.fillTile_frame (s : State) (coll t : Nat) (b : Bytes) : ∃ l, s.fillTile coll t b = { s with cache := l } := by
  simp only [State.fillTile]
  split
  · exact ⟨s.cache, rfl⟩
  · exact ⟨_, rfl⟩

/-- The rod's read and the fill of the cache leave all but the counters, the accounts and the cache (R90; 03 R72). -/
theorem State.rodRead_frame (s : State) (cid coll t : Nat) (b : Bytes) (good : Bool) :
    ∃ d sh l, (if good then (s.countReads cid coll 1).fillTile coll t b else s.countReads cid coll 1)
      = { s with dict := d, shares := sh, cache := l } := by
  obtain ⟨d, sh, hread⟩ := s.countReads_frame cid coll 1
  rw [hread]
  split
  · obtain ⟨l, hfill⟩ := State.fillTile_frame { s with dict := d, shares := sh } coll t b
    exact ⟨d, sh, l, hfill⟩
  · exact ⟨d, sh, s.cache, rfl⟩

/-- A request that reaches its rod in time is answered with the reply the rod forms. -/
theorem execExpansionRequest_sent {s : State} {cid ix node : Nat} {x : Search} {c : Coll} {e : Expansion}
    (hx : s.search? cid ix = some x) (hc : s.coll? x.coll = some c) (he : x.open_.find? (fun e => decide (e.node = node)) = some e)
    (hsent : e.stage = .sent) (hchip : s.chipReads [e.tile] = true) (hrod : s.rodInTime e.tile e.deadline = true) :
    ∃ d sh l, execExpansionRequest cid ix node s = .next (({ s with dict := d, shares := sh, cache := l } : State).modSearch cid ix
      (fun y => y.setExp node (.formed (x.formReply c node e.gen (s.tileBytes e.tile))))) := by
  obtain ⟨d, sh, l, hread⟩ := s.rodRead_frame cid c.num e.tile (s.tileBytes e.tile)
    (x.formReply c node e.gen (s.tileBytes e.tile)).isSome
  refine ⟨d, sh, l, ?_⟩
  rw [← hread]
  simp only [execExpansionRequest, hx, hc, he, hsent, hchip, hrod, decide_true, Bool.and_self, if_true]
  rfl

/-- Has the reply of an expansion arrived? -/
def ExpStage.isArrived (st : ExpStage) : Bool :=
  match st with
  | .arrived _ => true
  | _ => false

theorem ExpStage.isArrived_iff (st : ExpStage) : st.isArrived = true ↔ ∃ r, st = .arrived r := by
  cases st <;> simp [ExpStage.isArrived]

/-- Once one expansion has its reply, all have theirs exactly when the others have. -/
theorem Search.setExp_all_arrived (x : Search) (node : Nat) (r : Reply) :
    (x.setExp node (.arrived r)).open_.all (fun e => e.stage.isArrived) = true
      ↔ ∀ e ∈ x.open_, e.node ≠ node → ∃ r', e.stage = .arrived r' := by
  simp only [Search.setExp, mapWhere, List.all_map, List.all_eq_true, Function.comp_apply]
  refine forall₂_congr fun e _ => ?_
  by_cases hnode : e.node = node
  · simp [hnode, ExpStage.isArrived]
  · simp [hnode, ExpStage.isArrived_iff]

/-- A reply in time, before the cut tick, is recorded; the round closes with its last (R92, R93). -/
theorem execExpansionReply_formed {s : State} {cid ix node : Nat} {x : Search} {c : Coll} {e : Expansion} {r : Reply}
    (hx : s.search? cid ix = some x) (hc : s.coll? x.coll = some c) (he : x.open_.find? (fun e => decide (e.node = node)) = some e)
    (hformed : e.stage = .formed (some r)) (htime : s.inTime e.deadline = true) (hcut : s.now < x.cut) :
    execExpansionReply cid ix node s =
      if (x.setExp node (.arrived r)).open_.all (fun e => e.stage.isArrived) then
        .next ((s.modSearch cid ix (fun _ => x.setExp node (.arrived r))).closeRound (x.setExp node (.arrived r)) c)
      else .next (s.modSearch cid ix (fun _ => x.setExp node (.arrived r))) := by
  simp only [execExpansionReply, hx, hc, he, hformed, htime, Nat.not_le.2 hcut, decide_false, Bool.not_true, Bool.or_self,
    Bool.false_eq_true, if_false]
  rfl

/-- Settles O15: the round, the request and the reply each by its lemma. -/
theorem walkRowsStep : Obligations.WalkRowsStep := by
  unfold Obligations.WalkRowsStep
  intro s cid ix node x c hx hc
  refine ⟨?_, ?_, ?_⟩
  · intro hphase hopen hnext hcut
    exact ⟨execRound_open hx hc hphase hopen hnext hcut, s.pickRound_roundExps_le x c⟩
  · intro e he hsent hchip hrod
    obtain ⟨d, sh, l, hreq⟩ := execExpansionRequest_sent hx hc he hsent hchip hrod
    exact ⟨_, hreq, rfl, rfl⟩
  · intro e r he hformed htime hcut
    have hreply := execExpansionReply_formed hx hc he hformed htime hcut
    refine ⟨?_, fun hall => ?_⟩
    · rintro ⟨e', hmem, hne, hout⟩
      refine hreply.trans (if_neg fun hall => ?_)
      obtain ⟨r', hr'⟩ := (x.setExp_all_arrived node r).1 hall e' hmem hne
      exact hout r' hr'
    · exact hreply.trans (if_pos ((x.setExp_all_arrived node r).2 hall))

/-! ### Deadlines and cuts (02 R31; 04 R105-R107; 05 R124) -/

/-- The tags a reply deadline releases are none while every tag of the search is within its deadline. -/
theorem State.tags_kept {s : State} {cid ix : Nat} (h : ∀ g ∈ s.tags, g.cid = cid → g.ix = ix → s.now ≤ g.deadline) :
    s.tags.filter (fun g => !(decide (g.cid = cid) && decide (g.ix = ix) && decide (g.deadline < s.now))) = s.tags := by
  refine List.filter_eq_self.2 fun g hg => ?_
  have hin := h g hg
  simp only [Bool.not_eq_true', Bool.and_eq_false_iff, decide_eq_false_iff_not, Nat.not_lt]
  tauto

theorem execReplyDeadline_lost {s : State} {cid ix : Nat} {x : Search} (hx : s.search? cid ix = some x)
    (hlost : s.lostReply x = true) (htags : ∀ g ∈ s.tags, g.cid = cid → g.ix = ix → s.now ≤ g.deadline) :
    execReplyDeadline cid ix s = .next (s.faultCmd cid false) := by
  simp only [execReplyDeadline, State.tags_kept htags, hx, hlost, if_true]

/-- At the cut tick a walk ends, its pass outstanding or not (R106, R107). -/
theorem execCutTick_due {s : State} {cid ix : Nat} {x : Search} (hx : s.search? cid ix = some x)
    (hphase : x.phase = .walking ∨ x.phase = .walked) (hcut : x.cut ≤ s.now) : execCutTick cid ix s = .next (s.cutWalk x) := by
  simp only [execCutTick, hx, hphase, hcut, decide_true, Bool.or_eq_true, decide_eq_true_eq, Bool.and_true, if_true]

theorem execRescoringCut_due {s : State} {cid ix : Nat} {x : Search} (hx : s.search? cid ix = some x)
    (hphase : x.phase = .rescoring ∨ x.phase = .gathering) (hdue : x.deadline ≤ s.now) :
    execRescoringCut cid ix s = .next (s.rescoreCut x) := by
  simp only [execRescoringCut, hx, hphase, hdue, decide_true, Bool.or_eq_true, decide_eq_true_eq, Bool.and_true, if_true]

/-- A walk cut while it waits for its remainder pass goes on to rescoring without remainder hits. -/
theorem State.cutWalk_waiting {s : State} {x : Search} (hneed : x.need = .waiting) :
    s.cutWalk x =
      (({ s with tags := s.tags ++ x.walkTags } : State).modSearch x.cid x.ix
        (fun _ => { x with phase := .walked, open_ := [], endReason := 2, partialCut := true })).startRescore
          { x with phase := .walked, open_ := [], endReason := 2, partialCut := true } false := by
  unfold State.cutWalk
  rw [hneed]
  rfl

/-- Settles O16: each timer by its lemma; the cut of a walk by `State.cutWalk_waiting`. -/
theorem searchTimersAct : Obligations.SearchTimersAct := by
  unfold Obligations.SearchTimersAct
  intro s cid ix x hx
  refine ⟨?_, ?_, ?_⟩
  · intro hlost htags
    exact execReplyDeadline_lost hx hlost htags
  · intro hphase hcut c _ hneed
    exact (execCutTick_due hx hphase hcut).trans (congrArg _ (State.cutWalk_waiting hneed))
  · intro hphase hdue
    exact execRescoringCut_due hx hphase hdue

end Sys2Proof.Machine
end

section
namespace Sys2Proof.Machine

/-! ### Vectors read and scored (05 R120, R123-R126) -/

/-- A vector with its score entered: the read has arrived, and the flags of the arithmetic are added (R120; 07 R190). -/
def Search.withScore (x : Search) (slot : Nat) (v : Flagged F32) : Search :=
  { x.setRead slot .arrived with
    flags := x.flags.or v.2
    rank := (x.setRead slot .arrived).rank.zipIdx.map (fun p => if p.2 = slot then { p.1 with score := some v.1 } else p.1) }

section
variable {s : State} {cid ix slot : Nat} {x : Search} {c : Coll} {r : RankCand} {d : Tick} (hx : s.search? cid ix = some x)
  (hc : s.coll? x.coll = some c) (hslot : slot < 4096) (hr : x.rank[slot]? = some r)
include hx hc hslot hr

/-- A vector of the remainder is not kept in the node cache, so its read changes the counts and the search alone (03 R72). -/
theorem execVectorRead_remainder (hsent : r.read = .sent d) (hrem : r.fromRem = true) (hrods : s.rodsRead r.asked d = true) :
    execVectorRead cid ix slot s =
      .next ((s.countReads cid c.num r.asked.length).modSearch cid ix
        (fun y => y.setRead slot (.returned d (s.readSlot x c r)))) := by
  simp only [execVectorRead, hx, hc, if_pos hslot, hr, hsent, hrods, hrem, Bool.true_or, if_true, List.foldl_nil]

/-- A good vector in time, before the rescoring cut: scored at once in mode 0, else held for the program that scores it. -/
theorem execVectorReply_good {b : Bytes} (hread : r.read = .returned d (some b)) (htime : s.inTime d = true)
    (hcut : s.now < x.deadline) :
    execVectorReply cid ix slot s =
      if x.params.mode ≠ 0 then .next ((s.modSearch cid ix (fun y => y.setRead slot .arrived)).maybeSelect cid ix)
      else .next (((s.modSearch cid ix (fun _ => x.withScore slot (x.scoreSlot c b))).useCmd cid 3 1).maybeSelect cid ix) := by
  have hwait : (!s.inTime d || decide (x.deadline ≤ s.now)) = false := by simp [htime, hcut]
  simp only [execVectorReply, hx, hc, if_pos hslot, hr, Option.map_some, hread, hwait, Bool.false_eq_true, if_false,
    if_neg (Nat.not_le.2 hslot), Search.withScore]

/-- A vector whose tile failed its check faults the command (03 R55; 18 R452). -/
theorem execVectorReply_failed (hread : r.read = .returned d none) (htime : s.inTime d = true) (hcut : s.now < x.deadline) :
    execVectorReply cid ix slot s = .next (s.checkFault cid) := by
  simp only [execVectorReply, hx, hc, if_pos hslot, hr, Option.map_some, hread, htime, hcut, decide_true, Bool.and_self, if_true]

end

/-- Settles O18: the read and the replies each by its lemma, a good reply in mode 0 and in the others. -/
theorem vectorRows : Obligations.VectorRows := by
  unfold Obligations.VectorRows
  intro s cid ix slot x c r d hx hc hslot hr
  refine ⟨?_, ?_, ?_, ?_⟩
  · intro hsent hrem hrods
    exact execVectorRead_remainder hx hc hslot hr hsent hrem hrods
  · intro b hread htime hcut hmode
    exact (execVectorReply_good hx hc hslot hr hread htime hcut).trans (if_neg (not_not.2 hmode))
  · intro b hread htime hcut hmode
    exact (execVectorReply_good hx hc hslot hr hread htime hcut).trans (if_pos hmode)
  · intro hread htime hcut
    exact execVectorReply_failed hx hc hslot hr hread htime hcut

end Sys2Proof.Machine
end

section
namespace Sys2Proof.Machine

/-! ### Mutations formed and staged (13 R330; 06 R147, R148) -/

theorem State.formCmd_forms {s : State} {c : Cmd} {k : Coll} (inbuf : Bytes) (hk : s.coll? c.collByte = some k)
    (hreck : s.reckoners ≠ []) :
    s.formCmd c inbuf = s.modCmd c.cid (fun d => { d with
      item := some (k.formItem c.ext (BitVec.ofNat 128 (c.field 40 16)) (c.field 56 1) inbuf).1
      flags := d.flags.or (k.formItem c.ext (BitVec.ofNat 128 (c.field 40 16)) (c.field 56 1) inbuf).2
      stage := .formed }) := by
  simp only [State.formCmd, hk, List.isEmpty_iff, if_neg hreck]

theorem execInsert_ready {s : State} {cid : Nat} {c : Cmd} (inbuf : Bytes) (h : s.ready? cid Op.insert = some c) :
    execInsert cid inbuf s = .next (s.formCmd c inbuf) := by
  simp only [execInsert, h]

theorem execUpsert_ready {s : State} {cid : Nat} {c : Cmd} (inbuf : Bytes) (h : s.ready? cid Op.upsert = some c) :
    execUpsert cid inbuf s = .next (s.formCmd c inbuf) := by
  simp only [execUpsert, h]

theorem execDelete_ready {s : State} {cid : Nat} {c : Cmd} (h : s.ready? cid Op.delete = some c) :
    execDelete cid s = .next (s.modCmd c.cid (fun d => { d with stage := .formed })) := by
  simp only [execDelete, h]

theorem execStage_room {s : State} {cid : Nat} {c : Cmd} (h : s.cmd? cid = some c) (hformed : c.stage = .formed)
    (hmut : c.isMutation = true) (hserved : s.served c = true) (hearlier : s.earlierUnstaged c = false)
    (hranked : s.rankedAhead c = false) (hroom : s.stageRoom c = true) :
    execStage cid s = .next (s.modCmd cid (fun d => { d with stage := .staged (s.now + 1) })) := by
  simp only [execStage, h, hformed, hmut, hserved, hearlier, hranked, hroom, decide_true, Bool.not_false, Bool.and_self, if_true]

/-- Settles O20: INSERT and UPSERT form by `State.formCmd_forms`, DELETE and STAGE each by the lemma of its row. -/
theorem mutationRowsStage : Obligations.MutationRowsStage := by
  unfold Obligations.MutationRowsStage
  intro s cid inbuf c k hk hreck
  refine ⟨?_, ?_, ?_⟩
  · intro op i hrow hready
    obtain rfl := State.ready?_cid hready
    simp only [List.mem_cons, Prod.mk.injEq, List.not_mem_nil, or_false] at hrow
    obtain ⟨rfl, rfl⟩ | ⟨rfl, rfl⟩ := hrow
    · exact (execInsert_ready inbuf hready).trans (congrArg _ (State.formCmd_forms inbuf hk hreck))
    · exact (execUpsert_ready inbuf hready).trans (congrArg _ (State.formCmd_forms inbuf hk hreck))
  · intro hready
    obtain rfl := State.ready?_cid hready
    exact execDelete_ready hready
  · exact execStage_room

/-! ### The outcome of a mutation (06 R144, R146) -/

section
variable {s : State} {k : Coll} {ext : BitVec 64} {g : Option Nat} {r : Option RemItem} (h : s.copies k ext = (g, r))
include h

theorem State.outcome_delete :
    s.outcome k Op.delete ext = (Status.success, if g.isSome || r.isSome then 4 else 5) := by
  simp only [State.outcome, h, if_true]

theorem State.outcome_insert_live (hlive : (g.isSome || r.isSome) = true) :
    s.outcome k Op.insert ext = (Status.invalidField, 6) := by
  simp only [State.outcome, h, hlive, decide_true, Bool.and_self, if_true]
  exact if_neg (by decide)

/-- A mutation that brings an item and is not refused for a live copy: judged by the room of the collection. -/
theorem State.outcome_item {op : Nat} (hdel : op ≠ Op.delete) (hins : op = Op.insert → (g.isSome || r.isSome) = false) :
    s.outcome k op ext = if s.collFull k (g.isSome || r.isSome) then (Status.capacityFull, 8)
      else (Status.success, b2n g.isSome + 2 * b2n r.isSome) := by
  have hrefuse : ¬ (decide (op = Op.insert) && (g.isSome || r.isSome)) = true := by
    intro hboth
    obtain ⟨hop, hlive⟩ := Bool.and_eq_true_iff.1 hboth
    exact absurd hlive (by simp [hins (of_decide_eq_true hop)])
  simp only [State.outcome, h, if_neg hdel, if_neg hrefuse]

end

/-- Settles O21: each line of the table by the lemma of its kind. -/
theorem mutationOutcome : Obligations.MutationOutcome := by
  unfold Obligations.MutationOutcome
  intro s k ext g r h
  have live (hgr : g.isSome ∨ r.isSome) : (g.isSome || r.isSome) = true := by simpa only [Bool.or_eq_true] using hgr
  refine ⟨?_, ?_, ?_, ?_, ?_⟩
  · rintro rfl rfl
    exact State.outcome_delete h
  · intro hgr
    rw [State.outcome_delete h, if_pos (live hgr)]
  · intro hgr
    exact State.outcome_insert_live h (live hgr)
  · rintro rfl rfl op hop
    have hdel : op ≠ Op.delete := by rcases hop with rfl | rfl <;> decide
    exact State.outcome_item h hdel fun _ => rfl
  · intro hgr
    rw [State.outcome_item h (by decide) (fun he => absurd he (by decide)), live hgr]
    cases g <;> cases r <;> rfl

/-! ### The commit (06 R143-R155) -/

theorem State.judgeMutation_ready {s : State} {c : Cmd} {k : Coll} (hk : s.coll? c.collByte = some k) (hstate : k.state = 2)
    (hrepair : k.repair = 0) (hfatal : s.units.fatalCause ≠ 6) : s.judgeMutation c = s.outcome k c.opcode c.ext := by
  simp [State.judgeMutation, hk, hstate, hrepair, hfatal]

/-- A mutation alone in its tick commits alone. -/
theorem execCommit_alone {s : State} {c : Cmd} (hdue : s.dueCommits = [c]) :
    execCommit c.cid s = .next (s.commitOne c) := by
  simp only [execCommit, hdue, List.any_cons, decide_true, Bool.true_or, if_true, cmdsUpTo, List.foldl_cons, List.foldl_nil]

/-- A DELETE of an absent id ends without an effect (R144). -/
theorem State.commitOne_absent {s : State} {c : Cmd} {k : Coll} (hsup : c.superseded = false)
    (hk : s.coll? c.collByte = some k) (hjudged : s.judgeMutation c = (Status.success, 5)) :
    s.commitOne c = s.modCmd c.cid (fun d => { d with stage := mutationDone Status.success s.now 0 5 none }) := by
  simp only [State.commitOne, hsup, hjudged, hk, Bool.false_eq_true, if_false, if_true, ne_eq, not_true_eq_false]

/-- A mutation with an effect applies its item and ends with its outcome and the number of its item. -/
theorem State.commitOne_applies {s : State} {c : Cmd} {k : Coll} {dw7 : Nat} (hsup : c.superseded = false)
    (hk : s.coll? c.collByte = some k) (hjudged : s.judgeMutation c = (Status.success, dw7)) (hdw7 : dw7 ≠ 5) :
    s.commitOne c = (s.applyItem k c.opcode c.ext c.item).2.modCmd c.cid (fun d => { d with
      stage := mutationDone Status.success s.now 1 dw7 (s.applyItem k c.opcode c.ext c.item).1 }) := by
  simp only [State.commitOne, hsup, hjudged, hk, Bool.false_eq_true, if_false, ne_eq, not_true_eq_false, if_neg hdw7]

/-- The remainder item that an item of a mutation becomes, with its sequence number (R151). -/
def Item.entered (i : Item) (t : Tick) (q : Nat) : RemItem :=
  ⟨i.ext, t, none, q, i.attrs, i.sketch, i.payload, i.slot, none, false⟩

/-- A collection once an item has entered its remainder with the next sequence number (R151). -/
def State.collWithItem (s : State) (k : Coll) (i : Item) (k' : Coll) : Coll :=
  { k' with rem := k'.rem ++ [i.entered s.now (s.nextSeq k)], nextSeq := s.nextSeq k + 1 }

theorem State.askPrograms_only (coll : Nat) (ts : List Nat) (s : State) :
    ∃ w, ts.foldl (fun (s : State) t => s.askProgram coll t) s = { s with pwr := w } :=
  State.foldl_pwr (fun s _ => s.askGrant_only _ _ _ _) ts s

/-- Beside the collection only counters change and programs are asked for (R171). -/
theorem State.enterItem_frame (s : State) (k : Coll) (i : Item) :
    ∃ d w, s.enterItem k i
      = (s.nextSeq k, { s.modColl k.num (s.collWithItem k i) with dict := d, pwr := w }) := by
  simp only [State.enterItem]
  split
  · exact ⟨_, _, congrArg (Prod.mk _) (State.askPrograms_only k.num _ _).choose_spec⟩
  · exact ⟨_, s.pwr, rfl⟩

/-- An INSERT enters its item, and then its record stands in the journal (R149). -/
theorem State.applyItem_insert (s : State) (k : Coll) (ext : BitVec 64) (i : Item) :
    ∃ d w, s.applyItem k Op.insert ext (some i) = (some (s.nextSeq k),
      State.journal { s.modColl k.num (s.collWithItem k i) with dict := d, pwr := w }
        (mutationRecord k 1 ext s.now (some (s.nextSeq k)) i.attrs i.payload)) := by
  obtain ⟨d, w, hent⟩ := s.enterItem_frame k i
  refine ⟨d, w, ?_⟩
  simp only [State.applyItem, if_true, hent]
  rfl

/-- Settles O22: the DELETE by `State.commitOne_absent`, the INSERT by `State.commitOne_applies` and `State.applyItem_insert`. -/
theorem commitTakesEffect : Obligations.CommitTakesEffect := by
  unfold Obligations.CommitTakesEffect
  intro s cid c k item hcmd hdue hsup hk hstate hrepair hfatal
  obtain rfl := State.cmd?_cid hcmd
  have hnum := State.coll?_num hk
  have hjudge := State.judgeMutation_ready hk hstate hrepair hfatal
  refine ⟨?_, ?_⟩
  · intro hop hcop
    rw [hop, State.outcome_delete hcop] at hjudge
    exact (execCommit_alone hdue).trans (congrArg _ (State.commitOne_absent hsup hk hjudge))
  · intro hop hitem hcop hfull
    have hout := State.outcome_item hcop (op := Op.insert) (by decide) fun _ => rfl
    rw [show s.collFull k ((none : Option Nat).isSome || (none : Option RemItem).isSome) = false from hfull] at hout
    have hone := State.commitOne_applies hsup hk ((hop ▸ hjudge).trans hout) (by decide)
    obtain ⟨d, w, happ⟩ := s.applyItem_insert k c.ext item
    rw [hop, hitem, happ] at hone
    have hk' : (s.modColl k.num (s.collWithItem k item)).coll? c.collByte = some (s.collWithItem k item k) := by
      rw [hnum]
      exact State.coll?_modColl hk fun _ => rfl
    exact ⟨_, (execCommit_alone hdue).trans (congrArg _ hone), rfl, rfl, rfl, _, hk', rfl, rfl⟩

/-! ### Requests and the start of a pass (06 R156-R158) -/

theorem execCarry_ready {s : State} {cid : Nat} {c : Cmd} (h : s.ready? cid Op.carry = some c)
    (hstate : s.collState c.collByte = 2) (hreck : s.reckoners ≠ []) :
    execCarry cid s = .next ((s.modCmd cid (fun d => { d with stage := .passWait })).requestPass c.collByte [cid]) := by
  simp only [execCarry, h, hstate, List.isEmpty_iff, if_neg hreck, ne_eq, not_true_eq_false, if_false]

/-- A request for a collection that no pass and no request is of stands in the queue by its rank. -/
theorem State.requestPass_queues {s : State} {n : Nat} (who : List Nat) (hpass : s.carry.pass = none)
    (hqueue : ∀ r ∈ s.carry.queue, r.coll ≠ n) :
    s.requestPass n who
      = { s with carry := { s.carry with queue := insertBy reqBefore ⟨n, s.now, who⟩ s.carry.queue } } := by
  have hnone : ¬ (s.carry.queue.any fun r => decide (r.coll = n)) = true := by simpa using hqueue
  simp only [State.requestPass, hpass, if_neg hnone]

theorem State.requestPass_joins {s : State} {n : Nat} {p : Pass} (who : List Nat) (hpass : s.carry.pass = some p)
    (hcoll : p.coll = n) : s.requestPass n who = s.setPass (some { p with waiters := p.waiters ++ who }) := by
  simp only [State.requestPass, hpass, if_pos hcoll]

theorem execPassStart_first {s : State} {r : CarryReq} {rest : List CarryReq} (hpass : s.carry.pass = none)
    (hqueue : s.carry.queue = r :: rest) (hserved : s.carryServed = true) (htick : r.tick < s.now) :
    execPassStart s = .next (s.startCarry r) := by
  simp only [execPassStart, hpass, hqueue, hserved, htick, decide_true, Bool.and_self, if_true]

theorem State.freshIds_carry (s : State) (y : Carry) (limit fuel need next : Nat) :
    ({ s with carry := y } : State).freshIds limit fuel need next = s.freshIds limit fuel need next := by
  have hrod (r : Nat) : ({ s with carry := y } : State).rodIn r = s.rodIn r := rfl
  induction fuel generalizing need next with
  | zero => rfl
  | succ fuel ih => simp only [State.freshIds, ih, hrod]

/-- What a pass starts with is read beside the requests and the passes. -/
theorem State.newPass_carry (s : State) (y : Carry) (k : Coll) (who : List Nat) :
    ({ s with carry := y } : State).newPass k who = s.newPass k who := by
  unfold State.newPass
  simp only [State.freshIds_carry]
  rfl

/-- A pass that folds some item is numbered, recorded and then planned. -/
theorem State.startCarry_new {s : State} {r : CarryReq} {k : Coll} (hdue : s.dueCommits = [])
    (hk : s.coll? r.coll = some k) (hreck : s.reckoners ≠ []) (hsusp : ∀ p ∈ s.carry.suspended, p.coll ≠ r.coll)
    (hfold : (s.newPass k r.waiters).folded ≠ []) :
    s.startCarry r =
      ((({ s with carry := { s.carry with queue := s.carry.queue.drop 1 } } : State).setObj (0x4100 + k.num) 0x57 0
        (s.newPass k r.waiters).number).journal
          (carryRecord (s.newPass k r.waiters) 4 s.now (some (s.newPass k r.waiters).seqLimit) [] 0)).setPass
            (some (s.newPass k r.waiters)) := by
  have hnone : s.carry.suspended.find? (fun p => decide (p.coll = r.coll)) = none :=
    List.find?_eq_none.2 fun p hp => by simpa using hsusp p hp
  have hk' (y : Carry) : ({ s with carry := y } : State).coll? r.coll = some k := hk
  have hreck' (y : Carry) : ({ s with carry := y } : State).reckoners ≠ [] := hreck
  simp only [State.startCarry, State.commitDue_of_none hdue, hk', List.isEmpty_iff, if_neg (hreck' _), hnone, State.newPass_carry,
    if_neg hfold]
  rfl

/-- Settles O23: CARRY by `State.requestPass_queues` and `State.requestPass_joins`, PASS_START by `State.startCarry_new`. -/
theorem carryRowsRequest : Obligations.CarryRowsRequest := by
  unfold Obligations.CarryRowsRequest
  intro s cid c
  refine ⟨?_, ?_, ?_⟩
  · intro hready hstate hreck hpass hqueue
    exact (execCarry_ready hready hstate hreck).trans (congrArg _ (State.requestPass_queues [cid] hpass hqueue))
  · intro p hready hstate hreck hpass hcoll
    exact (execCarry_ready hready hstate hreck).trans (congrArg _ (State.requestPass_joins [cid] hpass hcoll))
  · intro r rest k hpass hqueue hserved htick hdue hk hreck hsusp hfold
    have hnew := State.startCarry_new hdue hk hreck hsusp hfold
    rw [hqueue] at hnew
    exact ⟨_, (execPassStart_first hpass hqueue hserved htick).trans (congrArg _ hnew), rfl, rfl, rfl, rfl, rfl⟩

end Sys2Proof.Machine
end

section
namespace Sys2Proof.Machine

/-! ### The plan and the rewrite of a segment (06 R159, R161) -/

/-- Asking for the next rewrite changes nothing of the pass but its grant. -/
theorem State.askRewrite_pass (s : State) (p : Pass) : ∃ g, (s.askRewrite p).carry.pass = some { p with grant := g } := by
  unfold State.askRewrite
  split
  · exact ⟨_, rfl⟩
  · exact ⟨_, rfl⟩

/-- Closing the plan of a pass leaves it in the phase of writing, with the items it folds. -/
theorem State.closePlan_pass (s : State) (k : Coll) (p : Pass) :
    ∃ r, (s.closePlan k p).carry.pass = some r ∧ r.planClosed = true ∧ r.phase = .writing ∧ r.folded = p.folded := by
  obtain ⟨g, hg⟩ := State.askRewrite_pass (s.journal (carryRecord p 5 s.now none [] 0))
    { p with planClosed := true, phase := .writing
             todo := (s.journal (carryRecord p 5 s.now none [] 0)).passSegments k p }
  exact ⟨_, hg, rfl, rfl, rfl⟩

theorem execPlan_granted {s s' : State} {p q : Pass} {k : Coll} (hpass : s.carry.pass = some p)
    (hk : s.coll? p.coll = some k) (hopen : p.planClosed = false) (hserved : s.carryServed = true)
    (hreck : s.reckoners ≠ []) (hreads : s.planReads k p ≤ s.carry.credit)
    (hplan : State.planItems k s (p.readable s k) (p.readable s k).folded = (some q, s')) :
    execPlan s = .next (s'.spend.closePlan k q) := by
  simp only [execPlan, hpass, hk, hopen, hserved, List.isEmpty_iff, if_neg hreck, if_neg (Nat.not_lt.2 hreads), hplan,
    Bool.not_true, Bool.or_self, Bool.false_eq_true, if_false]

theorem execSegmentRewrite_granted {s : State} {p : Pass} {k : Coll} {g place b : Nat} {rest : List Nat}
    (hpass : s.carry.pass = some p) (hk : s.coll? p.coll = some k) (htodo : p.todo = g :: rest)
    (hclosed : p.planClosed = true) (hnone : p.rewrite = none) (hgrant : s.rewriteGranted p = true)
    (hslot : s.carryWrites = true) (hserved : s.carryServed = true) (hreck : s.reckoners ≠ [])
    (hreads : s.rewriteNeed k p g ≤ s.carry.credit) (hchecks : s.segmentChecks k g = true)
    (hplace : s.placeFor k g place = some b) :
    execSegmentRewrite place s = .next (s.rewriteSegment k p g b).spend := by
  simp only [execSegmentRewrite, hpass, htodo, hk, hclosed, hnone, hgrant, hslot, hserved, List.isEmpty_iff, if_neg hreck,
    if_neg (Nat.not_lt.2 hreads), hchecks, hplace, Option.isSome_none, Bool.not_true, Bool.or_self, Bool.false_eq_true, if_false]

/-- The pass has a rewrite of this segment at this place. -/
def State.Rewriting (g b : Nat) (s : State) : Prop :=
  ∃ r w, s.carry.pass = some r ∧ r.rewrite = some w ∧ w.segment = g ∧ w.bNode = b

/-- What becomes durable of a rewrite does not move it. -/
theorem State.Rewriting.rewriteDurable {s : State} {g b : Nat} (h : s.Rewriting g b) (n : Nat) :
    (s.rewriteDurable n).Rewriting g b := by
  obtain ⟨p, w, hpass, hw, hg, hb⟩ := h
  have kept : s.Rewriting g b := ⟨p, w, hpass, hw, hg, hb⟩
  unfold State.rewriteDurable
  split
  · next q k hq _ =>
    obtain rfl : p = q := Option.some.inj (hpass.symm.trans hq)
    simp only [hw]
    split_ifs
    · exact kept
    · exact ⟨_, _, rfl, rfl, hg, hb⟩
    · exact ⟨_, _, rfl, rfl, hg, hb⟩
    · exact kept
    · exact ⟨_, _, rfl, rfl, hg, hb⟩
  · exact kept

theorem State.rewriteSegment_rewriting (s : State) (k : Coll) (p : Pass) (g b : Nat) :
    (s.rewriteSegment k p g b).Rewriting g b := by
  unfold State.rewriteSegment
  extract_lets read p' d issued gen ids mine old emptied retiring f tiles w
  refine State.Rewriting.rewriteDurable ?_ k.num
  obtain ⟨v, hv⟩ := (read.setPass (some ({ p' with rewrite := some w, restarted := false }.raise f))).askTiles_only
    (.carry k.num) none k.part tiles
  rw [hv]
  exact ⟨_, _, rfl, rfl, rfl, rfl⟩

/-! ### The directory through a switch (06 R162)

A switch changes a collection in many small steps, of which one alone adds to its directory. `State.HasDir n ds t` is what the
others keep. -/

/-- Collection `n` has the directory `ds`, in tick `t`. -/
def State.HasDir (n : Nat) (ds : List DirEntry) (t : Tick) (s : State) : Prop :=
  s.now = t ∧ ∃ k, s.coll? n = some k ∧ k.dir = ds

namespace State.HasDir

variable {n : Nat} {ds : List DirEntry} {t : Tick} {s u : State} {c : Prop} {_ : Decidable c} {α : Type}

theorem ite (hs : s.HasDir n ds t) (hu : u.HasDir n ds t) : (if c then s else u).HasDir n ds t := by
  split
  · exact hs
  · exact hu

theorem foldl {f : State → α → State} {l : List α} (h : s.HasDir n ds t)
    (hf : ∀ {s : State} (x : α), s.HasDir n ds t → (f s x).HasDir n ds t) : (l.foldl f s).HasDir n ds t :=
  List.foldlRecOn l f h fun _ hs x _ => hf x hs

/-- A state with the same collections in the same tick. -/
theorem same (h : s.HasDir n ds t) (hcolls : u.colls = s.colls) (hclk : u.clk = s.clk) : u.HasDir n ds t := by
  simpa only [State.HasDir, State.now, State.coll?, hcolls, hclk] using h

/-- A change of a collection that keeps its number and its directory. -/
theorem modColl {m : Nat} {f : Coll → Coll} (h : s.HasDir n ds t) (hnum : ∀ k, (f k).num = k.num)
    (hdir : ∀ k, (f k).dir = k.dir) : (s.modColl m f).HasDir n ds t := by
  obtain ⟨hnow, k, hk, rfl⟩ := h
  by_cases hm : m = n
  · subst hm
    exact ⟨hnow, f k, State.coll?_modColl hk hnum, hdir k⟩
  · refine ⟨hnow, k, (find_mapWhere_other fun x hx => ?_).trans hk, rfl⟩
    simpa [hnum, of_decide_eq_true hx] using hm

/-- A change that puts an entry first. -/
theorem consDir {f : Coll → Coll} {P : DirEntry → Prop} (h : s.HasDir n ds t) (hnum : ∀ k, (f k).num = k.num)
    (hdir : ∀ k, ∃ d, (f k).dir = d :: k.dir ∧ P d) : ∃ d, (s.modColl n f).HasDir n (d :: ds) t ∧ P d := by
  obtain ⟨hnow, k, hk, rfl⟩ := h
  obtain ⟨d, hd, hP⟩ := hdir k
  exact ⟨d, ⟨hnow, f k, State.coll?_modColl hk hnum, hd⟩, hP⟩

theorem logChange {coll m : Nat} {b : Bool} {o : Nat} (h : s.HasDir n ds t) : (s.logChange coll m b o).HasDir n ds t :=
  h.same rfl rfl

theorem putGen {coll m g : Nat} (h : s.HasDir n ds t) : (s.putGen coll m g).HasDir n ds t := by
  unfold State.putGen
  split
  · exact h
  · exact h.logChange.modColl (fun _ => rfl) fun _ => rfl

theorem untomb {coll m : Nat} (h : s.HasDir n ds t) : (s.untomb coll m).HasDir n ds t := by
  unfold State.untomb
  split
  · exact h
  · exact .ite (h.logChange.modColl (fun _ => rfl) fun _ => rfl) h

theorem tombstone {coll m : Nat} (h : s.HasDir n ds t) : (s.tombstone coll m).HasDir n ds t := by
  unfold State.tombstone
  split
  · exact h
  · exact .ite h (h.logChange.modColl (fun _ => rfl) fun _ => rfl)

theorem retireNodes {coll : Nat} {ns : List Nat} (h : s.HasDir n ds t) : (s.retireNodes coll ns).HasDir n ds t :=
  (h.foldl fun _ h => h.tombstone).modColl (fun _ => rfl) fun _ => rfl

theorem enterMap {coll : Nat} {e : MapEntry} (h : s.HasDir n ds t) : (s.enterMap coll e).HasDir n ds t := by
  unfold State.enterMap
  split
  · exact h
  · exact h.modColl (fun _ => rfl) fun _ => rfl

theorem pinEntrySet {k : Coll} (h : s.HasDir n ds t) : (s.pinEntrySet k).HasDir n ds t := h.same rfl rfl

theorem leaveDeletes {m g : Nat} (h : s.HasDir n ds t) : (s.leaveDeletes m g).HasDir n ds t := h.same rfl rfl

theorem ccount {m sub i : Nat} (h : s.HasDir n ds t) : (s.ccount m sub i).HasDir n ds t := h.same rfl rfl

theorem fillBlocks {use : SysUse} {make : Nat → Bytes} (h : s.HasDir n ds t) : (s.fillBlocks use make).HasDir n ds t :=
  h.same rfl rfl

theorem askGrant {kind : GrantKind} {media : Bool} {units : Nat} {cid : Option Nat} (h : s.HasDir n ds t) :
    (s.askGrant kind media units cid).HasDir n ds t := h.same rfl rfl

theorem askBlock {use : SysUse} {cid : Option Nat} {make : Nat → Bytes} (h : s.HasDir n ds t) :
    (s.askBlock use cid make).HasDir n ds t := h.same rfl rfl

theorem askBuckets {old : Coll} (h : s.HasDir n ds t) : (s.askBuckets old).HasDir n ds t := by
  unfold State.askBuckets
  split
  · exact h
  · next k _ =>
    obtain ⟨w, hw⟩ := s.askTiles_only .alone none k.part (k.bucketsChanged old)
    rw [hw]
    exact h.same rfl rfl

theorem askSlices {k : Coll} {g : Nat} (h : s.HasDir n ds t) : (s.askSlices k g).HasDir n ds t := by
  obtain ⟨w, hw⟩ := s.dropBlocks_only (fun u => decide (u = .slice k.num g))
  unfold State.askSlices
  rw [hw]
  exact State.HasDir.foldl (h.same rfl rfl) fun _ h => h.askBlock

theorem switchBlocks {old : Coll} {g : Nat} (h : s.HasDir n ds t) : (s.switchBlocks old g).HasDir n ds t := by
  unfold State.switchBlocks
  split
  · exact h
  · extract_lets s1 stale gone s2
    have h1 : s1.HasDir n ds t := by
      unfold s1
      split
      · exact h.fillBlocks
      · exact h
    have h2 : s2.HasDir n ds t := .ite (h1.fillBlocks.foldl fun _ h => h.askGrant) h1
    exact h2.askBuckets.askSlices

end State.HasDir

/-- A switch puts the entry of the rewritten segment first in the directory, with the tick of the switch. -/
theorem State.switchSegment_dir {s : State} {p : Pass} {w : Rewrite} {k0 : Coll} (hk0 : s.coll? p.coll = some k0) :
    ∃ d, (s.switchSegment p w).HasDir p.coll (d :: k0.dir) s.now
      ∧ d.segment = w.segment ∧ d.bNode = w.bNode ∧ d.switchTick = s.now := by
  have h : s.HasDir p.coll k0.dir s.now := ⟨rfl, k0, hk0, rfl⟩
  unfold State.switchSegment
  split
  · next hnone => exact absurd (hk0.symm.trans hnone) (by simp)
  next k hk =>
  obtain rfl : k0 = k := Option.some.inj (hk0.symm.trans hk)
  extract_lets n here item deleted s1 s2 s3 s4 top issued skipped skipped' s5 reborn s6 t s7 entries s8 s9
  have h4 : s4.HasDir n k0.dir s.now := (((h.foldl fun _ h => h.putGen.untomb).foldl fun _ h => h.putGen).foldl
    fun _ h => h.tombstone).retireNodes
  have h5 : s5.HasDir n k0.dir s.now := h4.foldl fun _ h => by
    split
    · exact h.enterMap
    · exact h
  have h6 : s6.HasDir n k0.dir s.now := h5.modColl (fun _ => rfl) fun _ => rfl
  have ht : t = s.now := h6.1
  obtain ⟨d, h7, hd⟩ : ∃ d, s7.HasDir n (d :: k0.dir) s.now
      ∧ d.segment = w.segment ∧ d.bNode = w.bNode ∧ d.switchTick = s.now :=
    h6.consDir (fun _ => rfl) fun k => ⟨_, rfl, rfl, rfl, ht⟩
  have h8 : s8.HasDir n (d :: k0.dir) s.now := .ite (h7.modColl (fun _ => rfl) fun _ => rfl) h7
  have h9 : s9.HasDir n (d :: k0.dir) s.now := by
    unfold s9
    split
    · exact .ite h8.pinEntrySet h8
    · exact h8
  exact ⟨d, h9.leaveDeletes.switchBlocks.ccount, hd⟩

/-- With its entry durable, no search admitted ahead of it in its tick, and room in the change log, a switch takes place. -/
theorem execDirectorySwitch_durable {s : State} {p : Pass} {w : Rewrite} {n : Tick} (hpass : s.carry.pass = some p)
    (hw : p.rewrite = some w) (hwritten : w.written = some n) (htick : n < s.now) (hup : s.up = true)
    (hrun : s.stopped = false) (hlate : ∀ x ∈ s.searches, ¬ (x.coll = p.coll ∧ x.began = true ∧ x.admTick = s.now))
    (hroom : s.switchRoom p w = true) : execDirectorySwitch s = .next (s.takeSwitch p w) := by
  have hnone : (s.searches.any fun x => decide (x.coll = p.coll) && x.began && decide (x.admTick = s.now)) = false :=
    List.any_eq_false.2 fun x hx => by simpa [and_assoc] using hlate x hx
  simp only [execDirectorySwitch, hpass, hw, hwritten, htick, hup, hrun, hnone, hroom, decide_true, Bool.not_false,
    Bool.and_self, Bool.not_true, Bool.false_eq_true, if_false, if_true]

/-- Settles O24: PLAN by `State.closePlan_pass`, SEGMENT_REWRITE by `State.rewriteSegment_rewriting`, DIRECTORY_SWITCH by
`State.switchSegment_dir`. -/
theorem carryRowsWork : Obligations.CarryRowsWork := by
  unfold Obligations.CarryRowsWork
  intro s p k hpass hk
  refine ⟨?_, ?_, ?_⟩
  · intro hopen hserved hreck hreads q s' hplan
    exact ⟨_, execPlan_granted hpass hk hopen hserved hreck hreads hplan, rfl, s'.spend.closePlan_pass k q⟩
  · intro g rest place b htodo hclosed hnone hgrant hslot hserved hreck hreads hchecks hplace
    exact ⟨_, execSegmentRewrite_granted hpass hk htodo hclosed hnone hgrant hslot hserved hreck hreads hchecks hplace, rfl,
      s.rewriteSegment_rewriting k p g b⟩
  · intro w n hw hwritten htick hup hrun hlate hroom
    refine ⟨execDirectorySwitch_durable hpass hw hwritten htick hup hrun hlate hroom, fun k0 hk0 => ?_⟩
    obtain ⟨d, ⟨-, k', hk', hdir⟩, hentry⟩ := State.switchSegment_dir (w := w) hk0
    exact ⟨k', d, hk', hdir, hentry⟩

/-! ### Releases (06 R151, R164; 03 R53, R73) -/

theorem State.removeColl_self (s : State) (k : Coll) : (s.removeColl k).coll? k.num = none := by
  simp [State.coll?, State.removeColl_colls]

theorem State.removeColl_other (s : State) {k : Coll} {m : Nat} (hm : m ≠ k.num) : (s.removeColl k).coll? m = s.coll? m := by
  have hkeep (c : Coll) : decide (decide (c.num ≠ k.num) = true ∧ decide (c.num = m) = true) = decide (c.num = m) := by
    by_cases hc : c.num = m
    · simp [hc, hm]
    · simp [hc]
  simp only [State.coll?, State.removeColl_colls, List.find?_filter, hkeep]

theorem execTileRelease_kept {s : State} {n : Fin 64} {k : Coll} (hk : s.coll? n = some k) (hstate : k.state ≠ 3) :
    execTileRelease n s = .next ((s.releasable k).foldl (fun t d => t.releaseEntry n d) s) := by
  simp only [execTileRelease, hk, if_neg hstate]

theorem execTileRelease_dropped {s : State} {n : Fin 64} {k : Coll} (hk : s.coll? n = some k) (hstate : k.state = 3)
    (hsnap : s.snapshotBefore k.dropTick = false) (hdies : ∀ p ∈ k.parts, s.diesBusy p.1 p.2 = false) :
    execTileRelease n s = .next (s.removeColl k) := by
  have hidle : (k.parts.any fun p => s.diesBusy p.1 p.2) = false := List.any_eq_false.2 fun p hp => by simp [hdies p hp]
  simp only [execTileRelease, hk, hstate, hsnap, hidle, Bool.or_self, Bool.false_eq_true, if_false, if_true]

/-- Settles O25: ITEM_RELEASE is one change of its collection; TILE_RELEASE by the lemma of the collection's state. -/
theorem releaseRows : Obligations.ReleaseRows := by
  unfold Obligations.ReleaseRows
  intro s n
  refine ⟨rfl, ?_, ?_⟩
  · exact fun k => execTileRelease_kept
  · intro k hk hstate hsnap hdies
    have hnum := State.coll?_num hk
    refine ⟨execTileRelease_dropped hk hstate hsnap hdies, ?_, fun m hm => ?_⟩
    · exact hnum ▸ s.removeColl_self k
    · exact s.removeColl_other (hnum.symm ▸ hm)

end Sys2Proof.Machine
end

section
namespace Sys2Proof.Machine

/-! ### The tile instructions that compute (09 R218, R223; 11 R287) -/

section
variable {s : State} {f op : Nat} {clocks : TileInstr → Nat} {go : State → FrameCtx → ModelPkg → TileInstr → TileEffect}
  {c : FrameCtx} {pkg : ModelPkg} {t : TileInstr} (hat : s.atInstr f op = some (c, pkg, t)) (hwait : c.wait = .none)
include hat hwait

/-- An operation that gives a result steps on from it. -/
theorem State.runTile_applies {s' : State} {c' : FrameCtx} (hgo : go s c pkg t = some (s', c')) :
    s.runTile f op clocks go = s'.stepOn (c'.afterTile t) t (clocks t) := by
  simp only [State.runTile, hat, hwait, ne_eq, not_true_eq_false, if_false, hgo, FrameCtx.afterTile]

/-- An operation without a result is charged to the step, which runs on. -/
theorem State.runTile_faults (hgo : go s c pkg t = none) : s.runTile f op clocks go
    = (s.chargeStep c.handle c.part Status.programFault).stepOn (c.afterTile t) t (clocks t) := by
  simp only [State.runTile, hat, hwait, ne_eq, not_true_eq_false, if_false, hgo, FrameCtx.afterTile]

end

/-- Each computing row runs its own operation, at its own clocks, on the instruction of its op code. -/
theorem exec_tileRow (s : State) (f : Fin 16) :
    ∀ r ∈ tileRows f, exec r.1 s = .next (s.runTile f r.2.1 r.2.2.1 r.2.2.2) := by
  simp only [tileRows, List.forall_mem_cons]
  exact ⟨rfl, rfl, rfl, rfl, rfl, rfl, rfl, rfl, rfl, List.forall_mem_nil _⟩

/-- Stepping on touches the contexts, the frame's busy clocks, the partition's use and the count of instructions only. -/
theorem State.stepOn_frame (s : State) (c : FrameCtx) (t : TileInstr) (n : Nat) : s.stepOn c t n =
    { s with tensor := (s.stepOn c t n).tensor, shares := (s.stepOn c t n).shares, dict := (s.stepOn c t n).dict } := rfl

/-- Settles O26: each row is `State.runTile` of its operation (`exec_tileRow`), with a result or a fault; stepping on by
`State.stepOn_frame`. -/
theorem tileRowsRun : Obligations.TileRowsRun := by
  unfold Obligations.TileRowsRun
  refine ⟨fun s f c pkg t r hr hat hwait => ?_, fun s c t n => ⟨_, rfl, s.stepOn_frame c t n, rfl, rfl, rfl, rfl⟩⟩
  rw [exec_tileRow s f r hr]
  exact ⟨fun s' c' hgo => congrArg _ (State.runTile_applies hat hwait hgo),
    fun hgo => congrArg _ (State.runTile_faults hat hwait hgo)⟩

/-! ### The tile instructions that wait (09 R220, R233; 10 R253, R254) -/

theorem execRotate_ready {s : State} {f : Fin 16} {c : FrameCtx} {pkg : ModelPkg} {t : TileInstr}
    (hat : s.atInstr f TOp.rotate = some (c, pkg, t)) (hwait : c.wait = .none ∨ c.wait = .rotate)
    (hready : s.rotateReady c (s.nextFrame c.part c.frame) = true) :
    execRotate f s = .next (s.rotate c pkg t (s.nextFrame c.part c.frame)) := by
  simp only [execRotate, hat, if_pos hwait, hready, if_true]

section
variable {s : State} {f : Fin 16} {c : FrameCtx} {pkg : ModelPkg} {t : TileInstr} {x : Stream}
  (hat : s.atInstr f TOp.stream = some (c, pkg, t)) (hx : c.streams[t.imm]? = some x)
include hat hx

theorem execStreamSwap_ready (hsub : t.sub = 0) (hwait : c.wait = .none ∨ c.wait = .swap t.imm) (hswap : x.canSwap = true) :
    execStreamSwap f s = .next (s.stepOn (c.setStream t.imm (s.swap c pkg t.imm x)) t 0) := by
  have hhere : (decide (t.sub = 0) && (decide (c.wait = .none) || decide (c.wait = .swap t.imm))) = true := by simp [hsub, hwait]
  simp only [execStreamSwap, hat, hhere, if_true, State.trySwap, hx, hswap]

/-- A read stream that is armed again takes no pool tile. -/
theorem execStreamReArm_ready (hsub : t.sub = 1) (hwait : c.wait = .none ∨ c.wait = .reArm t.imm)
    (hpers : x.prog.persistent = true) (hread : x.prog.write = false) (harm : x.canReArm = true) :
    execStreamReArm f s = .next (s.stepOn (c.setStream t.imm (x.prog.arm t.a)) t 0) := by
  have hhere : (decide (t.sub = 1) && (decide (c.wait = .none) || decide (c.wait = .reArm t.imm))) = true := by simp [hsub, hwait]
  have hstays : (x.prog.arm t.a).prog.write = false := hread
  simp only [execStreamReArm, hat, hhere, if_true, State.tryReArm, hx, hpers, harm, hstays, Bool.not_true, Bool.false_eq_true,
    if_false]

end

theorem execSync_reached {s : State} {f : Fin 16} {c : FrameCtx} {pkg : ModelPkg} {t : TileInstr}
    (hat : s.atInstr f TOp.sync = some (c, pkg, t)) (hwait : c.wait = .none) :
    execSync f s = .next ((s.setCtx { c with wait := .sync t.imm, atSave := false, rotateFree := true }).passSync c.handle c.part
      t.imm pkg.prog.code) := by
  simp only [execSync, hat, if_pos hwait]

/-- The step ends on a frame at END, and past the last instruction (log entry 52). -/
theorem execEndStep_here {s : State} {f : Fin 16} {c : FrameCtx} {m : Model} (hc : s.frameCtx f = some c)
    (hm : s.model? c.handle = some m) (hup : s.up = true) (hwait : c.wait = .none)
    (hend : ∀ i, m.pkg.prog.code[c.pc]? = some i → i.op = TOp.end_) :
    execEndStep f s = .next ((s.count 0x5800 3 1).endFrame c) := by
  cases hcode : m.pkg.prog.code[c.pc]? with
  | none => simp only [execEndStep, hc, hm, hcode, hup, hwait, decide_true, Bool.and_self, if_true]
  | some i => simp only [execEndStep, hc, hm, hcode, hend i hcode, hup, hwait, decide_true, Bool.and_self, if_true]

/-- Settles O27: each row by the lemma that says what it does when what it waits for is there. -/
theorem waitingTileRows : Obligations.WaitingTileRows := by
  unfold Obligations.WaitingTileRows
  intro s f c pkg t m x
  refine ⟨execRotate_ready, ?_, ?_, execSync_reached, execEndStep_here⟩
  · exact fun hat hsub hwait hx => execStreamSwap_ready hat hx hsub hwait
  · exact fun hat hsub hwait hx => execStreamReArm_ready hat hx hsub hwait

/-! ### The models' table -/

theorem State.model?_handle {s : State} {h : Nat} {m : Model} (hm : s.model? h = some m) : m.handle = h := by
  simpa using List.find?_some hm

theorem State.model?_modModel {s : State} {h : Nat} {f : Model → Model} {m : Model} (hm : s.model? h = some m)
    (hf : ∀ x, (f x).handle = x.handle) : (s.modModel h f).model? h = some (f m) :=
  find_mapWhere (fun x hx => by simpa [hf] using hx) hm

/-! ### RUN and ENCODE_SEARCH (13 R326, R339; 09 R231, R234) -/

/-- A job of a resident model without a sequence gets one, and holds the model at once. -/
theorem State.askSequence_resident {s : State} {c : Cmd} {m : Model} {tokens e : Nat} {input : Bytes}
    (hres : m.state = .resident) (hmove : s.moveBlocks m = false)
    (hframes : max 1 m.pkg.prog.framesMin ≤ (s.partFrames c.part).length)
    (hseqs : ∀ q ∈ s.tensor.seqs, q.cid = c.cid → q.mark = .dead) (hfree : s.freeEntry? = some e) :
    s.askSequence c m tokens input = (s.addSeq e c m tokens none false input).takeHold c m.handle := by
  have hnone : (s.tensor.seqs.any fun q => decide (q.cid = c.cid) && decide (q.mark ≠ .dead)) = false :=
    List.any_eq_false.2 fun q hq => by simpa using hseqs q hq
  have hmove' : (s.addSeq e c m tokens none false input).moveBlocks m = false := hmove
  simp only [State.askSequence, hres, reduceCtorEq, if_false, if_neg (Nat.not_lt.2 hframes), hnone, Bool.false_eq_true, hfree,
    hmove', and_self, if_true]

theorem execRun_entry {s : State} {cid : Nat} {inbuf : Bytes} {c : Cmd} {m : Model} (hc : s.ready? cid Op.run = some c)
    (hm : s.model? (c.field 32 2) = some m) (hentry : s.hasEntry cid = true) :
    execRun cid inbuf s = .next (s.askSequence c m (c.field 36 4) (fit c.inLen inbuf)) := by
  simp only [execRun, hc, hm, hentry, if_true]

/-- An ENCODE_SEARCH whose parameters and query are good adds its search and asks for the sequence of its query. -/
theorem execEncodeSearch_good {s : State} {cid : Nat} {inbuf : Bytes} {c : Cmd} {m : Model} {k : Coll} {p : WalkParams}
    {x : Search} (hx : x = s.fillQuery (newSearch { c with inbuf := inbuf } k 0 p .encoding) { c with inbuf := inbuf } k)
    (hc : s.ready? cid Op.encodeSearch = some c) (hk : s.coll? c.collByte = some k) (hm : s.model? (c.field 48 2) = some m)
    (hp : s.searchParams c k = some p) (hentry : s.hasEntry cid = true) (henc : m.encodes k = true)
    (hnew : s.search? cid 0 = none) (hq : x.queryOk k = true) :
    execEncodeSearch cid inbuf s = .next
      ((({ s with searches := s.searches ++ [x] } : State).modCmd cid (fun d => { d with inbuf := inbuf })).askSequence
        { c with inbuf := inbuf } m (c.field 54 2) ((fit c.inLen inbuf).take (m.inputLen (c.field 54 2)))) := by
  subst hx
  simp only [execEncodeSearch, hc, hk, hm, hp, hentry, henc, hq, hnew, Option.isSome_none, Bool.not_true, Bool.or_self,
    Bool.false_eq_true, if_false]

/-! ### The end of a load (09 R231, R232) -/

theorem State.pokeTiles_frame (s : State) (a : Nat) (ts : List Bytes) :
    s.pokeTiles a ts = { s with mem := (s.pokeTiles a ts).mem } := by
  induction ts generalizing s a with
  | nil => rfl
  | cons t ts ih => exact ih (s.poke a t) (a + 4096)

/-- The state once the tiles of a model's load stand in HBM and its grant, if it has one, is released. -/
def State.tilesLoaded (s : State) (m : Model) : State :=
  m.loadGrant.elim (s.pokeTiles m.hbmBase m.tiles) (s.pokeTiles m.hbmBase m.tiles).endGrant

theorem State.tilesLoaded_frame (s : State) (m : Model) :
    ∃ w, s.tilesLoaded m = { s with mem := (s.pokeTiles m.hbmBase m.tiles).mem, pwr := w } := by
  have hpoked := s.pokeTiles_frame m.hbmBase m.tiles
  cases hgrant : m.loadGrant with
  | none =>
    rw [State.tilesLoaded, hgrant]
    exact ⟨_, hpoked⟩
  | some g =>
    rw [State.tilesLoaded, hgrant]
    exact ⟨_, congrArg (State.endGrant · g) hpoked⟩

/-- The state once a model's load is over: the model is resident, and the load and its time are counted. -/
def State.madeResident (s : State) (m : Model) (h : Nat) : State :=
  let s := s.tilesLoaded m
  ((s.count 0x5810 4 1).setObj 0x5810 7 0 ((s.now - m.loadStart) % 2 ^ 32)).modModel h (fun m => { m with
    state := .resident, loadGrant := none, lastRelease := s.now })

theorem State.madeResident_frame (s : State) (m : Model) (h : Nat) : ∃ w d l, s.madeResident m h = { s with
    mem := (s.pokeTiles m.hbmBase m.tiles).mem, pwr := w, dict := d
    tensor := { s.tensor with models := mapWhere (fun m => decide (m.handle = h)) l s.tensor.models } } := by
  obtain ⟨w, hw⟩ := s.tilesLoaded_frame m
  exact ⟨w, _, _, by simp only [State.madeResident, hw]; rfl⟩

theorem State.model?_madeResident {s : State} {h : Nat} {m : Model} (hm : s.model? h = some m) :
    (s.madeResident m h).model? h = some { m with state := .resident, loadGrant := none, lastRelease := s.now } := by
  obtain ⟨w, hw⟩ := s.tilesLoaded_frame m
  simp only [State.madeResident, hw]
  exact State.model?_modModel hm fun _ => rfl

theorem State.waitingFor_madeResident (s : State) (m : Model) (h k : Nat) : (s.madeResident m h).waitingFor k = s.waitingFor k := by
  obtain ⟨w, d, l, heq⟩ := s.madeResident_frame m h
  rw [heq]
  rfl

/-- A load whose grant is given, and for which no command waits, makes its model resident and does no more. -/
theorem execLoadComplete_granted {s : State} {h : Fin 1024} {m : Model} {g : Grant} (hm : s.model? h = some m)
    (hstate : m.state = .loading) (hg : s.grantOf (.modelLoad h) = some g) (hgranted : g.granted = true)
    (hkept : g.releasing = false) (hnobody : s.waitingFor h = []) : execLoadComplete h s = .next (s.madeResident m h) := by
  have hnobody' := (s.waitingFor_madeResident m h h).trans hnobody
  cases hgrant : m.loadGrant <;>
    simp only [State.madeResident, State.tilesLoaded, hgrant, Option.elim] at hnobody' <;>
    simp only [execLoadComplete, hm, hstate, hg, hgranted, hkept, State.madeResident, State.tilesLoaded, hgrant, Option.elim,
      hnobody', Bool.not_false, Bool.and_self, decide_true, if_true, List.foldl_nil, List.filter_nil, List.isEmpty_nil]

/-! ### Reloading a block (18 R466) -/

theorem execReload_flash {s : State} {h : Fin 1024} {b first n : Nat} {m : Model} (hm : s.model? h = some m)
    (hres : m.isResident = true) (hb : b < ((decodeBlocks m.packed.length m.packed).getD []).length)
    (hspan : blockSpan ((decodeBlocks m.packed.length m.packed).getD []) b = (first, n)) :
    execReload h b true s = .next ((s.pokeTiles (m.hbmBase + 4096 * first) ((m.tiles.drop first).take n)).modModel h (fun m =>
      { m with reloading := m.reloading.filter (fun x => decide (x ≠ b)) })) := by
  simp only [execReload, hm, hres, hb, hspan, decide_true, Bool.and_self, if_true]

/-- Settles O29: RUN by `State.askSequence_resident`, ENCODE_SEARCH by `execEncodeSearch_good`, LOAD_COMPLETE by the laws of
`State.madeResident`, RELOAD by `execReload_flash`. -/
theorem modelRowsRun : Obligations.ModelRowsRun := by
  unfold Obligations.ModelRowsRun
  refine ⟨fun s cid inbuf c m k p => ⟨?_, execEncodeSearch_good rfl⟩, ?_, fun s h b first n m => execReload_flash⟩
  · intro hc hm hentry hres hmove hframes hseqs e hfree
    exact (execRun_entry hc hm hentry).trans
      (congrArg _ (State.askSequence_resident hres hmove hframes hseqs hfree))
  · intro s h m g hm hstate hg hgranted hkept hnobody
    obtain ⟨w, d, l, hframe⟩ := s.madeResident_frame m h
    exact ⟨_, execLoadComplete_granted hm hstate hg hgranted hkept hnobody, by rw [hframe], by rw [hframe],
      State.model?_madeResident hm⟩

/-! ### Step boundary, save and restore (09 R235, R236; 11 R277-R280) -/

/-- Once a step has ended none of its contexts is left. -/
theorem State.stepCtxs_stepEnded (s : State) (m : Model) (h p : Nat) : (s.stepEnded m h p).stepCtxs h p = [] := by
  simp only [State.stepCtxs, State.stepEnded, List.filter_filter, Bool.and_not_self, List.filter_false]

theorem execStepBoundary_ended {s s' : State} {h : Fin 1024} {p : Fin 16} {m : Model} {waits : Bool} (hm : s.model? h = some m)
    (hup : s.up = true) (hended : ∀ x ∈ s.stepCtxs h p, x.wait = .ended)
    (hframes : max 1 m.pkg.prog.framesMin ≤ ((s.stepEnded m h p).partFrames p).length)
    (hjoin : State.joinAll m p (s.stepEnded m h p) ((s.stepEnded m h p).joinable h p) = (s', waits)) :
    execStepBoundary h p s = .next ((if waits then s'.count 0x5800 7 1 else s').deal m p) := by
  have hall : ((s.stepCtxs h p).all fun c => decide (c.wait = .ended)) = true := by simpa using hended
  unfold State.stepEnded at hframes hjoin
  simp only [execStepBoundary, hm, hup, hall, Bool.and_self, if_true, if_neg (Nat.not_lt.2 hframes), hjoin]

/-- At a pre-emption point where another context is chosen, and with nothing to wait for, the running one is saved. -/
theorem execSave_chosen {s v : State} {f : Fin 16} {m : Model} {c d : FrameCtx} (hc : s.noteReady.frameCtx f = some c)
    (hm : s.noteReady.model? c.handle = some m) (hd : s.noteReady.choose f = some d) (hup : s.noteReady.up = true)
    (hpoint : c.atPoint = true) (hkeeps : s.noteReady.keeps c d = false) (hholds : c.streams.any Stream.holdsSave = false)
    (hv : v = c.streams.zipIdx.foldl (fun s x => s.strand c x.2 x.1) s.noteReady) :
    execSave f s = .next ((((((v.setCtx (v.saveCtx c m.pkg.prog)).chargeClocks c 9216).setRunning f none).count 0x2100 7
      1).releaseStep c.handle c.part).fillFrame f) := by
  simp only [execSave, hc, hm, hd, hup, hpoint, hkeeps, hholds, hv, Bool.not_true, Bool.or_self, Bool.false_eq_true, if_false]

/-- A frame with nothing running arms the saved context it chooses. -/
theorem execRestore_chosen {s : State} {f : Fin 16} {m : Model} {c : FrameCtx} (hup : s.noteReady.up = true)
    (hunit : s.noteReady.unitIn (unitFrame f) = true) (hidle : s.noteReady.tensor.running.getD f none = none)
    (hc : s.noteReady.choose f = some c) (hm : s.noteReady.model? c.handle = some m) (hsaved : c.saved = true) :
    execRestore f s = .next
      (let s' := s.noteReady.reloadSram f c.savedSram
       let c' := s'.growWrites { c with saved := false, savedSram := [], runSince := s'.now, clocks := c.clocks + 9216 } m.pkg
       (((s'.setCtx c').chargeClocks c' 9216).setRunning f (some (c.handle, c.part))).applyAnswers f) := by
  simp only [execRestore, hup, hunit, hidle, hc, hm, hsaved, Bool.not_true, ne_eq, not_true_eq_false, decide_false, Bool.or_self,
    Bool.false_eq_true, if_false, if_true]

/-- Settles O31: STEP_BOUNDARY by `execStepBoundary_ended` and `State.stepCtxs_stepEnded`, SAVE and RESTORE each by the lemma of
its row. -/
theorem stepRows : Obligations.StepRows := by
  unfold Obligations.StepRows
  intro s h p f m c d
  refine ⟨?_, ?_, ?_⟩
  · exact fun s' waits hm hup hended hframes hjoin =>
      ⟨execStepBoundary_ended hm hup hended hframes hjoin, s.stepCtxs_stepEnded m h p⟩
  · rintro _ v rfl
    exact execSave_chosen
  · rintro _ rfl
    exact execRestore_chosen

end Sys2Proof.Machine
end

section
namespace Sys2Proof.Machine

/-! ### The stream instructions (10 R250, R251, R256) -/

/-- An instruction that only changes its stream replaces it in the context. -/
theorem State.runStream_at {s : State} {f i op : Nat} {c : FrameCtx} {pkg : ModelPkg} {x : Stream} {t : StreamInstr}
    (go : Stream → StreamInstr → Stream) (hat : s.atStream f i op = some (c, pkg, x, t)) :
    s.runStream f i op go = s.setCtx (c.setStream i (go x t)) := by
  simp only [State.runStream, hat]

/-- Each of these rows runs its own change on the instruction of its op code. -/
theorem exec_streamRow (s : State) (f i : Fin 16) :
    ∀ r ∈ streamRows f i, exec r.1 s = .next (s.runStream f i r.2.1 r.2.2) := by
  simp only [streamRows, List.forall_mem_cons]
  exact ⟨rfl, rfl, rfl, rfl, rfl, List.forall_mem_nil _⟩

/-- A segment that could be issued and whose turn it is is generated. -/
theorem execStreamEmit_turn {s s' : State} {f i : Fin 16} {c : FrameCtx} {pkg : ModelPkg} {x : Stream} {t : StreamInstr}
    {r : SegReady} (hready : s.segReady f i = some (c, pkg, x, t, r)) (hturn : s.takeTurn r = some s') :
    execStreamEmit f i s = .next (s'.emit i t.count c pkg x) := by
  simp only [execStreamEmit, hready, hturn]

/-- Settles O28: the rows that only change their stream by `exec_streamRow`, STREAM_EMIT by `execStreamEmit_turn`. -/
theorem streamRowsStep : Obligations.StreamRowsStep := by
  unfold Obligations.StreamRowsStep
  intro s f i c pkg x t
  refine ⟨fun r hr hat => ?_, fun r s' => execStreamEmit_turn⟩
  exact (exec_streamRow s f i r hr).trans (congrArg _ (State.runStream_at r.2.2 hat))

/-! ### Delivery of a tile (10 R245, R251, R263) -/

/-- A range of HBM without a shadow is read where it stands. -/
theorem State.readTier_hbm {s : State} {a n : Nat} (hshadow : s.shadowAt a n = none) (htier : tierOf a = some 1) :
    s.readTier a n = (.bytes (s.peek a n), s) := by
  simp [State.readTier, hshadow, htier]

/-- A stream without CHECK takes any bytes. -/
theorem State.segChecks_unchecked (s : State) (pkg : ModelPkg) {p : StreamProg} (g : SegXfer) (bs : Bytes)
    (hcheck : p.check = false) : s.segChecks pkg p g bs = true := by
  simp [State.segChecks, hcheck]

/-- A tile of one unchecked segment of HBM is copied to its place. -/
theorem State.deliverTile_hbm {s : State} {c : FrameCtx} {pkg : ModelPkg} {x : Stream} {g : SegXfer} {o : Nat}
    (hport : s.segHost c pkg x.prog g.addr = false) (htier : tierOf g.addr = some 1)
    (hshadow : s.shadowAt g.addr x.prog.segBytes = none) (hplace : x.segPlace c g = some o) (hcheck : x.prog.check = false) :
    State.deliverTile c pkg x s [g] = .done (s.poke o (s.peek g.addr x.prog.segBytes)) := by
  have hpass := s.segChecks_unchecked pkg g (s.peek g.addr x.prog.segBytes) hcheck
  simp only [State.deliverTile, hport, State.readTier_hbm hshadow htier, hplace, hpass, Bool.false_eq_true, if_false, if_true]

/-- The state after an attempt to deliver the next tile of a read stream: the tile done, its step ended with
MEDIA_UNCORRECTABLE, or its jobs restarted for a bad tile (18 R453). -/
def State.delivered (s : State) (f i : Nat) (c : FrameCtx) (x : Stream) : Delivery → State
  | .done s' => (s'.setCtx (c.setStream i x.tileDone)).wake f
  | .uncorrectable => ((s.chargeStep c.handle c.part Status.mediaUncorrectable).stopStream c i x).wake f
  | .badCheck g => (s.badTensor c i x g).wake f

section
variable {s : State} {f i : Fin 16} {c : FrameCtx} {m : Model} {x : Stream} {gs : List SegXfer} (hc : s.frameCtx f = some c)
  (hm : s.model? c.handle = some m) (hx : c.streams[i.val]? = some x) (hnext : x.nextTile = some gs)
include hc hm hx hnext

/-- A write stream's tile is stored at once, but for the segments a port carries (log entry 57). -/
theorem execStreamTileArrival_write (hwrite : x.prog.write = true) : execStreamTileArrival f i s =
    .next ((((gs.filter (fun g => !s.segHost c m.pkg x.prog g.addr)).foldl (fun s g => s.putSegment c m.pkg x g) s).setCtx
      (c.setStream i x.tileDone)).wake f) := by
  simp only [execStreamTileArrival, hc, hm, hx, hnext, hwrite, if_true]

/-- A read stream's tile is delivered unless a reload or a rod holds it back (18 R466; 02 R30). -/
theorem execStreamTileArrival_read (hread : x.prog.write = false)
    (hreload : x.prog.check = false ∨ gs.any m.behindReload = false)
    (hrods : ∀ g ∈ gs, s.rodsRead g.asked (if g.asked.isEmpty then 0 else g.issued + s.obj 0x2100 6) = true) :
    execStreamTileArrival f i s = .next (s.delivered f i c x (State.deliverTile c m.pkg x s gs)) := by
  have hfree : ¬ (x.prog.check && gs.any m.behindReload) = true := by
    rcases hreload with h | h <;> simp [h]
  have hall : ¬ (gs.any fun g => !s.rodsRead g.asked (if g.asked.isEmpty then 0 else g.issued + s.obj 0x2100 6)) = true := by
    simpa using hrods
  simp only [execStreamTileArrival, hc, hm, hx, hnext, hread, Bool.false_eq_true, if_false, if_neg hfree, if_neg hall]
  cases State.deliverTile c m.pkg x s gs <;> rfl

end

/-- Settles O32: a write stream by `execStreamTileArrival_write`; a read stream by what `State.deliverTile` comes to, for a
segment of HBM by `State.deliverTile_hbm`. -/
theorem tileArrives : Obligations.TileArrives := by
  unfold Obligations.TileArrives
  intro s f i c m x gs hc hm hx hnext
  refine ⟨fun hwrite => ⟨_, execStreamTileArrival_write hc hm hx hnext hwrite, rfl⟩, ?_, rfl, rfl⟩
  intro hread hreload hrods
  have arrives {d : Delivery} (hd : State.deliverTile c m.pkg x s gs = d) :
      exec (.streamTileArrival f i) s = .next (s.delivered f i c x d) :=
    hd ▸ execStreamTileArrival_read hc hm hx hnext hread hreload hrods
  refine ⟨fun s' => arrives, arrives, fun g => arrives, ?_⟩
  rintro g o rfl hport htier hshadow hplace hcheck
  exact arrives (State.deliverTile_hbm hport htier hshadow hplace hcheck)

/-! ### Page requests of a stream (10 R261) -/

section
variable {s : State} {f i : Nat} {c : FrameCtx} {x : Stream} {t0 : Tick} {pages : List Nat} {pasid : Option Nat}
  (hat : s.pageStream f i = some (c, x)) (hasked : x.page = .asked t0 pages pasid)
include hat hasked

/-- The context that runs comes before those saved. -/
theorem State.groupStream_running : s.groupStream f i = some (c, x) := by
  have hgroup : x.hasGroup = true := by simp only [Stream.hasGroup, hasked]
  simp only [State.groupStream, hat, Option.filter_some, hgroup, if_true]

theorem State.streamPrg_running (code : PrgCode) (hsaved : c.saved = false) :
    s.streamPrg f i code = (if code = .failure then s.blockPri c else s).applyPrg c i x code := by
  simp only [State.streamPrg, State.groupStream_running hat hasked, hsaved, Bool.false_eq_true, if_false]

theorem State.streamPageTimeout_due (hdue : t0 + s.obj 0x5100 6 ≤ s.now) : s.streamPageTimeout f i = s.pageFail c i x := by
  simp only [State.streamPageTimeout, hat, hasked, if_pos hdue]

end

/-! ### Translations of a stream (10 R260, R261) -/

theorem State.streamTranslated_waiting {s : State} {f i : Nat} {c : FrameCtx} {x : Stream} {m : Model} {g : SegXfer}
    {r : Requester} (hat : s.pageStream f i = some (c, x)) (hm : s.model? c.handle = some m)
    (hg : x.flight.find? (fun g => g.waiting) = some g) (hr : s.segWho c m.pkg x.prog g.addr = some r)
    (hpage : x.page = .translating ∨ x.page = .retranslating) (granted : Bool) (data : Bytes) :
    s.streamTranslated f i granted data = s.translated c i m.pkg x g r granted data := by
  simp only [State.streamTranslated, hat, hm, hg, hr, if_pos hpage]

section
variable {s : State} {c : FrameCtx} {i : Nat} {pkg : ModelPkg} {x : Stream} {g : SegXfer} {r : Requester} {page : Nat}
  {data : Bytes} (hlast : g.pages = [page])
include hlast

/-- Access to the last page moves the segment when no page has been refused. -/
theorem State.translated_granted (hkept : g.refused = []) :
    s.translated c i pkg x g r true data =
      ((s.addAtc ⟨r.port.num, r.fn, r.pasid, page, x.prog.write⟩).moveHost c pkg x g data).setCtx
        (c.setStream i { x.setWaiting (fun _ => { g with pages := [], waiting := false }) with page := .none }) := by
  simp [State.translated, SegXfer.answer, hlast, hkept]

/-- A refusal after a page request has been answered fails the request. -/
theorem State.translated_refusedAgain (hagain : x.page = .retranslating) :
    s.translated c i pkg x g r false data = s.pageFail c i x := by
  simp [State.translated, SegXfer.answer, hlast, hagain]

/-- A first refusal is followed by a page request for the page refused. -/
theorem State.translated_asks (hkept : g.refused = []) (hfirst : x.page = .translating)
    (hopen : (s.port r.port).priBlocked.contains r.fn = false) (hroom : s.priRoom r.port r.fn 1 = true) :
    s.translated c i pkg x g r false data =
      (s.setCtx (c.setStream i { x.setWaiting (fun _ => { g with pages := [], refused := [page] }) with
        page := .asked s.now [page] r.pasid })).count 0x5100 4 1 := by
  have hsends : r.fn ∉ (s.port r.port).priBlocked := by simpa using hopen
  simp [State.translated, SegXfer.answer, hlast, hkept, hfirst, hsends, hroom]

end

/-! ### Page requests and translations of a command's buffer (12 R295) -/

section
variable {s : State} {cid : Nat} {c : Cmd} (hc : s.cmd? cid = some c)
include hc

section
variable {t0 : Tick} {pages : List Nat} {pasid : Option Nat} (hasked : c.page = .asked t0 pages pasid)
include hasked

theorem State.bufferPrg_success :
    s.bufferPrg cid .success = s.modCmd cid (fun d => { d with page := .retranslating }) := by
  simp only [State.bufferPrg, hc, hasked]

theorem State.bufferPrg_invalid : s.bufferPrg cid .invalid = s.bufferFail cid := by
  simp only [State.bufferPrg, hc, hasked]

theorem State.bufferPageTimeout_due (hdue : t0 + s.obj 0x5100 6 ≤ s.now) : s.bufferPageTimeout cid = s.bufferFail cid := by
  simp only [State.bufferPageTimeout, hc, hasked, if_pos hdue]

end

/-- The translation of a page of a command's buffer, as the cache holds it (10 R260). -/
def Cmd.translation (c : Cmd) (page : Nat) : AtcEntry :=
  ⟨c.port.num, c.fn, c.pasid, page, !(c.stage = .fetched && opIn c.opcode)⟩

/-- Granted access leaves the command free to go on, and the cache with the translation of every page of its buffer. -/
theorem State.bufferTranslated_granted (hpage : c.page = .none ∨ c.page = .translating ∨ c.page = .retranslating) :
    ∃ l, s.bufferTranslated cid true
        = ({ s with tensor := { s.tensor with atc := l } } : State).modCmd cid (fun d => { d with page := .none })
      ∧ ∀ n ∈ c.bufferPages, c.translation n ∈ l := by
  refine ⟨(s.tensor.atc ++ (c.bufferPages.filter fun n =>
    !s.tensor.atc.any fun e => decide (e = c.translation n)).map c.translation).eraseDups, ?_, fun n hn => ?_⟩
  · rcases hpage with h | h | h <;> simp only [State.bufferTranslated, hc, h, if_true] <;> rfl
  · rw [List.mem_eraseDups, List.mem_append]
    by_cases hcached : c.translation n ∈ s.tensor.atc
    · exact .inl hcached
    · have hlacking : (!s.tensor.atc.any fun e => decide (e = c.translation n)) = true := by
        simpa using fun e he (h : e = c.translation n) => hcached (h ▸ he)
      exact .inr (List.mem_map_of_mem (List.mem_filter.2 ⟨hn, hlacking⟩))

end

/-! ### Invalidations, and the end of a move (10 R244, R262) -/

theorem execAtsInvalidation_takes {s : State} {p : Port} {fn : Fin 64} {addr len : Nat} (htakes : s.takes p = true) :
    execAtsInvalidation p fn addr len s = .next
      (({ s with tensor := { s.tensor with atc := s.tensor.atc.filter (fun e =>
          !(decide (e.port = p.num) && decide (e.fn = fn.val) && decide ((hostBase p + addr) / 4096 ≤ e.page)
            && decide (4096 * e.page < hostBase p + addr + len))) } } : State).count 0x5100 7 1) := by
  unfold State.takes at htakes
  simp only [execAtsInvalidation, htakes, if_true]

section
variable {s : State} {id : Fin 4096} {l : Placement} (hl : s.placement? id = some l) (hup : s.up = true)
  (hmoving : l.moving = true) (hmode : s.obj 0x5000 4 = 0) (hheld : s.placementHeld l = false)
  (hdrained : s.programming (.writeBack l.id) = false)
include hl hup hmoving hmode hheld hdrained

/-- A move to HBM or a host is copied whole at its end (log entry 58). -/
theorem execMoveComplete_copies {bs : Bytes} {s1 : State} (hhome : l.newHome ≠ 2)
    (hread : s.placementBytes l = (some bs, s1)) :
    execMoveComplete id s = .next ((s1.poke l.newBase bs).switchPlacement l) := by
  simp [execMoveComplete, hl, hup, hmoving, hmode, hheld, hdrained, hhome, hread]

/-- A move into flash has been copied tile by tile before its end. -/
theorem execMoveComplete_flash (hhome : l.newHome = 2) (hcopied : l.copied = true)
    (hwhole : s.programming (.move l.id) = false) : execMoveComplete id s = .next (s.switchPlacement l) := by
  simp [execMoveComplete, hl, hup, hmoving, hmode, hheld, hdrained, hhome, hcopied, hwhole]

end

/-- Settles O30: the answers to a stream by `State.streamPrg_running` and the cases of `State.translated`, those to a buffer by
the lemma of each answer, ATS_INVALIDATION and MOVE_COMPLETE each by the lemma of its row. -/
theorem pageRows : Obligations.PageRows := by
  unfold Obligations.PageRows
  refine ⟨?_, ?_, ?_⟩
  · intro s f i c x t0 pages pasid data hat
    refine ⟨fun hasked hsaved => ?_, fun m g r hm hg hr hpage page => ?_⟩
    · have answered (code : PrgCode) : exec (.prgResponse (.frame f) i code) s
          = .next ((if code = .failure then s.blockPri c else s).applyPrg c i x code) :=
        congrArg _ (State.streamPrg_running hat hasked code hsaved)
      exact ⟨answered .success, answered .invalid, answered .failure,
        fun hdue => congrArg _ (State.streamPageTimeout_due hat hasked hdue)⟩
    · have answered (granted : Bool) {t : State} (h : s.translated c i m.pkg x g r granted data = t) :
          exec (.atsTranslationCompletion (.frame f) i granted data) s = .next t :=
        congrArg _ ((State.streamTranslated_waiting hat hm hg hr hpage granted data).trans h)
      exact ⟨fun hlast hkept => answered true (State.translated_granted hlast hkept),
        fun hlast hagain => answered false (State.translated_refusedAgain hlast hagain),
        fun hlast hkept hfirst hopen hroom => answered false (State.translated_asks hlast hkept hfirst hopen hroom)⟩
  · intro s cid i c hc
    refine ⟨fun t0 pages pasid hasked => ?_, fun hpage => ?_⟩
    · exact ⟨congrArg _ (State.bufferPrg_success hc hasked), congrArg _ (State.bufferPrg_invalid hc hasked),
        fun hdue => congrArg _ (State.bufferPageTimeout_due hc hasked hdue)⟩
    · obtain ⟨l, hl, hcached⟩ := State.bufferTranslated_granted hc hpage
      exact ⟨_, congrArg Host.Outcome.next hl, rfl, rfl, hcached⟩
  · intro s
    refine ⟨fun p fn addr len => execAtsInvalidation_takes, fun id l hl hup hmoving hmode hheld hdrained => ⟨?_, ?_⟩⟩
    · exact fun bs s1 => execMoveComplete_copies hl hup hmoving hmode hheld hdrained
    · exact execMoveComplete_flash hl hup hmoving hmode hheld hdrained

end Sys2Proof.Machine
end

section
namespace Sys2Proof.Machine

/-! ### Doorbells (12 R298) -/

/-- A doorbell rung: its order joins those that are no write of the same doorbell in the same tick. -/
theorem State.mem_ring_orders {s : State} {p : Port} {body : OrderBody} {same : OrderBody → Bool} {o : Order} :
    o ∈ (s.ring p body same).orders ↔ o = ⟨s.now + 1, portRank p, 0, s.receipt, body⟩
      ∨ (o ∈ s.orders ∧ ¬ (o.stamp = s.now + 1 ∧ same o.body = true)) := by
  have hnow : ({ s with
      orders := s.orders.filter (fun o => !(decide (o.stamp = s.now + 1) && same o.body)) } : State).now = s.now := rfl
  simp only [State.ring, State.order_orders, hnow, List.mem_append, List.mem_filter, List.mem_singleton, Bool.not_eq_true',
    Bool.and_eq_false_iff, decide_eq_false_iff_not, not_and_or, Bool.not_eq_true, or_comm]

/-- The change a ring makes, where `same` picks out the writes of one doorbell whatever their value. -/
theorem State.ring_replaces (s : State) (p : Port) (body : OrderBody) {same : OrderBody → Bool} {write : Nat → OrderBody}
    (hsame : ∀ b, same b = true ↔ ∃ w, b = write w) :
    s.ring p body same = { s with orders := (s.ring p body same).orders, receipt := s.receipt + 1 }
      ∧ ∀ o, o ∈ (s.ring p body same).orders ↔ o = ⟨s.now + 1, portRank p, 0, s.receipt, body⟩
        ∨ (o ∈ s.orders ∧ ¬ (o.stamp = s.now + 1 ∧ ∃ w, o.body = write w)) :=
  ⟨rfl, fun o => by rw [State.mem_ring_orders, hsame]⟩

/-- Settles O3: each row rings its doorbell, and `State.ring_replaces` says which orders stay. -/
theorem doorbellStamped : Obligations.DoorbellStamped := by
  unfold Obligations.DoorbellStamped
  intro s p fn q v htakes
  refine ⟨⟨_, if_pos htakes, s.ring_replaces p _ fun b => ?_⟩, ⟨_, if_pos htakes, s.ring_replaces p _ fun b => ?_⟩⟩
  · split
    · simp only [Bool.and_eq_true, decide_eq_true_eq, OrderBody.sqDoorbell.injEq, exists_and_left, exists_eq',
        and_true, and_assoc]
    · next hother => exact ⟨nofun, fun ⟨_, hb⟩ => absurd hb (hother p fn q _)⟩
  · split
    · simp only [Bool.and_eq_true, decide_eq_true_eq, OrderBody.cqDoorbell.injEq, exists_and_left, exists_eq',
        and_true, and_assoc]
    · next hother => exact ⟨nofun, fun ⟨_, hb⟩ => absurd hb (hother p fn q _)⟩

/-! ### The fetch of an entry (12 R300, R301) -/

/-- Only RUN and ENCODE_SEARCH take an entry of the sequence table (09 R234). -/
theorem State.cmdSequence_none (s : State) {c : Cmd} (hop : c.opcode ∉ [Op.run, Op.encodeSearch]) : s.cmdSequence c = none := by
  simp only [List.mem_cons, List.not_mem_nil, or_false, not_or] at hop
  obtain ⟨hrun, henc⟩ := hop
  simp only [State.cmdSequence, if_neg hrun, if_neg henc]

/-- What becomes of a command once it stands among the fetched ones: it fails at its checks, takes its sequence
entry, or waits. -/
def State.checkFetched (t : State) (c : Cmd) : State :=
  if t.checkEntry c ≠ Status.success then t.finish c.cid (c.checkWords (t.checkEntry c))
  else
    match t.cmdSequence c, t.freeEntry? with
    | some (m, n), some e => t.addSeq e c m n none false []
    | _, _ => t

theorem State.fetchEntry_eq (s : State) (x : Sq) (entry : Bytes) :
    s.fetchEntry x entry = (s.fetched x entry).checkFetched (s.newCmd x entry) := by
  unfold State.checkFetched
  rfl

section
variable {t : State} {c : Cmd}

theorem State.checkFetched_fails (hbad : t.checkEntry c ≠ Status.success) :
    t.checkFetched c = t.finish c.cid (c.checkWords (t.checkEntry c)) := if_pos hbad

theorem State.checkFetched_waits (hgood : t.checkEntry c = Status.success) (hseq : t.cmdSequence c = none) :
    t.checkFetched c = t := by
  simp only [State.checkFetched, hgood, hseq, ne_eq, not_true_eq_false, if_false]

theorem State.checkFetched_sequence {m : Model} {n e : Nat} (hgood : t.checkEntry c = Status.success)
    (hseq : t.cmdSequence c = some (m, n)) (he : t.freeEntry? = some e) :
    t.checkFetched c = t.addSeq e c m n none false [] := by
  simp only [State.checkFetched, hgood, hseq, he, ne_eq, not_true_eq_false, if_false]

end

section
variable {s : State} {q : Nat} {entry : Bytes} {x : Sq} {k : Cq} (hx : s.sq? q = some x) (hk : s.cq? x.cq = some k)
  (hfetches : s.fetches x entry = true)
include hx hk hfetches

/-- With no free slot the entry is held, and counted once. -/
theorem execEntryFetch_full (hfull : k.free = 0) : execEntryFetch q entry s = .next (s.noteHold x) := by
  simp only [execEntryFetch, hx, hk, hfetches, hfull, Bool.not_true, Bool.false_eq_true, if_false, if_true]

/-- With a free slot, room to stage where the entry is a mutation, and a sequence entry where it needs one, it is fetched. -/
theorem execEntryFetch_room (hroom : k.free ≠ 0) (hstage : fieldAt entry 0 1 ∉ [0x20, 0x21, 0x22] ∨ s.stagingWaits = false)
    (hseq : fieldAt entry 0 1 ∉ [Op.run, Op.encodeSearch] ∨ s.entryFor x = true) :
    execEntryFetch q entry s = .next ((s.fetched x entry).checkFetched (s.newCmd x entry)) := by
  have hstages : (decide (0x20 ≤ fieldAt entry 0 1) && decide (fieldAt entry 0 1 ≤ 0x22) && s.stagingWaits) = false := by
    refine hstage.elim (fun hop => ?_) fun hw => by rw [hw, Bool.and_false]
    simp only [List.mem_cons, List.not_mem_nil, or_false, not_or] at hop
    simp only [Bool.and_eq_false_iff, decide_eq_false_iff_not]
    omega
  have hentry : ((decide (fieldAt entry 0 1 = Op.run) || decide (fieldAt entry 0 1 = Op.encodeSearch))
      && !s.entryFor x) = false := by
    refine hseq.elim (fun hop => ?_) fun he => by rw [he, Bool.not_true, Bool.and_false]
    simp only [List.mem_cons, List.not_mem_nil, or_false, not_or] at hop
    simp only [hop, decide_false, Bool.or_self, Bool.false_and]
  simp only [execEntryFetch, hx, hk, hfetches, hroom, hstages, hentry, Bool.not_true, Bool.false_eq_true, if_false,
    State.fetchEntry_eq]

end

/-- Settles O10: `execEntryFetch_full` holds the entry, `execEntryFetch_room` fetches it, and `State.checkFetched` is what
follows. -/
theorem entryFetchReserves : Obligations.EntryFetchReserves := by
  unfold Obligations.EntryFetchReserves
  intro s q entry x k hx hk hfetches
  refine ⟨fun hfull hheld => ?_, fun hroom hstage hop => ⟨fun hgood => ?_, fun hbad => ?_⟩,
    fun hroom hop e m n he hentry hseq hgood => ?_⟩
  · refine (execEntryFetch_full hx hk hfetches hfull).trans ?_
    simp only [State.noteHold, hheld, Option.isSome_none, Bool.false_eq_true, if_false]
  · refine (execEntryFetch_room hx hk hfetches hroom hstage (.inl hop)).trans ?_
    rw [State.checkFetched_waits hgood (State.cmdSequence_none _ hop)]
  · refine (execEntryFetch_room hx hk hfetches hroom hstage (.inl hop)).trans ?_
    rw [State.checkFetched_fails hbad]
    rfl
  · have hstage : fieldAt entry 0 1 ∉ [0x20, 0x21, 0x22] := by
      simp only [List.mem_cons, List.not_mem_nil, or_false, Op.run, Op.encodeSearch] at hop ⊢
      omega
    refine (execEntryFetch_room hx hk hfetches hroom (.inl hstage) (.inr hentry)).trans ?_
    rw [State.checkFetched_sequence hgood hseq he]

/-! ### Queue errors (12 R301, R309, R310) -/

/-- A queue held past the limit is counted once. -/
theorem execCqStall_late {s : State} {q : Nat} {x : Sq} {t0 : Tick} (hx : s.sq? q = some x) (hheld : x.heldSince = some t0)
    (hcounted : x.stallCounted = false) (hlate : s.obj 0x2010 2 < s.now - t0) :
    execCqStall q s = .next (s.modSq q (fun y => { y with overruns := y.overruns + 1, stallCounted := true })) := by
  simp only [execCqStall, hx, hheld, hcounted, hlate, decide_true, Bool.not_false, Bool.and_self, if_true]

theorem State.port_modPort_self (s : State) (p : Port) (f : PortState → PortState) : (s.modPort p f).port p = f (s.port p) := by
  cases p <;> rfl

/-- The stamp of the entry at the head: its doorbell's, or this tick's. -/
def Sq.headStamp (x : Sq) (n : Tick) : Tick :=
  match x.stamps with
  | e :: _ => e.2
  | [] => n

/-- The state of a port whose queue a failed read of entries has halted. -/
def PortState.sqHalted (p : PortState) (admin : Bool) : PortState :=
  { p with sqsHalted := p.sqsHalted + 1, admin := if admin then { p.admin with halted := true } else p.admin }

/-- A queue halted and counted, its completion slot reserved. -/
def State.haltSq (s : State) (x : Sq) : State :=
  ((s.modSq x.qid (fun y => { y with state := .halted })).modCq x.cq (fun c => { c with reserved := c.reserved + 1 })).modPort
    x.port (fun p => p.sqHalted x.admin)

@[simp] theorem State.haltSq_now (s : State) (x : Sq) : (s.haltSq x).now = s.now :=
  congrArg Clock.counter (State.modPort_clk ..)

/-- The words of the completion that tells of a failed read. -/
def Sq.readErrorWords (x : Sq) (n : Tick) : Done := ⟨Status.invalidField, 0, x.headStamp n, 0, x.head, 1⟩

theorem execSqReadError_halts {s : State} {q : Nat} {x : Sq} {k : Cq} (hx : s.sq? q = some x) (hk : s.cq? x.cq = some k)
    (hfetches : s.fetches x [] = true) (hroom : k.free ≠ 0) :
    execSqReadError q s = .next ((s.haltSq x).post x 0xFFFF false (x.readErrorWords s.now)) := by
  obtain rfl := State.sq?_qid hx
  rw [← State.haltSq_now s x]
  simp only [execSqReadError, hx, hk, hfetches, hroom, ne_eq, not_false_eq_true, decide_true, Bool.and_self, if_true]
  rfl

/-- The entry goes to the completion queue of the SQ as it stands. -/
theorem State.post_found {s : State} {x : Sq} {k : Cq} (hk : s.cq? x.cq = some k) (cmdId : Nat) (noint : Bool) (d : Done) :
    s.post x cmdId noint d = s.writeEntry k (completionBytes cmdId x.head x.qid k.phase d (s.port x.port).attn
      (s.port x.port).evCount s.now) noint := by
  simp only [State.post, hk]

/-- An entry written changes its completion queue, memory and the writes posted to the host. -/
theorem State.writeEntry_frame (s : State) (k : Cq) (bs : Bytes) (noint : Bool) :
    ∃ cs m sent, s.writeEntry k bs noint = { s with cqs := cs, mem := m, posted := sent } := ⟨_, _, _, rfl⟩

theorem State.writeEntry_mem (s : State) (k : Cq) (bs : Bytes) (noint : Bool) :
    (s.writeEntry k bs noint).mem = pokeBytes s.mem (hostBase k.port + (k.base + 32 * k.write)) bs := rfl

theorem State.sq?_writeEntry (s : State) (k : Cq) (bs : Bytes) (noint : Bool) (q : Nat) :
    (s.writeEntry k bs noint).sq? q = s.sq? q := rfl

theorem State.port_writeEntry (s : State) (k : Cq) (bs : Bytes) (noint : Bool) (p : Port) :
    (s.writeEntry k bs noint).port p = s.port p := by
  cases p <;> rfl

theorem State.cq?_writeEntry {s : State} {q : Nat} {k : Cq} (hk : s.cq? q = some k) (bs : Bytes) (noint : Bool) :
    (s.writeEntry k bs noint).cq? q = some { k with
      write := (k.write + 1) % k.depth
      phase := if k.write + 1 = k.depth then !k.phase else k.phase
      reserved := k.reserved - 1
      signal := k.signal || (k.ien && !noint) } := by
  obtain rfl := State.cq?_qid hk
  exact State.cq?_modCq (s := s.hostWrite k.port k.fn false (k.base + 32 * k.write) bs) hk fun _ => rfl

section
variable {s : State} {x : Sq} {k : Cq}

theorem State.haltSq_frame (s : State) (x : Sq) :
    ∃ qs cs pA pB, s.haltSq x = { s with sqs := qs, cqs := cs, portA := pA, portB := pB } := by
  unfold State.haltSq
  cases x.port <;> exact ⟨_, _, _, _, rfl⟩

@[simp] theorem State.haltSq_mem (s : State) (x : Sq) : (s.haltSq x).mem = s.mem := State.modPort_mem ..

theorem State.haltSq_port (s : State) (x : Sq) : (s.haltSq x).port x.port = (s.port x.port).sqHalted x.admin :=
  State.port_modPort_self _ _ _

theorem State.haltSq_sq? (hx : s.sq? x.qid = some x) : (s.haltSq x).sq? x.qid = some { x with state := .halted } := by
  simp only [State.haltSq, State.sq?, State.modPort_sqs, State.modCq_sqs]
  exact State.sq?_modSq hx fun _ => rfl

theorem State.haltSq_cq? (hk : s.cq? x.cq = some k) :
    (s.haltSq x).cq? x.cq = some { k with reserved := k.reserved + 1 } := by
  simp only [State.haltSq, State.cq?, State.modPort_cqs]
  exact State.cq?_modCq (s := s.modSq x.qid _) hk fun _ => rfl

/-- Halting a queue and writing an entry for it touch queues, ports, memory and the writes posted to the host alone. -/
theorem State.haltSq_writeEntry_frame {t : State} {bs : Bytes} {noint : Bool} (ht : (s.haltSq x).writeEntry k bs noint = t) :
    t = { s with sqs := t.sqs, cqs := t.cqs, portA := t.portA, portB := t.portB, mem := t.mem, posted := t.posted } := by
  obtain ⟨qs, cs, pA, pB, hhalt⟩ := s.haltSq_frame x
  obtain ⟨cs', m, sent, hwrite⟩ := (s.haltSq x).writeEntry_frame k bs noint
  rw [← ht, hwrite, hhalt]

/-- The entry of a failed read uses up the slot just reserved; it shows the port's events as they stood. -/
theorem State.haltSq_post (hk : s.cq? x.cq = some k) (d : Done) : (s.haltSq x).post x 0xFFFF false d
    = (s.haltSq x).writeEntry { k with reserved := k.reserved + 1 } (completionBytes 0xFFFF x.head x.qid k.phase d
      (s.port x.port).attn (s.port x.port).evCount s.now) false := by
  rw [State.post_found (State.haltSq_cq? hk), State.haltSq_port, State.haltSq_now]
  rfl

end

/-! ### Commands that have ended -/

theorem State.cmd?_eq_none {s : State} {cid : Nat} : s.cmd? cid = none ↔ ∀ c ∈ s.cmds, c.cid ≠ cid := by
  simp only [State.cmd?, List.find?_eq_none, decide_eq_true_eq, ne_eq]

@[simp] theorem State.sendVector_cmds (s : State) (p : Port) (fn vector : Nat) : (s.sendVector p fn vector).cmds = s.cmds := by
  unfold State.sendVector
  split
  · exact State.modPort_cmds ..
  · exact State.modPort_cmds ..

@[simp] theorem State.dropQueue_cmds (s : State) (q : Sq) : (s.dropQueue q).cmds = s.cmds := by
  have hsent (l : List Cq) (t : State) : (l.foldl (fun s x => s.sendVector x.port x.fn x.vector) t).cmds = t.cmds :=
    List.foldlRecOn (motive := fun u : State => u.cmds = t.cmds) l _ rfl fun _ hu x _ => (State.sendVector_cmds ..).trans hu
  unfold State.dropQueue
  dsimp only
  split <;> split <;> simp [hsent]

@[simp] theorem State.post_cmds (s : State) (q : Sq) (cmdId : Nat) (noint : Bool) (d : Done) :
    (s.post q cmdId noint d).cmds = s.cmds := by
  unfold State.post
  split
  · rfl
  · exact State.writeEntry_cmds ..

/-- Draining queues only takes commands away. -/
theorem State.drain_cmds_subset (fuel : Nat) (s : State) (qid : Nat) : (s.drain fuel qid).cmds ⊆ s.cmds := by
  induction fuel generalizing s qid with
  | zero => exact List.Subset.refl _
  | succ fuel ih =>
    unfold State.drain
    split
    · exact List.Subset.refl _
    · next q _ =>
      split
      · dsimp only
        generalize hu : (if q.state = .deleting then s.dropQueue q else s.modSq qid (fun q => { q with
          state := .active, head := 0, tail := 0, stamps := [], drain := none })) = u
        have hleft : u.cmds ⊆ s.cmds := by
          rw [← hu]
          split
          · rw [State.dropQueue_cmds]; exact List.Subset.refl _
          · exact List.Subset.refl _
        have hfilter (p : Cmd → Bool) : u.cmds.filter p ⊆ s.cmds := fun _ hc => hleft (List.filter_sublist.subset hc)
        split
        · exact hleft
        · split
          · exact hleft
          · split
            · exact hfilter _
            · refine List.Subset.trans (ih ..) ?_
              rw [State.accountJob_cmds, State.modSq_cmds]
              split
              · exact hfilter _
              · rw [State.post_cmds]; exact hfilter _
      · exact List.Subset.refl _

/-- A command that has been completed is no more among the fetched ones. -/
theorem State.cmd?_finish (s : State) (cid : Nat) (d : Done) : (s.finish cid d).cmd? cid = none := by
  have hgone : ∀ c ∈ s.cmds.filter (fun x => decide (x.cid ≠ cid)), c.cid ≠ cid := fun c hc => by
    simpa only [decide_eq_true_eq] using (List.mem_filter.1 hc).2
  unfold State.finish
  split
  · assumption
  · next c _ =>
    have hcount : (if d.status = Status.checksumFail ∨ d.status = Status.faultRepeated then
        ({ s with cmds := s.cmds.filter (fun x => decide (x.cid ≠ cid)) } : State).count 0x6200 0x0A 1
        else { s with cmds := s.cmds.filter (fun x => decide (x.cid ≠ cid)) }).cmds
          = s.cmds.filter (fun x => decide (x.cid ≠ cid)) := by split <;> rfl
    refine State.cmd?_eq_none.2 fun b hb => hgone b ?_
    rw [← hcount]
    dsimp only at hb
    by_cases hsilent : c.silent = true
    · rwa [if_pos hsilent] at hb
    · rw [if_neg hsilent] at hb
      split at hb
      · exact hb
      · simpa only [State.accountJob_cmds, State.modSq_cmds, State.post_cmds] using State.drain_cmds_subset _ _ _ hb

theorem State.cmd?_fail (s : State) (cid status : Nat) : (s.fail cid status).cmd? cid = none := by
  unfold State.fail
  split
  · assumption
  · exact State.cmd?_finish ..

/-- Settles O11: a stall by `execCqStall_late`, a failed read of entries by `execSqReadError_halts` and the `State.haltSq` lemmas,
a failed read of a buffer by `State.cmd?_fail`. -/
theorem queueErrorsCounted : Obligations.QueueErrorsCounted := by
  unfold Obligations.QueueErrorsCounted
  refine ⟨fun s q x k hx => ⟨fun t0 hheld hcounted hlate => execCqStall_late hx hheld hcounted hlate,
    fun hk hfetches hroom => ?_⟩, fun s cid how c hc hstage hin hlen => ⟨_, ?_, rfl, State.cmd?_fail ..⟩⟩
  · have hpost := State.haltSq_post hk (x.readErrorWords s.now)
    obtain rfl := State.sq?_qid hx
    refine ⟨_, execSqReadError_halts hx hk hfetches hroom, ?_⟩
    rw [hpost, State.sq?_writeEntry, State.port_writeEntry, State.haltSq_port]
    refine ⟨?_, State.haltSq_sq? hx, rfl, fun hadmin => ?_, ?_, ?_⟩
    · exact State.haltSq_writeEntry_frame rfl
    · simp only [PortState.sqHalted, hadmin, if_true]
    · rw [State.writeEntry_mem, State.haltSq_mem]; rfl
    · simp only [State.cq?_writeEntry (State.haltSq_cq? hk), Nat.add_sub_cancel, Bool.not_false, Bool.and_true]
  · simp only [exec, execBufferReadError, hc, hstage, hin, hlen, ne_eq, not_false_eq_true, decide_true, Bool.and_self, if_true]

/-! ### Power states (12 R314, R315) -/

/-- Settles O41: entry and exit each under the conditions of their row. -/
theorem powerStateRows : Obligations.PowerStateRows := by
  unfold Obligations.PowerStateRows
  intro s t0
  refine ⟨fun hsince hup hready hidle hexit hdeepest hlimit htimer hdue => ?_, fun hexit hup hlow hidle => ?_,
    fun hexit hdue => ?_⟩
  · simp only [exec, execPowerStateEntry, hsince, hup, hready, hidle, hexit, hdeepest, hlimit, htimer, hdue, ne_eq,
      not_false_eq_true, decide_true, Bool.and_self, if_true]
  · simp only [exec, execPowerStateExit, hexit, hup, hlow, hidle, Option.isSome_none, Bool.false_eq_true, ne_eq,
      not_false_eq_true, decide_true, Bool.not_false, Bool.and_self, if_true, if_false]
  · simp only [exec, execPowerStateExit, State.endExit, hexit, hdue, Option.isSome_some, if_true]

end Sys2Proof.Machine
end

section
namespace Sys2Proof.Machine

/-! ### NOP (12 R307; 13 R346) -/

/-- A NOP that ends writes one entry with the event count and the pending mask of its port (R346). -/
theorem State.finishNop_active {s : State} {c : Cmd} {q : Sq} {k : Cq} (hc : s.cmd? c.cid = some c) (hloud : c.silent = false)
    (hfirst : c.restarted = false) (hflags : c.flags = Flags.none) (hq : s.sq? c.sq = some q) (hactive : q.state = .active)
    (hk : s.cq? q.cq = some k) : s.finishNop c = s.completed c q k
      ⟨Status.success, 0, c.stamp, (s.port c.port).evCount % 256, (s.port c.port).pending.toNat, 0⟩ :=
  State.finish_active hc hloud hfirst hflags hq hactive hk rfl rfl

theorem execNop_completes {s : State} {cid : Nat} {c : Cmd} (hc : s.cmd? cid = some c) (hstage : c.stage = .fetched)
    (hop : c.opcode = Op.nop) (hwait : bit (c.field 32 1) 0 = false) (hlater : c.fetchTick < s.now) :
    execNop cid s = .next (s.finishNop c) := by
  simp only [execNop, hc, hstage, hop, hwait, hlater, decide_true, Bool.and_self, Bool.false_eq_true, if_true, if_false]

theorem execNop_waits {s : State} {cid : Nat} {c : Cmd} (hc : s.cmd? cid = some c) (hstage : c.stage = .fetched)
    (hop : c.opcode = Op.nop) (hwait : bit (c.field 32 1) 0 = true) :
    execNop cid s = .next (s.modCmd cid (fun d => { d with stage := .nopWait d.dw5 (d.fetchTick + d.field 36 4) })) := by
  simp only [execNop, hc, hstage, hop, hwait, decide_true, Bool.and_self, if_true]

theorem execNopWaitEnd_limit {s : State} {cid n limit : Nat} {c : Cmd} (hc : s.cmd? cid = some c)
    (hstage : c.stage = .nopWait n limit) (hdue : limit ≤ s.now) :
    execNopWaitEnd cid s = .next (s.finishNop c) := by
  simp only [execNopWaitEnd, hc, hstage, hdue, if_true]

/-- Settles O9: a NOP that ends does so by `State.finishNop_active`; one that waits takes its place by `execNop_waits`. -/
theorem nopCompletes : Obligations.NopCompletes := by
  unfold Obligations.NopCompletes
  intro s cid c q k hc hloud hfirst hflags hq hactive hk
  obtain rfl := State.cmd?_cid hc
  have hfinish := State.finishNop_active hc hloud hfirst hflags hq hactive hk
  refine ⟨fun hstage hop hwait hlater => ?_, execNop_waits hc, fun n limit hstage hdue => ?_⟩
  · exact (execNop_completes hc hstage hop hwait hlater).trans (congrArg _ hfinish)
  · exact (execNopWaitEnd_limit hc hstage hdue).trans (congrArg _ hfinish)

/-! ### FETCH (13 R329) -/

/-- What is found under a number after an update of the commands of that number is an updated command. -/
theorem State.cmd?_modCmd_eq {s : State} {n : Nat} {f : Cmd → Cmd} {d : Cmd} (h : (s.modCmd n f).cmd? n = some d) :
    ∃ x, d = f x := by
  obtain ⟨x, -, hx⟩ := List.mem_map.1 (List.mem_of_find?_eq_some h)
  split at hx
  · exact ⟨x, hx.symm⟩
  next hother =>
    subst hx
    exact absurd (decide_eq_true (State.cmd?_cid h)) hother

/-- A FETCH that has begun bears its admission tick (02 R35). -/
theorem State.admTick_of_beginFetch {s : State} {cmd d : Cmd} {c : Coll}
    (h : (s.beginFetch cmd c).cmd? cmd.cid = some d) : d.admTick = some (cmd.admTick.getD s.now) := by
  unfold State.beginFetch at h
  obtain ⟨x, rfl⟩ := State.cmd?_modCmd_eq h
  rfl

/-- What a row of FETCH does once the tiles are looked up: it ends when every read is back, and waits while one is out. -/
def State.answerFetch (s : State) (d : Cmd) (c : Coll) : State :=
  if d.todo = some [] && s.rodsRead d.asked (if d.asked.isEmpty then 0 else d.askTick + s.cobj c.num 0x25) then
    s.endFetch d c (d.admTick.getD s.now)
  else s

theorem State.answerFetch_back {s : State} {d : Cmd} {c : Coll} (htodo : d.todo = some [])
    (hread : s.rodsRead d.asked (if d.asked.isEmpty then 0 else d.askTick + s.cobj c.num 0x25) = true) :
    s.answerFetch d c = s.endFetch d c (d.admTick.getD s.now) := by
  simp only [State.answerFetch, htodo, hread, decide_true, Bool.and_self, if_true]

/-- Nothing asked of the rods is back at once. -/
theorem State.answerFetch_unasked {s : State} {d : Cmd} {c : Coll} (htodo : d.todo = some []) (hasked : d.asked = []) :
    s.answerFetch d c = s.endFetch d c (d.admTick.getD s.now) :=
  State.answerFetch_back htodo (by rw [hasked]; rfl)

theorem State.answerFetch_out {s : State} {d : Cmd} {c : Coll} (htodo : d.todo ≠ some []) : s.answerFetch d c = s := by
  simp only [State.answerFetch, htodo, decide_false, Bool.false_and, Bool.false_eq_true, if_false]

section
variable {s : State} {cid : Nat} {inbuf : Bytes} {cmd : Cmd} {c : Coll} (hready : s.ready? cid Op.fetch = some cmd)
  (hlater : cmd.fetchTick < s.now) (hc : s.coll? cmd.collByte = some c) (hstate : c.state = 2) (hrepair : c.repair = 0)
include hready hlater hc hstate hrepair

/-- A row of a FETCH that has begun goes on with its reads. -/
theorem execFetch_again {ts : List Nat} (htodo : cmd.todo = some ts) : execFetch cid inbuf s = .next (s.answerFetch cmd c) := by
  obtain ⟨hcmd, -⟩ := State.ready?_some hready
  simp only [execFetch, hready, if_neg (Nat.not_le.2 hlater), htodo, Option.isNone_some, Bool.false_eq_true, if_false, hc, hstate,
    hrepair, ne_eq, not_true_eq_false, hcmd, State.answerFetch, apply_ite Host.Outcome.next]

/-- The first row of a FETCH looks its tiles up and goes on at once. -/
theorem execFetch_first (htodo : cmd.todo = none) {d : Cmd}
    (hd : (s.beginFetch { cmd with inbuf := inbuf } c).cmd? cid = some d) :
    execFetch cid inbuf s = .next ((s.beginFetch { cmd with inbuf := inbuf } c).answerFetch d c) := by
  have hc' : s.coll? ({ cmd with inbuf := inbuf } : Cmd).collByte = some c := hc
  have hfirst : cmd.todo.isNone = true := Option.isNone_iff_eq_none.2 htodo
  simp only [execFetch, hready, if_neg (Nat.not_le.2 hlater), hfirst, if_true, hc', hstate, hrepair, ne_eq, not_true_eq_false,
    if_false, hd, State.answerFetch, apply_ite Host.Outcome.next]

end

theorem State.rodsOutNow_countReads (s : State) (cid coll n : Nat) : (s.countReads cid coll n).rodsOutNow = s.rodsOutNow := by
  obtain ⟨d, sh, hread⟩ := s.countReads_frame cid coll n
  rw [hread]
  rfl

theorem State.units_countReads (s : State) (cid coll n : Nat) : (s.countReads cid coll n).units = s.units := by
  obtain ⟨d, sh, hread⟩ := s.countReads_frame cid coll n
  rw [hread]

/-- A FETCH that asked for no read, all of whose records can be formed and none of which is uncovered, on a module with nothing
out of service, writes its records and completes with the number found, not degraded. -/
theorem State.endFetch_found {s : State} {cmd : Cmd} {c : Coll} {adm : Tick} {fs : List (BitVec 64 × Fetched)}
    (hasked : cmd.asked = [])
    (hfs : cmd.fetchIds.map (fun i => (i, s.fetchOne c adm (cmd.field 32 1) i)) = fs.map (fun p => (p.1, some p.2)))
    (hrods : s.rodsOutNow = []) (hlost : s.units.lost = []) (hcovered : ∀ p ∈ fs, p.2.state ≠ 3) :
    s.endFetch cmd c adm =
      (((s.countReads cmd.cid c.num 0).modCmd cmd.cid (fun k => { k with asked := [] })).outWrite cmd cmd.outAddr
        ((fs.map (fun p => fetchRecord c (cmd.field 32 1) p.1 p.2)).flatten)).finish cmd.cid
        ⟨Status.success, 0, adm, (fs.filter (fun p => decide (p.2.state = 1) || decide (p.2.state = 2))).length, 0, 0⟩ := by
  have hformed : (fs.map (fun p => (p.1, some p.2))).any (fun p => p.2.isNone) = false := by simp
  have hrecords : (fs.map (fun p => (p.1, some p.2))).filterMap (fun p => p.2.map (fun f => (p.1, f))) = fs := by
    simp [List.filterMap_map]
  have hnone : fs.any (fun p => decide (p.2.state = 3)) = false := by simpa using hcovered
  have hrods' (f : Cmd → Cmd) (a : Nat) (bs : Bytes) :
      (((s.countReads cmd.cid c.num 0).modCmd cmd.cid f).outWrite cmd a bs).rodsOutNow = [] :=
    (s.rodsOutNow_countReads cmd.cid c.num 0).trans hrods
  have hlost' (f : Cmd → Cmd) (a : Nat) (bs : Bytes) :
      (((s.countReads cmd.cid c.num 0).modCmd cmd.cid f).outWrite cmd a bs).units.lost = [] :=
    (congrArg Units.lost (s.units_countReads cmd.cid c.num 0)).trans hlost
  simp only [State.endFetch, hasked, hfs, hformed, hrecords, hrods', hlost', hnone, List.length_nil, List.filter_nil,
    List.foldl_nil, List.isEmpty_nil, Bool.and_self, Bool.false_eq_true, if_true, if_false, Nat.lt_irrefl, decide_false,
    Bool.and_false, Bool.or_self]

/-! ### BULK_BUILD (06 R166; 13 R333) -/

section
variable {s : State} {cid : Nat} {inbuf : Bytes} {cmd : Cmd} {k : Coll}

/-- A BULK_BUILD that passes its checks, with no other batch in progress, is judged and applied. -/
theorem execBulkBuild_batch (graph : List (List Nat)) (hready : s.ready? cid Op.bulkBuild = some cmd)
    (hk : s.coll? cmd.collByte = some k) (hstate : k.state = 1) (hreck : s.reckoners ≠ [])
    (hfields : { cmd with inbuf := fit cmd.inLen inbuf }.buildFieldsOk k = true) (hidle : s.buildBusy k.num = false) :
    execBulkBuild cid inbuf graph s = .next (s.buildBatch { cmd with inbuf := fit cmd.inLen inbuf } k graph) := by
  have hk' : s.coll? ({ cmd with inbuf := fit cmd.inLen inbuf } : Cmd).collByte = some k := hk
  simp only [execBulkBuild, hready, hk', hstate, hfields, hidle, List.isEmpty_iff, if_neg hreck, ne_eq, not_true_eq_false,
    Bool.not_true, Bool.false_eq_true, if_false]

/-- A batch of items without the finish flag asks for the programs of its tiles and ends when none is left. -/
theorem State.buildBatch_items {s1 : State} {f : Flags} {ts : List Nat} {k' : Coll} {graph : List (List Nat)}
    (hform : cmd.field 32 1 ≠ 1) (hfinish : bit (cmd.field 33 1) 0 = false)
    (hitems : s.buildItems k cmd graph = .ok (s1, f, ts)) (hk' : s1.coll? k.num = some k') :
    s.buildBatch cmd k graph =
      (s.askBatch (s1.modCmd cmd.cid (fun d => { d with flags := d.flags.or f, stage := .building false })) k k' cmd.cid
        ts).endBuild cmd.cid := by
  have hnew (g : Cmd → Cmd) : (s1.modCmd cmd.cid g).coll? k.num = some k' := hk'
  simp only [State.buildBatch, if_neg hform, hitems, hfinish, hnew, Bool.not_false, if_true]

theorem State.buildBatch_refused {st ix : Nat} {graph : List (List Nat)} (hform : cmd.field 32 1 ≠ 1)
    (hitems : s.buildItems k cmd graph = .error (st, ix)) :
    s.buildBatch cmd k graph = s.finish cmd.cid { cmd.failWords st with dw6 := ix } := by
  simp only [State.buildBatch, if_neg hform, hitems]

end

/-- Settles O19: FETCH by `execFetch_again`, `execFetch_first` and `State.endFetch_found`, BULK_BUILD by `execBulkBuild_batch` and
the outcome of its batch. -/
theorem itemRows : Obligations.ItemRows := by
  unfold Obligations.ItemRows
  intro s cid inbuf cmd c
  refine ⟨fun hready hlater hc hstate hrepair => ⟨?again, fun htodo d hd => ⟨?unasked, ?out⟩, ?found⟩, ?batch, ?refused⟩
  case again =>
    exact fun htodo hread =>
      (execFetch_again hready hlater hc hstate hrepair htodo).trans (congrArg _ (State.answerFetch_back htodo hread))
  case unasked =>
    intro hnone hasked
    have hfirst := execFetch_first hready hlater hc hstate hrepair htodo hd
    obtain rfl := State.ready?_cid hready
    rw [State.answerFetch_unasked hnone hasked] at hfirst
    rw [State.admTick_of_beginFetch (cmd := { cmd with inbuf := inbuf }) hd] at hfirst ⊢
    exact hfirst
  case out =>
    exact fun hout =>
      (execFetch_first hready hlater hc hstate hrepair htodo hd).trans (congrArg _ (State.answerFetch_out hout))
  case found =>
    exact fun fs adm hasked hfs hrods hlost hcovered =>
      ⟨_, _, rfl, rfl, State.endFetch_found hasked hfs hrods hlost hcovered⟩
  case batch =>
    intro graph f s1 ts k' hready hc hstate hreck hfields hidle hform hfinish hitems hk'
    exact (execBulkBuild_batch graph hready hc hstate hreck hfields hidle).trans
      (congrArg _ (State.buildBatch_items hform hfinish hitems hk'))
  case refused =>
    intro st ix graph hready hc hstate hreck hfields hidle hform hitems
    exact (execBulkBuild_batch graph hready hc hstate hreck hfields hidle).trans
      (congrArg _ (State.buildBatch_refused hform hitems))

/-! ### Firmware (13 R343; 17 R435) -/

/-- FW_LOAD of a buffer that is not empty: the staged length grows to the end of what is written. -/
theorem execFwLoad_writes {s : State} {cid : Nat} {c : Cmd} (inbuf : Bytes) (hready : s.ready? cid Op.fwLoad = some c)
    (hlen : c.inLen ≠ 0) : execFwLoad cid inbuf s = .next
      ((({ s with boot := { s.boot with
          staging := stagePages (c.inLen / 4096) s.boot.staging (c.field 32 4 / 4096) (fit c.inLen inbuf) } } : State).setObj
        0x7000 7 0 (max (s.obj 0x7000 7) (c.field 32 4 + c.inLen))).finish cid ⟨Status.success, 0, c.stamp, 0, 0, 0⟩) := by
  simp only [execFwLoad, hready, if_neg hlen]
  rfl

/-- FW_COMMIT of an image that passes its check records "begun" and asks for the grant of the erase. -/
theorem execFwCommit_begins {s : State} {cid : Nat} {c : Cmd} (fails : Bool) (hready : s.ready? cid Op.fwCommit = some c)
    (hvalid : imageCheck s.boot.staging (min (c.field 32 4) (s.obj 0x7000 7)) = 0) :
    execFwCommit cid fails s = .next
      ((((s.logUpdate 1).setObj 0x7000 8 0 1).modCmd cid (fun d => { d with stage := .committing false })).askBoot c) := by
  obtain ⟨hc, -, hstage, -⟩ := State.ready?_some hready
  simp only [execFwCommit, hc, hstage, hready, hvalid, Option.isNone_some, Bool.false_eq_true, ne_eq, not_true_eq_false, if_false]

section
variable {s : State} {cid : Nat} {c : Cmd} {g : Grant} (hc : s.cmd? cid = some c) (hg : s.grantOf (.bootArea cid) = some g)
  (hgranted : g.granted = true) (hin : s.bootRodsIn = true)
include hc hg hgranted hin

/-- Under its grant the old header is erased: the boot area then holds no image. -/
theorem execFwCommit_erases (hstage : c.stage = .committing false) : execFwCommit cid false s = .next
    ((({ s.logUpdate 2 with boot := { (s.logUpdate 2).boot with area := none, committed := none } } : State).modCmd cid
      (fun d => { d with stage := .committing true })).askBoot c) := by
  simp only [execFwCommit, hc, hstage, hg, hgranted, hin, Bool.not_true, Bool.or_self, Bool.false_eq_true, if_false]

/-- Under its grant the staged image is programmed, and the commit ends. -/
theorem execFwCommit_programs (hstage : c.stage = .committing true) : execFwCommit cid false s = .next
    (((({ ((s.logUpdate 3).logUpdate 4).logUpdate 5 with boot := { (((s.logUpdate 3).logUpdate 4).logUpdate 5).boot with
        area := some (stagedImage s.boot.staging), committed := some (stagedImage s.boot.staging) } } : State).countNand
      (stagedImage s.boot.staging).length).endCommit c 2 Status.success 0)) := by
  simp only [execFwCommit, hc, hstage, hg, hgranted, hin, Bool.not_true, Bool.or_self, Bool.false_eq_true, if_false]

end

/-- Settles O38: FW_LOAD by `execFwLoad_writes`, the three steps of FW_COMMIT each by its lemma. -/
theorem firmwareRows : Obligations.FirmwareRows := by
  unfold Obligations.FirmwareRows
  intro s cid inbuf c fails
  refine ⟨fun hready hlen => ⟨_, execFwLoad_writes inbuf hready hlen, rfl⟩, execFwCommit_begins fails, ?_, ?_⟩
  · exact fun g hc hstage hg hgranted hin => execFwCommit_erases hc hg hgranted hin hstage
  · exact fun g hc hstage hg hgranted hin => execFwCommit_programs hc hg hgranted hin hstage

end Sys2Proof.Machine
end

section
namespace Sys2Proof.Machine

/-! ### BAR0 writes (14 R352, R353) -/

/-- The offset of an access that is not ignored is listed (14 R352). -/
theorem regAt_of_regAccessOk {off size : Nat} (hok : regAccessOk off size = true) : ∃ r, regAt off = some r := by
  apply Option.isSome_iff_exists.1
  unfold regAccessOk at hok
  split at hok
  next => exact (Bool.and_eq_true_iff.1 hok).2
  next => exact (Bool.and_eq_true_iff.1 (Bool.and_eq_true_iff.1 hok).1).2

section
variable {s : State} {p : Port} {off size value : Nat}

/-- An access to a listed offset that is not 8 bytes from a 4-byte register on makes one write. -/
theorem State.orderBar_one {r : Nat × Nat × Nat} (hr : regAt off = some r) (hone : ¬ (size = 8 ∧ r.2.2 = 0)) :
    s.orderBar p off size value = s.ordered (portRank p) 0 (.barWrite p off size value) := by
  simp only [State.orderBar, hr, if_neg hone, State.order_eq_ordered]

/-- An access of 8 bytes from a 4-byte register on makes a write of each half. -/
theorem State.orderBar_two {r : Nat × Nat × Nat} (hr : regAt off = some r) (hwhole : r.2.2 = 0) (hvalue : value < 2 ^ 64) :
    s.orderBar p off 8 value = (s.ordered (portRank p) 0 (.barWrite p off 4 (value % 2 ^ 32))).ordered (portRank p) 0
      (.barWrite p (off + 4) 4 (value / 2 ^ 32)) := by
  have hhigh : value / 2 ^ 32 % 2 ^ 32 = value / 2 ^ 32 := Nat.mod_eq_of_lt (by omega)
  simp only [State.orderBar, hr, hwhole, and_self, if_true, hhigh, State.order_eq_ordered]

variable (htakes : s.takes p = true)
include htakes

theorem State.barWrite_ok (hok : regAccessOk off size = true) : s.barWrite p off size value = s.orderBar p off size value := by
  simp only [State.barWrite, htakes, hok, Bool.not_true, Bool.false_eq_true, if_false, if_true]

/-- A write that is ignored is counted in object 0x2000:9. -/
theorem State.barWrite_ignored (hbad : regAccessOk off size = false) :
    s.barWrite p off size value = s.setObj 0x2000 9 0 (s.obj 0x2000 9 + 1) := by
  simp only [State.barWrite, htakes, hbad, Bool.not_true, Bool.false_eq_true, if_false, State.badAccess, State.count_eq_setObj]

/-- A write of 4 bytes that is not ignored is one order at the written offset, whichever register it is. -/
theorem State.barWrite_four (hok : regAccessOk off 4 = true) :
    s.barWrite p off 4 value = s.ordered (portRank p) 0 (.barWrite p off 4 value) := by
  obtain ⟨r, hr⟩ := regAt_of_regAccessOk hok
  exact (State.barWrite_ok htakes hok).trans (State.orderBar_one hr (by omega))

end

/-- The value written to HIF_ADMIN_CTRL, its IEN bit written out. -/
theorem adminCtrl_ien (ien : Bool) (vector : Nat) :
    1 + 2 * b2n ien + 16 * vector = 1 + (if ien then 2 else 0) + 16 * vector := by
  cases ien <;> rfl

/-- Settles O4: a write of one register by `State.orderBar_one`, of two by `State.orderBar_two`; each named row writes the 4 bytes
of its register. -/
theorem registerWritesStamped : Obligations.RegisterWritesStamped := by
  unfold Obligations.RegisterWritesStamped
  intro s p off size v w vec ien htakes
  refine ⟨fun hok hone => ?one, fun hok hr => ?two, fun hbad => ?ignored, ?clear, ?enable, ?disable, ?lock⟩
  case one =>
    refine congrArg Host.Outcome.next ((State.barWrite_ok htakes hok).trans ?_)
    obtain rfl | ⟨k, hhalf, hr⟩ := hone
    · obtain ⟨r, hr⟩ := regAt_of_regAccessOk hok
      exact State.orderBar_one hr (by omega)
    · exact State.orderBar_one hr fun hwhole => hhalf hwhole.2
  case two => exact congrArg _ ((State.barWrite_ok htakes hok).trans (State.orderBar_two hr rfl v.isLt))
  case ignored => exact congrArg _ (State.barWrite_ignored htakes hbad)
  case clear => exact congrArg _ (State.barWrite_four htakes (by decide))
  case enable => exact congrArg _ ((State.barWrite_four htakes (by decide)).trans (by rw [adminCtrl_ien]))
  case disable => exact congrArg _ (State.barWrite_four htakes (by decide))
  case lock => exact congrArg _ (State.barWrite_four htakes (by decide))

/-! ### The object window and the mailbox (14 R374, R375) -/

section
variable {s : State} {p : Port} {fn : Fin 64} {op : Nat} {w : WinFields} {data : Bytes} (hbar : s.bar4 p fn = true)
include hbar

/-- The commit word of an idle window makes the operation pending. -/
theorem State.winCommit_idle (hidle : (s.window (winKey p fn)).pending = false) :
    s.winCommit p fn op w data = s.windowAsked p fn op w data := by
  simp only [State.winCommit, hbar, hidle, Bool.not_true, Bool.false_eq_true, if_false]
  rfl

/-- The commit word of a window whose operation is pending is ignored and counted in object 0x2000:8. -/
theorem State.winCommit_pending (hpending : (s.window (winKey p fn)).pending = true) :
    s.winCommit p fn op w data = s.setObj 0x2000 8 0 (s.obj 0x2000 8 + 1) := by
  simp only [State.winCommit, hbar, hpending, Bool.not_true, Bool.false_eq_true, if_false, if_true, State.count_eq_setObj]

theorem execMbxSend_reached (dest : BitVec 16) (msg : Bytes) :
    execMbxSend p fn dest msg s = .next (s.ordered (portRank p) 0 (.mbxSend p fn dest.toNat msg)) := by
  simp only [execMbxSend, hbar, if_true, State.order_eq_ordered]

theorem execMbxInHead_reached (v : BitVec 32) :
    execMbxInHead p fn v s = .next (s.ordered (portRank p) 0 (.mbxHead p fn v.toNat)) := by
  simp only [execMbxInHead, hbar, if_true, State.order_eq_ordered]

end

/-- Settles O5: the three window rows are `State.winCommit` of their operation, on an idle window or on one that is pending. -/
theorem windowRowsCommit : Obligations.WindowRowsCommit := by
  unfold Obligations.WindowRowsCommit
  refine ⟨fun s p fn w data hbar => ⟨fun hidle => ?idle, fun hpending => ?pending⟩, fun s p fn dest msg v hbar => ?mailbox⟩
  case idle =>
    have hcommit {op : Nat} {d : Bytes} : s.winCommit p fn op w d = s.windowAsked p fn op w d := State.winCommit_idle hbar hidle
    exact ⟨congrArg _ hcommit, congrArg _ hcommit, congrArg _ hcommit⟩
  case pending =>
    have hcount {op : Nat} {d : Bytes} : s.winCommit p fn op w d = s.setObj 0x2000 8 0 (s.obj 0x2000 8 + 1) :=
      State.winCommit_pending hbar hpending
    simp only [List.forall_mem_cons]
    exact ⟨congrArg _ hcount, congrArg _ hcount, congrArg _ hcount, List.forall_mem_nil _⟩
  case mailbox => exact ⟨execMbxSend_reached hbar dest msg, execMbxInHead_reached hbar v⟩

/-! ### Writes of particular objects, by any path (14 R371) -/

/-- Each command that is the write of one object writes it along its path. -/
theorem exec_objRow {via : Via} {unit : BitVec 16} {r : Instr × Nat × Nat × Nat × Nat} (hrow : r ∈ objRow via unit) (s : State) :
    exec r.1 s = .next (s.writeVia via r.2.1 r.2.2.1 0 r.2.2.2.1 r.2.2.2.2) := by
  revert r
  simp only [objRow, List.forall_mem_cons]
  exact ⟨rfl, rfl, rfl, rfl, rfl, List.forall_mem_nil _⟩

section
variable {s : State} {index sub arg len v : Nat}

/-- By window: a write operation committed to an idle window. -/
theorem State.writeVia_win {p : Port} {fn : Fin 64} (hbar : s.bar4 p fn = true)
    (hidle : (s.window (winKey p fn)).pending = false) :
    s.writeVia (.win p fn) index sub arg len v = s.windowAsked p fn 1 (objFields index sub arg len) (leBytes len v) :=
  State.winCommit_idle hbar hidle

/-- By the Beadline manager: an order of rank 2 with the frame's sequence. -/
theorem State.writeVia_manager {seq : BitVec 16} (hup : s.up = true) (hstate : s.bdl.state ≠ 0) :
    s.writeVia (.manager seq) index sub arg len v
      = s.ordered 2 seq.toNat (.odWrite index sub arg 0 (leBytes len v) seq.toNat) := by
  simp only [State.writeVia, hup, hstate, ne_eq, not_false_eq_true, decide_true, Bool.and_self, if_true, State.order_eq_ordered]

/-- By a fetched OBJ_WRITE that names the object: its effect registered, with the value as its input buffer. -/
theorem State.writeVia_cmd {cid : Nat} {c : Cmd} (hready : s.ready? cid Op.objWrite = some c) (hindex : c.field 32 2 = index)
    (hsub : c.field 34 1 = sub) : s.writeVia (.cmd cid) index sub arg len v = s.registered c 0 (leBytes len v) := by
  obtain rfl := State.ready?_cid hready
  simp only [State.writeVia, hready, hindex, hsub, and_self, if_true, State.orderCmd_modCmd_inbuf]

end

/-- Settles O7: every row is `State.writeVia` of its object (`exec_objRow`), and each path has its lemma. -/
theorem objectWriteRowsStamped : Obligations.ObjectWriteRowsStamped := by
  unfold Obligations.ObjectWriteRowsStamped
  intro s p fn seq cid unit c
  refine ⟨fun r hrow hbar hidle => ?_, fun r hrow hup hstate => ?_, fun r hrow hready hindex hsub => ?_⟩
  · exact (exec_objRow hrow s).trans (congrArg _ (State.writeVia_win hbar hidle))
  · exact (exec_objRow hrow s).trans (congrArg _ (State.writeVia_manager hup hstate))
  · exact (exec_objRow hrow s).trans (congrArg _ (State.writeVia_cmd hready hindex hsub))

end Sys2Proof.Machine
end

section
namespace Sys2Proof.Machine

/-! ### Frames of the manager acted on -/

section
variable (s : State) (fr : BdlFrame)

theorem State.acted_now : (s.acted fr).now = s.now := by
  obtain ⟨f, d, e⟩ := s.acted_frame fr
  rw [e]; rfl

theorem State.acted_xfer : (s.acted fr).bdl.xfer = s.bdl.xfer := by
  obtain ⟨f, d, e⟩ := s.acted_frame fr
  rw [e]

variable {s fr}

/-- Only a station that is not the manager acts on a manager's frame. -/
theorem State.managersFrame_station (hman : s.managersFrame fr) : s.bdl.manager = false := by
  obtain ⟨-, -, -, -, hstation⟩ := hman
  exact hstation

end

/-! ### Object requests (15 R394, R395) -/

section
variable {s t : State} {fr : BdlFrame} {x : OdXfer}

/-- A request of another source is counted as dropped and not acted on. -/
theorem State.takeOd_foreign (hears : s.hears fr) (hsource : fr.source ≠ 0) :
    s.takeOd fr = (false, s.heard.count 0x1100 0x10 1) := by
  simp only [State.takeOd, State.hear_of_hears hears, Bool.not_true, Bool.false_eq_true, if_false, if_pos hsource]

theorem execOdRead_not_taken (htype : fr.type = 0x10) (htake : s.takeOd fr = (false, t)) : execOdRead fr s = .next t := by
  simp only [execOdRead, htype, htake, ne_eq, not_true_eq_false, if_false, Bool.not_false, if_true]

theorem execOdWrite_not_taken (htype : fr.type = 0x11) (htake : s.takeOd fr = (false, t)) : execOdWrite fr s = .next t := by
  simp only [execOdWrite, htype, htake, ne_eq, not_true_eq_false, if_false, Bool.not_false, if_true]

/-- Settles O46: such a frame is not taken (`State.takeOd_foreign`), by OD_READ and by OD_WRITE. -/
theorem foreignOdDiscarded : Obligations.ForeignOdDiscarded := by
  unfold Obligations.ForeignOdDiscarded
  intro s fr hears hsource
  have htake := State.takeOd_foreign hears hsource
  exact ⟨fun htype => execOdRead_not_taken htype htake, fun htype => execOdWrite_not_taken htype htake⟩

/-- A segment goes on with the transfer held when the kind, the object and the offset agree. -/
theorem OdXfer.takes_iff {write : Bool} {r : OdReq} : x.takes write r = true ↔
    x.write = write ∧ x.index = r.index ∧ x.sub = r.sub ∧ x.arg = r.arg ∧ x.next = r.offset := by
  simp only [OdXfer.takes, Bool.and_eq_true, beq_iff_eq, decide_eq_true_eq, and_assoc]

/-- The station with no transfer held. -/
def State.noXfer (s : State) : State := { s with bdl := { s.bdl with xfer := none } }

section
variable {r : OdReq} (htake : s.takeOd fr = (true, t)) (hreq : odReq fr.payload = r) (hok : r.ok = true)
include htake hreq hok

/-- The first segment of an OD_READ registers the access. -/
theorem execOdRead_first (htype : fr.type = 0x10) (hfirst : r.first = true) (hoffset : r.offset = 0) :
    execOdRead fr s = .next (t.noXfer.ordered 2 fr.seq.toNat (.odRead r.index r.sub r.arg r.count fr.seq.toNat)) := by
  simp only [execOdRead, htype, htake, hreq, hok, hfirst, hoffset, ne_eq, not_true_eq_false, if_false, Bool.not_true,
    Bool.false_eq_true, if_true, State.order_eq_ordered, State.noXfer]

/-- A later segment of an OD_READ returns its part of the value held. -/
theorem execOdRead_later (htype : fr.type = 0x10) (hfirst : r.first = false) (hx : t.bdl.xfer = some x)
    (htakes : x.takes false r = true) (hin : r.offset < x.data.length) :
    execOdRead fr s = .next
      (({ t with bdl := { t.bdl with xfer := some { x with
          next := r.offset + (slice x.data r.offset (readCount r.count)).length, lastTick := t.now } } } : State).answer
        (t.now + 1) r.index r.sub Status.success r.arg r.offset (slice x.data r.offset (readCount r.count))) := by
  simp only [execOdRead, htype, htake, hreq, hok, hfirst, hx, htakes, hin, ne_eq, not_true_eq_false, if_false, Bool.not_true,
    Bool.false_eq_true, if_true, decide_true, Bool.and_self]

/-- An OD_WRITE of one segment registers its bytes. -/
theorem execOdWrite_whole (htype : fr.type = 0x11) (hlen : r.data.length = r.count) (hlast : r.last = true)
    (hfirst : r.first = true) (hoffset : r.offset = 0) :
    execOdWrite fr s = .next (t.noXfer.ordered 2 fr.seq.toNat (.odWrite r.index r.sub r.arg 0 r.data fr.seq.toNat)) := by
  simp only [execOdWrite, htype, htake, hreq, hok, hlen, hlast, hfirst, hoffset, ne_eq, not_true_eq_false, if_false, Bool.not_true,
    decide_false, Bool.or_self, Bool.false_eq_true, if_true, List.nil_append, State.order_eq_ordered, State.noXfer]

/-- The last of several segments of an OD_WRITE registers the bytes gathered. -/
theorem execOdWrite_last (htype : fr.type = 0x11) (hlen : r.data.length = r.count) (hlast : r.last = true)
    (hfirst : r.first = false) (hx : t.bdl.xfer = some x) (htakes : x.takes true r = true) :
    execOdWrite fr s = .next
      (t.noXfer.ordered 2 fr.seq.toNat (.odWrite r.index r.sub r.arg r.offset (x.data ++ r.data) fr.seq.toNat)) := by
  simp only [execOdWrite, htype, htake, hreq, hok, hlen, hlast, hfirst, hx, htakes, ne_eq, not_true_eq_false, if_false,
    Bool.not_true, decide_false, Bool.or_self, Bool.false_eq_true, if_true, State.order_eq_ordered, State.noXfer]

end

theorem execOdTransferTimeout_out (hx : s.bdl.xfer = some x) (hout : x.lastTick + 10000 ≤ s.now) :
    execOdTransferTimeout s = .next s.noXfer := by
  simp only [execOdTransferTimeout, hx, if_pos hout, State.noXfer]

theorem execOdTransferTimeout_in (hx : s.bdl.xfer = some x) (hin : s.now < x.lastTick + 10000) :
    execOdTransferTimeout s = .next s := by
  simp only [execOdTransferTimeout, hx, if_neg (Nat.not_le.2 hin)]

end

/-- Settles O47: a request of the manager is taken (`State.takeOd_manager`), and each segment has its lemma. -/
theorem odRows : Obligations.OdRows := by
  unfold Obligations.OdRows
  refine ⟨fun s fr r hman hstate hreq hok => ?segments, fun s x hx =>
    ⟨execOdTransferTimeout_out hx, execOdTransferTimeout_in hx⟩⟩
  have htake := State.takeOd_manager hman hstate
  have hxfer {x : OdXfer} (hx : s.bdl.xfer = some x) : (s.acted fr).bdl.xfer = some x := (s.acted_xfer fr).trans hx
  refine ⟨?readFirst, ?writeWhole, ?writeLast, ?readLater⟩
  case readFirst => exact execOdRead_first htake hreq hok
  case writeWhole =>
    exact fun htype hfirst hlast hoffset hlen => execOdWrite_whole htake hreq hok htype hlen hlast hfirst hoffset
  case writeLast =>
    intro x hx hwrite hindex hsub harg hnext htype hfirst hlast hlen
    exact execOdWrite_last htake hreq hok htype hlen hlast hfirst (hxfer hx)
      (OdXfer.takes_iff.2 ⟨hwrite, hindex, hsub, harg, hnext⟩)
  case readLater =>
    intro x hx hwrite hindex hsub harg hnext hin htype hfirst
    have hread := execOdRead_later htake hreq hok htype hfirst (hxfer hx)
      (OdXfer.takes_iff.2 ⟨hwrite, hindex, hsub, harg, hnext⟩) hin
    rw [State.acted_now] at hread
    exact hread

end Sys2Proof.Machine
end

section
namespace Sys2Proof.Machine

/-! ### Node control (15 R387, R388) -/

section
variable {s t : State} {fr : BdlFrame}

/-- A station that takes an ASSIGN of a valid id registers it. -/
theorem execAssign_taken {id : Nat} (htake : s.takeCtrl fr 1 = (true, t)) (hman : t.bdl.manager = false) (hdest : fr.dest = 0xFE)
    (hid : beNat (slice fr.payload 2 1) = id) (hlo : 1 ≤ id) (hhi : id ≤ 31) :
    execAssign fr s = .next (t.ordered 2 fr.seq.toNat (.nodeCtrl 1 id)) := by
  simp only [execAssign, htake, hman, hdest, hid, hlo, hhi, Bool.false_eq_true, if_false, decide_true, Bool.and_self, if_true,
    State.order_eq_ordered]

theorem execRelease_taken (htake : s.takeCtrl fr 2 = (true, t)) :
    execRelease fr s = .next (t.ordered 2 fr.seq.toNat (.nodeCtrl 2 0)) := by
  simp only [execRelease, htake, if_true, State.order_eq_ordered]

theorem execStart_taken (htake : s.takeCtrl fr 3 = (true, t)) :
    execStart fr s = .next (t.ordered 2 fr.seq.toNat (.nodeCtrl 3 0)) := by
  simp only [execStart, htake, if_true, State.order_eq_ordered]

theorem execStop_taken (htake : s.takeCtrl fr 4 = (true, t)) :
    execStop fr s = .next (t.ordered 2 fr.seq.toNat (.nodeCtrl 4 0)) := by
  simp only [execStop, htake, if_true, State.order_eq_ordered]

theorem execReset_taken (htake : s.takeCtrl fr 5 = (true, t)) (hkey : beNat (slice fr.payload 1 1) = 0xA5) :
    execReset fr s = .next (t.ordered 1 0 (.moduleReset 3)) := by
  simp only [execReset, htake, hkey, decide_true, Bool.and_self, if_true, State.order_eq_ordered]

end

section
variable {s : State}

theorem State.applyOrder_nodeCtrl {o : Order} {op id : Nat} (hbody : o.body = .nodeCtrl op id) :
    s.applyOrder o = s.applyNodeCtrl op id := by
  simp only [State.applyOrder, hbody]

theorem State.applyNodeCtrl_assign (hman : s.bdl.manager = false) (hstate : s.bdl.state = 0) (id : Nat) :
    s.applyNodeCtrl 1 id = ({ s with bdl := { s.bdl with nodeId := id, state := 1 } } : State).raiseEvent 6 :=
  if_pos ⟨hstate, hman⟩

theorem State.applyNodeCtrl_release (hman : s.bdl.manager = false) (hstate : s.bdl.state ≠ 0) :
    s.applyNodeCtrl 2 0 = ({ s with bdl := { s.bdl with nodeId := 0xFF, state := 0 } } : State).raiseEvent 6 :=
  if_pos ⟨hstate, hman⟩

theorem State.applyNodeCtrl_start (hstate : s.bdl.state = 1) :
    s.applyNodeCtrl 3 0 = { s with bdl := { s.bdl with state := 2 } } :=
  if_pos hstate

theorem State.applyNodeCtrl_stop (hstate : s.bdl.state = 2) :
    s.applyNodeCtrl 4 0 = ({ s with bdl := { s.bdl with
      state := 1, events := [], lostSince := s.bdl.lostSince + s.bdl.events.length } } : State).count 0x1100 0x12
        s.bdl.events.length :=
  if_pos hstate

end

/-- Settles O48: what is taken (`State.takeCtrl_manager`, `State.takeCtrl_assign`) is registered, and each op has its effect. -/
theorem nodeControlRows : Obligations.NodeControlRows := by
  unfold Obligations.NodeControlRows
  refine fun s fr => ⟨fun hman htype => ?registered, fun o hman => ?applied⟩
  case registered =>
    have htake {n : Nat} (hop : beNat (slice fr.payload 0 1) = n) (hn : n ≠ 1) : s.takeCtrl fr n = (true, s.acted fr) :=
      State.takeCtrl_manager hman htype hop (.inl hn)
    refine ⟨fun hop hdest hlo hhi => ?assign, fun hop => ?release, fun hop => ?start, fun hop => ?stop, fun hop hkey => ?reset⟩
    case assign =>
      have hstation : (s.heard.markSeen fr).bdl.manager = false := State.managersFrame_station (s := s) hman
      exact execAssign_taken (State.takeCtrl_assign hman htype hop hdest) hstation hdest rfl hlo hhi
    case release => exact execRelease_taken (htake hop (by decide))
    case start => exact execStart_taken (htake hop (by decide))
    case stop => exact execStop_taken (htake hop (by decide))
    case reset => exact execReset_taken (htake hop (by decide)) hkey
  case applied =>
    refine ⟨fun id hbody hstate => ?_, fun hbody hstate => ?_, fun hbody hstate => ?_, fun hbody hstate => ?_⟩
    · exact (State.applyOrder_nodeCtrl hbody).trans (State.applyNodeCtrl_assign hman hstate id)
    · exact (State.applyOrder_nodeCtrl hbody).trans (State.applyNodeCtrl_release hman hstate)
    · exact (State.applyOrder_nodeCtrl hbody).trans (State.applyNodeCtrl_start hstate)
    · exact (State.applyOrder_nodeCtrl hbody).trans (State.applyNodeCtrl_stop hstate)

end Sys2Proof.Machine
end

section
namespace Sys2Proof.Machine

/-! ### Links and ring state (15 R380, R399) -/

/-- What is written reads back, in any list, when it is not what an unlisted key reads as. -/
theorem Sparse.get_put_listed {α : Type} [DecidableEq α] {d : Nat → α} {m : List (Nat × α)} {k : Nat} {v : α}
    (hv : v ≠ d k) : Sparse.get d (Sparse.put d m k v) k = v := by
  induction m with
  | nil => simp only [Sparse.put, if_neg hv, Sparse.get, if_true]
  | cons e m ih =>
    simp only [Sparse.put, if_neg hv]
    split
    · simp only [Sparse.get, if_true]
    · split
      · simp only [Sparse.get, if_true]
      · next hne => simp only [Sparse.get, if_neg hne, ih]

/-- A counter that reads 0 when unlisted reads as counted. -/
theorem State.obj_count_of_default {s : State} {i u n a : Nat} (hzero : dictDefault (objKey i u a) = 0) (hn : 0 < n) :
    (s.count i u n a).obj i u a = s.obj i u a + n :=
  Sparse.get_put_listed (by omega)

/-- Raising an event changes of the station only its queue of EVENTs. -/
theorem State.raiseEvent_bdl (s : State) (code : Nat) :
    ∃ es n, (s.raiseEvent code).bdl = { s.bdl with events := es, lostSince := n } := by
  simp only [State.raiseEvent, State.queueEvent]
  split
  · split
    · exact ⟨_, _, rfl⟩
    · exact ⟨_, _, rfl⟩
  · exact ⟨_, _, rfl⟩

/-- The state with its links set and nothing else. -/
def State.linked (s : State) (up down : Bool) : State := { s with bdl := { s.bdl with upLink := up, downLink := down } }

/-- Links set: the ring's state follows from them, and its change raises ATTN 6 on both ports. -/
def State.linksSet (s t : State) (up down : Bool) : Prop :=
  s.onlyStation t ∧ t.clk = s.clk ∧ t.bdl.upLink = up ∧ t.bdl.downLink = down
    ∧ (t.bdl.ring ≠ s.bdl.ring → t.portA.pending.getLsbD 6 = true ∧ t.portB.pending.getLsbD 6 = true)
    ∧ (t.bdl.ring = s.bdl.ring → t = { s with bdl := t.bdl })

section
variable {s : State} {up down : Bool}

theorem State.setLinks_same (hring : s.bdl.ring = (s.linked up down).bdl.ring) : s.setLinks up down = s.linked up down := by
  have hwrap : ¬ (s.bdl.ring = 0 ∧ ((s.linked up down).bdl.ring = 1 ∨ (s.linked up down).bdl.ring = 2)) := by omega
  exact (if_pos hring).trans (if_neg hwrap)

/-- A change of ring state raises ATTN 6; one from the closed ring to a wrap is counted first. -/
theorem State.setLinks_change (hring : s.bdl.ring ≠ (s.linked up down).bdl.ring) : s.setLinks up down
    = (if s.bdl.ring = 0 ∧ ((s.linked up down).bdl.ring = 1 ∨ (s.linked up down).bdl.ring = 2)
        then (s.linked up down).count 0x1100 0x14 1 else s.linked up down).raiseEvent 6 :=
  if_neg hring

/-- An event raised where only the links and counters have changed. -/
theorem State.raiseEvent_linksSet {u : State} (hu : ∃ d, u = { s.linked up down with dict := d })
    (hring : s.bdl.ring ≠ (s.linked up down).bdl.ring) : s.linksSet (u.raiseEvent 6) up down := by
  obtain ⟨d, rfl⟩ := hu
  obtain ⟨es, n, hb⟩ := State.raiseEvent_bdl { s.linked up down with dict := d } 6
  obtain ⟨b, d', he, -⟩ := State.raiseEvent_frame { s.linked up down with dict := d } 6
  have hnew : ({ s.linked up down with dict := d }.raiseEvent 6).bdl.ring = (s.linked up down).bdl.ring := by rw [hb]; rfl
  refine ⟨by rw [he]; rfl, by rw [he]; rfl, by rw [hb]; rfl, by rw [hb]; rfl, fun _ => ⟨?_, ?_⟩, fun h => ?_⟩
  · rw [he]; exact PortState.raise_pending_self _ (by decide)
  · rw [he]; exact PortState.raise_pending_self _ (by decide)
  · exact absurd (h.symm.trans hnew) hring

theorem State.setLinks_linksSet (s : State) (up down : Bool) : s.linksSet (s.setLinks up down) up down := by
  by_cases hring : s.bdl.ring = (s.linked up down).bdl.ring
  · rw [State.setLinks_same hring]
    exact ⟨rfl, rfl, rfl, rfl, fun h => absurd hring.symm h, fun _ => rfl⟩
  · rw [State.setLinks_change hring]
    refine State.raiseEvent_linksSet ?_ hring
    split
    · exact ⟨_, rfl⟩
    · exact ⟨_, rfl⟩

/-- A closed ring that loses one of its links is wrapped, which is counted. -/
theorem State.setLinks_wraps (hclosed : s.bdl.ring = 0)
    (hwrap : (s.linked up down).bdl.ring = 1 ∨ (s.linked up down).bdl.ring = 2) :
    (s.setLinks up down).obj 0x1100 0x14 = s.obj 0x1100 0x14 + 1 := by
  rw [State.setLinks_change (by omega), if_pos ⟨hclosed, hwrap⟩, State.raiseEvent_obj (by decide)]
  exact State.obj_count_of_default (by decide) Nat.one_pos

end

theorem Bdl.ring_closed_iff {b : Bdl} : b.ring = 0 ↔ b.upLink = true ∧ b.downLink = true := by
  unfold Bdl.ring
  cases b.upLink with
  | false => cases b.downLink <;> decide
  | true => cases b.downLink <;> decide

section
variable {s : State}

theorem execLinkUp_sets (dir : BdlDir) (hup : s.up = true) (hrec : s.boot.recovery = false) (hnow : 1000 ≤ s.now) :
    execLinkUp dir s = .next (s.setLinks (s.bdl.upLink || decide (dir = .up)) (s.bdl.downLink || decide (dir = .down))) := by
  simp only [execLinkUp, hup, hrec, hnow, Bool.not_false, decide_true, Bool.and_self, if_true]
  cases dir with
  | up => simp only [decide_true, Bool.or_true, reduceCtorEq, decide_false, Bool.or_false]
  | down => simp only [decide_true, Bool.or_true, reduceCtorEq, decide_false, Bool.or_false]

theorem State.linkDown_sets (s : State) (dir : BdlDir) :
    s.linkDown dir = s.setLinks (s.bdl.upLink && decide (dir ≠ .up)) (s.bdl.downLink && decide (dir ≠ .down)) := by
  cases dir with
  | up => simp [State.linkDown]
  | down => simp [State.linkDown]

/-- A closed ring is wrapped by the loss of either link. -/
theorem State.linkDown_wraps (hclosed : s.bdl.ring = 0) (dir : BdlDir) :
    (s.linkDown dir).obj 0x1100 0x14 = s.obj 0x1100 0x14 + 1 := by
  obtain ⟨hu, hd⟩ := Bdl.ring_closed_iff.1 hclosed
  cases dir with
  | up =>
    exact State.setLinks_wraps hclosed (.inl (by simp only [State.linked, Bdl.ring, hd, Bool.false_eq_true, if_false, if_true]))
  | down =>
    exact State.setLinks_wraps hclosed (.inr (by simp only [State.linked, Bdl.ring, hu, Bool.false_eq_true, if_false, if_true]))

end

/-- Settles O49: both commands set the links (`State.setLinks_linksSet`); a lost link wraps a closed ring. -/
theorem ringLinks : Obligations.RingLinks := by
  unfold Obligations.RingLinks
  refine fun s hup => ⟨fun dir hrec hnow => ⟨_, execLinkUp_sets dir hup hrec hnow, State.setLinks_linksSet ..⟩,
    fun dir => ⟨s.linkDown dir, if_pos hup, ?_⟩⟩
  have hset := s.setLinks_linksSet (s.bdl.upLink && decide (dir ≠ .up)) (s.bdl.downLink && decide (dir ≠ .down))
  rw [← State.linkDown_sets] at hset
  obtain ⟨honly, hclk, hu, hd, hattn, -⟩ := hset
  exact ⟨honly, hclk, hu, hd, hattn, fun hclosed => State.linkDown_wraps hclosed dir⟩

end Sys2Proof.Machine
end

section
namespace Sys2Proof.Machine

/-! ### SYNC frames (15 R388-R392) -/

section
variable {s : State} {fr : BdlFrame} {localNs residence : Nat}

theorem execSyncFrame_manager (hears : s.hears fr) (htype : fr.type = 0x01) (hman : s.bdl.manager = true) :
    execSyncFrame fr localNs residence s
      = .next (s.heard.ordered 2 fr.seq.toNat (.rivalTag (beNat (slice fr.payload 16 4)))) := by
  simp only [execSyncFrame, htype, State.hear_of_hears hears, State.heard_bdl, hman, ne_eq, not_true_eq_false, if_false,
    Bool.not_true, Bool.false_eq_true, if_true, State.managerSync, State.order_eq_ordered]

theorem execSyncFrame_station (hears : s.hears fr) (htype : fr.type = 0x01) (hman : s.bdl.manager = false) :
    execSyncFrame fr localNs residence s = .next (s.heard.stationSync fr localNs residence) := by
  simp only [execSyncFrame, htype, State.hear_of_hears hears, State.heard_bdl, hman, ne_eq, not_true_eq_false, if_false,
    Bool.not_true, Bool.false_eq_true]

theorem State.forward_now (s : State) (fr : BdlFrame) (p : Bytes) : (s.forward fr p).now = s.now := by
  obtain ⟨f, d, e⟩ := s.forward_frame fr p
  rw [e]; rfl

/-- The bytes of a SYNC with its correction raised by the hop and by the time it stays here. -/
def State.syncOnward (s : State) (fr : BdlFrame) (residence : Nat) : Bytes :=
  patch fr.payload 12 (beBytes 4 (beNat (slice fr.payload 12 4) + s.hopDelay fr.dir + residence))

/-- The offset that a SYNC shows: the manager's time at its arrival less this station's. -/
def State.syncOffset (s : State) (fr : BdlFrame) (localNs : Nat) : Int :=
  (beNat (slice fr.payload 0 8) * 1000 + beNat (slice fr.payload 8 2) + beNat (slice fr.payload 12 4) + s.hopDelay fr.dir : Nat)
    - ((s.now : Int) * 1000 + localNs)

/-- A new SYNC of 20 bytes goes on with its correction, and its offset is registered. -/
theorem State.stationSync_new (hnew : s.isNew fr = true) (hlen : fr.payload.length = 20) :
    s.stationSync fr localNs residence
      = ((s.forward fr (s.syncOnward fr residence)).markSeen fr).ordered 2 fr.seq.toNat
          (.sync (s.syncOffset fr localNs) (beNat (slice fr.payload 10 2))) := by
  simp only [State.stationSync, hnew, hlen, Bool.not_true, ne_eq, not_true_eq_false, decide_false, Bool.or_self,
    Bool.false_eq_true, if_false, State.forward_now, State.order_eq_ordered, State.syncOnward, State.syncOffset, Nat.cast_add,
    Nat.cast_mul, Nat.cast_ofNat]

theorem State.applyOrder_rivalTag {o : Order} {tag : Nat} (hbody : o.body = .rivalTag tag) :
    s.applyOrder o = s.applyRivalTag tag := by
  simp only [State.applyOrder, hbody]

theorem State.applyRivalTag_lower {tag : Nat} (hman : s.bdl.manager = true) (hlower : tag < s.obj 0x1100 4) :
    s.applyRivalTag tag
      = (({ s with bdl := { s.bdl with manager := false, nodeId := 0xFF, state := 0, assignSent := none } } : State).count
          0x1100 0x13 1).raiseEvent 6 := by
  simp only [State.applyRivalTag, hman, hlower, decide_true, Bool.and_self, if_true]

theorem State.applyOrder_sync {o : Order} {offset : Int} {interval : Nat} (hbody : o.body = .sync offset interval) :
    s.applyOrder o = s.applySyncOrder offset interval := by
  simp only [State.applyOrder, hbody]

theorem State.applySyncOrder_station (hman : s.bdl.manager = false) (offset : Int) (interval : Nat) :
    s.applySyncOrder offset interval
      = ({ s with clk := { s.clk with syncInterval := interval } } : State).applySync (1000 * s.now) offset := by
  simp only [State.applySyncOrder, hman, Bool.false_eq_true, if_false, mul_comm]

theorem execSyncSend_due (hup : s.up = true) (hman : s.bdl.manager = true) (hinterval : s.now % s.obj 0x1100 6 = 0)
    (hlast : s.clk.lastSync ≠ s.now) :
    execSyncSend s = .next (({ s with clk := { s.clk with lastSync := s.now } } : State).send 0x01 0xFF
      (beBytes 8 s.now ++ beBytes 2 0 ++ beBytes 2 (s.obj 0x1100 6) ++ beBytes 4 0 ++ beBytes 4 (s.obj 0x1100 4))) := by
  simp only [execSyncSend, hup, hman, hinterval, hlast, ne_eq, not_false_eq_true, decide_true, Bool.and_self, if_true]

end

/-- Settles O50: a SYNC at the manager and at a station, the orders they register, its loss and the manager's own. -/
theorem syncRows : Obligations.SyncRows := by
  unfold Obligations.SyncRows
  refine fun s fr localNs residence => ⟨execSyncFrame_manager, fun o tag hbody hman hlower => ?rival,
    fun hears htype hman hnew hlen => ?new, fun o offset interval hbody hman => ?offset, fun hlost => if_pos hlost,
    execSyncSend_due⟩
  case rival => exact (State.applyOrder_rivalTag hbody).trans (State.applyRivalTag_lower hman hlower)
  case new => exact (execSyncFrame_station hears htype hman).trans (congrArg _ (State.stationSync_new hnew hlen))
  case offset => exact (State.applyOrder_sync hbody).trans (State.applySyncOrder_station hman offset interval)

end Sys2Proof.Machine
end

section
namespace Sys2Proof.Machine

/-! ### Hop delays (15 R390) -/

section
variable {s : State} {fr : BdlFrame} {turnaround : BitVec 32} {ns : Nat}

/-- A frame sent on at least one pair leaves at once, with the next sequence number. -/
theorem State.originate_sends {down up : Bool} (hpair : (down || up) = true) (type dest : Nat) (payload : Bytes) :
    s.originate type dest payload down up
      = ({ s with bdl := { s.bdl with
          tx := s.ownFrame type dest payload down up :: s.bdl.tx, txSeq := s.bdl.txSeq + 1 } } : State).count 0x1100 0x0E 1 :=
  if_neg (by rw [← Bool.not_or, hpair]; decide)

/-- A hop with eight samples is measured at its interval, one request at a time. -/
theorem execDelayMeasurement_up (hup : s.up = true) (hlink : s.bdl.upLink = true) (hfree : s.bdl.forward = [])
    (hsamples : 8 ≤ s.bdl.delayUp.length) (hdue : s.bdl.lastMeasUp + s.obj 0x1100 8 ≤ s.now) :
    execDelayMeasurement .up ns s = .next
      (let t := s.originate 0x02 0xFD [] false true
       { t with bdl := { t.bdl with reqUp := some (s.bdl.txSeq % 65536, ns), lastMeasUp := s.now } }) := by
  simp only [execDelayMeasurement, Bdl.samples, Bdl.lastMeas, Bdl.linkOf, hup, hlink, hfree, Nat.not_lt.2 hsamples, hdue,
    List.isEmpty_nil, reduceCtorEq, decide_false, decide_true, Bool.and_self, if_true, if_false]

theorem execDelayReq_answers (hears : s.hears fr) (htype : fr.type = 0x02) (hdest : fr.dest = 0xFD) :
    execDelayReq fr turnaround s = .next
      (if s.bdl.forward.isEmpty then
        s.heard.originate 0x03 0xFD (beBytes 4 turnaround.toNat ++ beBytes 2 fr.seq.toNat) (decide (fr.dir = .down))
          (decide (fr.dir = .up))
      else s.heard.queueOn 0x03 0xFD (beBytes 4 turnaround.toNat ++ beBytes 2 fr.seq.toNat) (decide (fr.dir = .down))
          (decide (fr.dir = .up))) := by
  simp only [execDelayReq, htype, hdest, State.hear_of_hears hears, State.heard_bdl, ne_eq, not_true_eq_false, or_self, if_false,
    Bool.not_true, Bool.false_eq_true]
  exact (apply_ite Host.Outcome.next _ _ _).symm

theorem dir_down_or_up (d : BdlDir) : (decide (d = .down) || decide (d = .up)) = true := by
  cases d with
  | up => rfl
  | down => rfl

/-- The answer to the request that is out adds its sample; the hop goes down when its mean is then above 1,000 ns. -/
theorem execDelayResp_up {q sent : Nat} (hears : s.hears fr) (htype : fr.type = 0x03) (hdest : fr.dest = 0xFD)
    (hdir : fr.dir = .up) (hreq : s.bdl.reqUp = some (q, sent)) (hseq : beNat (slice fr.payload 4 2) = q) {l : List Nat}
    (hl : addSample s.bdl.delayUp (ns - sent - beNat (slice fr.payload 0 4)) = l) :
    execDelayResp fr ns s = .next
      (if 1000 < meanDelay l then
        ({ s.heard with bdl := { s.bdl with reqUp := none, delayUp := l } } : State).linkDown .up
      else { s.heard with bdl := { s.bdl with reqUp := none, delayUp := l } }) := by
  simp only [execDelayResp, htype, hdest, hdir, State.hear_of_hears hears, State.heard_bdl, Bdl.req, hreq, hseq, hl, State.hopDelay,
    ne_eq, not_true_eq_false, or_self, if_false, Bool.not_true, decide_false, Bool.or_self, Bool.false_eq_true]
  exact (apply_ite Host.Outcome.next _ _ _).symm

end

/-- Settles O52: the request is sent, a request is answered, and the answer adds its sample. -/
theorem delayRows : Obligations.DelayRows := by
  unfold Obligations.DelayRows
  refine fun s fr turnaround ns sent q => ⟨fun hup hlink hfree hsamples hdue => ?measure, fun f hf hears htype hdest => ?answer,
    fun hears htype hdest hdir hreq hseq => ?sample⟩
  case measure =>
    refine ⟨_, execDelayMeasurement_up hup hlink hfree hsamples hdue, ?_⟩
    rw [State.originate_sends rfl]
    exact ⟨rfl, rfl⟩
  case answer =>
    refine ⟨_, execDelayReq_answers hears htype hdest, ?_⟩
    rw [State.originate_sends (dir_down_or_up fr.dir)]
    subst hf
    split
    · next hempty =>
      exact ⟨rfl, fun _ => rfl, fun hwait => absurd (List.isEmpty_iff.1 hempty) hwait⟩
    · next hwait =>
      exact ⟨rfl, fun hempty => absurd (List.isEmpty_iff.2 hempty) hwait, fun _ => rfl⟩
  case sample =>
    have hresp := execDelayResp_up (ns := ns) hears htype hdest hdir hreq hseq rfl
    exact ⟨fun hfast => hresp.trans (congrArg _ (if_neg (Nat.not_lt.2 hfast))),
      fun hslow => hresp.trans (congrArg _ (if_pos hslow))⟩

end Sys2Proof.Machine
end

section
namespace Sys2Proof.Machine

/-! ### Frames forwarded (15 R384) -/

section
variable {s : State} {fr : BdlFrame}

/-- A frame for another station, or for all, goes into the forward buffer. -/
theorem execFrameForward_forwards (hears : s.hears fr) (htype : fr.type ≠ 0x01) (hdest : fr.dest ≠ 0xFD)
    (hother : s.isFor fr = false ∨ fr.dest = 0xFF) : execFrameForward fr s = .next (s.heard.forward fr fr.payload) := by
  have hnat : fr.dest.toNat ≠ 0xFD := fun h => hdest (BitVec.eq_of_toNat_eq h)
  have hpass : ¬ (s.isFor fr && decide (fr.dest.toNat ≠ 0xFF)) = true := by
    obtain h | h := hother
    · simp [h]
    · simp [h]
  simp only [execFrameForward, State.hear_of_hears hears, htype, hnat, State.heard_isFor, Bool.not_true, decide_false, Bool.or_self,
    Bool.false_eq_true, if_false, if_neg hpass]

theorem State.forward_room (hman : s.bdl.manager = false) (hroom : s.bdl.forward.length < 4) (payload : Bytes) :
    s.forward fr payload = { s with bdl := { s.bdl with forward := s.bdl.forward ++
      [⟨(s.bdl.pairs (decide (fr.dir = .up))).1, (s.bdl.pairs (decide (fr.dir = .up))).2, fr.type.toNat, fr.source.toNat,
        fr.dest.toNat, fr.seq.toNat, payload, s.now⟩] } } := by
  simp only [State.forward, hman, Bool.false_eq_true, if_false, if_neg (Nat.not_le.2 hroom)]

theorem State.forward_full (hman : s.bdl.manager = false) (hfull : 4 ≤ s.bdl.forward.length) (payload : Bytes) :
    s.forward fr payload = s.count 0x1100 0x10 1 := by
  simp only [State.forward, hman, Bool.false_eq_true, if_false, if_pos hfull]

end

/-! ### Events, reports and liveness (15 R385, R396-R398) -/

section
variable {s : State} {fr : BdlFrame}

theorem execEventQueueSend_sends {e : BdlEvent} {es : List BdlEvent} (hevents : s.bdl.events = e :: es)
    (hmay : s.mayOriginate = true) (hstate : s.bdl.state = 2) (hman : s.bdl.manager = false) :
    execEventQueueSend s = .next
      ((({ s with bdl := { s.bdl with events := es, lostSince := 0, evSeq := s.bdl.evSeq + 1 } } : State).send 0x20 0
        (eventBytes { e with seq := s.bdl.evSeq % 65536 } s.bdl.lostSince)).noteOrigin) := by
  simp only [execEventQueueSend, hevents, hmay, hstate, hman, decide_true, Bool.not_false, Bool.and_self, if_true]

/-- A station's HEARTBEAT goes to node 0. -/
theorem execHeartbeatSend_station (hdue : s.heartbeatDue = true) (hman : s.bdl.manager = false) :
    execHeartbeatSend s = .next
      ((({ s with bdl := { s.bdl with lastHeartbeat := s.now } } : State).send 0x30 0 s.heartbeatBytes).noteOrigin) := by
  simp only [execHeartbeatSend, hdue, hman, Bool.false_eq_true, if_false, if_true]
  rfl

/-- The broadcast HEARTBEAT of the manager is passed on, and its liveness registered. -/
theorem execHeartbeat_manager (hman : s.managersFrame fr) (htype : fr.type = 0x30) (hdest : fr.dest = 0xFF) :
    execHeartbeat fr s = .next ((s.acted fr).ordered 2 fr.seq.toNat .managerSeen) := by
  obtain ⟨hears, hsource, -, hnew, hstation⟩ := hman
  have hnew' : (s.heard.passOn fr).isNew fr = true := by
    obtain ⟨f, d, e⟩ := State.passOn_frame s.heard fr
    rw [e]; exact hnew
  simp only [execHeartbeat, htype, State.hear_of_hears hears, State.heard_bdl, hstation, hsource, hdest, hnew', ne_eq,
    not_true_eq_false, if_false, Bool.not_true, Bool.or_self, Bool.false_eq_true, decide_true, Bool.and_self, if_true,
    State.order_eq_ordered, State.acted]

theorem execManagerHeartbeatLoss_raises (hup : s.up = true) (hman : s.bdl.manager = false) (hlost : s.bdl.managerLost = false)
    (hlate : s.bdl.managerSeen + 3 * s.obj 0x1100 9 ≤ s.now) : execManagerHeartbeatLoss s
      = .next (({ s with bdl := { s.bdl with managerLost := true } } : State).raiseEvent 6) := by
  simp only [execManagerHeartbeatLoss, hup, hman, hlost, hlate, Bool.not_false, decide_true, Bool.and_self, if_true]

theorem State.applyOrder_managerSeen {o : Order} (hbody : o.body = .managerSeen) : s.applyOrder o = s.applyManagerSeen := by
  simp only [State.applyOrder, hbody]

end

/-- Settles O53: a frame forwarded by `execFrameForward_forwards`, each frame of the station's own by its lemma. -/
theorem framesSent : Obligations.FramesSent := by
  unfold Obligations.FramesSent
  refine ⟨fun s fr hears hman htype hdest hother => ⟨fun hroom => ?room, fun hfull => ?full⟩,
    fun s e es row => ⟨execEventQueueSend_sends, fun hdue => if_pos hdue⟩,
    fun s fr => ⟨execHeartbeatSend_station, execHeartbeat_manager, fun o => State.applyOrder_managerSeen,
      execManagerHeartbeatLoss_raises⟩⟩
  case room =>
    refine ⟨_, execFrameForward_forwards hears htype hdest hother, ?_⟩
    rw [State.forward_room (s := s.heard) hman hroom]
    exact ⟨rfl, _, _, rfl, rfl⟩
  case full =>
    have hdropped := State.forward_full (s := s.heard) (fr := fr) hman hfull fr.payload
    exact (execFrameForward_forwards hears htype hdest hother).trans (congrArg _ hdropped)

end Sys2Proof.Machine
end

section
namespace Sys2Proof.Machine

/-! ### The guard (16 R413, R415) -/

/-- The state once a sample of input power has joined the mean, before the guard is judged. -/
def State.guardSampled (s : State) (v : Nat) : State :=
  let ss := (v :: s.pwr.samples).take 100
  let mw := 500 * sumBy id ss / max 1 ss.length
  ({ s with
    pwr := { s.pwr with
      samples := ss, energy := s.pwr.energy + 5 * v, measured := some s.free, peak := max s.pwr.peak mw }
    free := s.free + 26 } : State).setObj 0x6100 3 0 mw

section
variable (s : State)

/-- The sample writes no object that the effective limit reads. -/
theorem State.guardSampled_effLimit (v : Nat) : (s.guardSampled v).effLimit = s.effLimit := by
  have hlimit : (s.guardSampled v).obj 0x6000 1 = s.obj 0x6000 1 := State.obj_setObj_other (by decide)
  exact congrArg (min · (thermalLimit s.pwr.step)) hlimit

/-- The guard engages above 95 % of the effective limit and ends below 90 %, where the thermal step lets it (R415). -/
def State.guardJudged (t : State) : State :=
  let sum := 100 * sumBy id t.pwr.samples
  let n := t.pwr.samples.length
  if 95 * t.effLimit * n < sum then t.engageGuard
  else if sum < 90 * t.effLimit * n ∧ t.pwr.step ≠ 3 then { t with pwr := { t.pwr with guard := false } }
  else t

/-- Setting pwr_limit_active changes objects, and its event the ports and the station. -/
theorem State.limitActive_frame : ∃ A B b d, s.limitActive = { s with portA := A, portB := B, bdl := b, dict := d } := by
  unfold State.limitActive
  split
  · obtain ⟨b, d, h, -⟩ := (s.setObj 0x6000 0x0C 0 1).raiseEvent_frame 2
    exact ⟨_, _, b, d, h⟩
  · exact ⟨_, _, _, _, rfl⟩

/-- However the guard stood, it is engaged afterwards. -/
theorem State.engageGuard_frame : ∃ A B b d, s.engageGuard
    = { s with pwr := { s.pwr with guard := true }, portA := A, portB := B, bdl := b, dict := d } := by
  unfold State.engageGuard
  split
  · next hguard => exact ⟨s.portA, s.portB, s.bdl, s.dict, by rw [← hguard]⟩
  · obtain ⟨A, B, b, d, h⟩ := State.limitActive_frame
      (({ s with pwr := { s.pwr with guard := true } } : State).count 0x6000 0x0B 1)
    exact ⟨A, B, b, d, h⟩

/-- Judging sets the guard as the mean asks; beside it only what an event and a count touch changes. -/
theorem State.guardJudged_frame : ∃ g A B b d, s.guardJudged
      = { s with pwr := { s.pwr with guard := g }, portA := A, portB := B, bdl := b, dict := d }
    ∧ (95 * s.effLimit * s.pwr.samples.length < 100 * sumBy id s.pwr.samples → g = true)
    ∧ (100 * sumBy id s.pwr.samples < 90 * s.effLimit * s.pwr.samples.length → s.pwr.step ≠ 3 → g = false) := by
  unfold State.guardJudged
  dsimp only
  split
  · next habove =>
    have hless : 90 * s.effLimit * s.pwr.samples.length ≤ 95 * s.effLimit * s.pwr.samples.length := by gcongr; omega
    obtain ⟨A, B, b, d, hengaged⟩ := s.engageGuard_frame
    exact ⟨true, A, B, b, d, hengaged, fun _ => rfl, fun hbelow => by omega⟩
  · next hnot =>
    split
    · exact ⟨false, _, _, _, _, rfl, fun habove => absurd habove hnot, fun _ _ => rfl⟩
    · next hstays =>
      exact ⟨s.pwr.guard, s.portA, s.portB, s.bdl, s.dict, rfl, fun habove => absurd habove hnot,
        fun hbelow hstep => absurd ⟨hbelow, hstep⟩ hstays⟩

end

section
variable {s : State}

/-- GUARD takes the sample and judges the guard. -/
theorem execGuard_judges (v : BitVec 16) (hup : s.up = true) :
    execGuard v s = .next (s.guardSampled v.toNat).guardJudged := by
  simp only [execGuard, hup, Bool.not_true, Bool.false_eq_true, if_false, State.guardJudged, apply_ite Host.Outcome.next]
  rfl

/-! ### Thermal steps (16 R417, R418) -/

/-- A sample of the sensors asks for a rise only to a step above the present one. -/
theorem execThermalSample_asks {rs : List Int} (hup : s.up = true) (htick : s.now % 100 = 0) (hlen : rs.length = 47) :
    ∃ m r c, execThermalSample rs s
        = .next { s with pwr := { s.pwr with temps := rs, tempsMax := m, riseTo := r, coolSince := c } }
      ∧ (s.pwr.step < thermalStepOf rs → r = some (thermalStepOf rs)) ∧ (thermalStepOf rs ≤ s.pwr.step → r = s.pwr.riseTo) := by
  simp only [execThermalSample, hup, htick, hlen, decide_true, Bool.and_self, if_true]
  exact ⟨_, _, _, rfl, fun hrise => if_pos hrise, fun hnot => if_neg (Nat.not_lt.2 hnot)⟩

theorem execThermalStepFall_falls {t0 : Tick} (hcool : s.pwr.coolSince = some t0) (hup : s.up = true) (hstep : s.pwr.step ≠ 0)
    (hfatal : s.pwr.step ≠ 4) (hlong : t0 + 100000 ≤ s.now) :
    ∃ c, execThermalStepFall s = .next { s with pwr := { s.pwr with step := s.pwr.step - 1, coolSince := c } } := by
  simp only [execThermalStepFall, hcool, hup, hstep, hfatal, hlong, ne_eq, not_false_eq_true, decide_true, Bool.and_self, if_true]
  exact ⟨_, rfl⟩

end

/-- Settles O33: the guard by `State.guardJudged_frame`, the thermal rows by their lemmas, the others by their conditions. -/
theorem powerRows : Obligations.PowerRows := by
  unfold Obligations.PowerRows
  refine fun s => ⟨fun v hup => ?guard, fun hquiet => if_pos hquiet, fun rs hup htick hlen => ?sample,
    fun t0 hcool hup hstep hfatal hlong => ?fall, fun hup => if_pos hup⟩
  case guard =>
    obtain ⟨g, A, B, b, d, hjudged, hengaged, hended⟩ := (s.guardSampled v.toNat).guardJudged_frame
    rw [State.guardSampled_effLimit] at hengaged hended
    exact ⟨_, (execGuard_judges v hup).trans (congrArg _ hjudged), rfl, rfl, rfl, hengaged, hended⟩
  case sample =>
    obtain ⟨m, r, c, hnext, hrises, hstays⟩ := execThermalSample_asks hup htick hlen
    exact ⟨_, hnext, rfl, rfl, rfl, hrises, hstays⟩
  case fall =>
    obtain ⟨c, hnext⟩ := execThermalStepFall_falls hcool hup hstep hfatal hlong
    exact ⟨_, hnext, rfl, rfl, rfl, rfl⟩

end Sys2Proof.Machine
end

section
namespace Sys2Proof.Machine

/-! ### What a program and an erase do to flash (06 R171; 16 R410) -/

section
variable (s : State)

/-- Counting bytes programmed changes objects, and at the wear threshold the ports and the station. -/
theorem State.countNand_frame (n : Nat) : ∃ A B b d, s.countNand n = { s with portA := A, portB := B, bdl := b, dict := d } := by
  unfold State.countNand
  dsimp only
  split
  · obtain ⟨b, d, h, -⟩ := (s.count 0x4000 0x0A n).raiseEvent_frame 4
    exact ⟨_, _, b, d, h⟩
  · exact ⟨_, _, _, _, rfl⟩

theorem State.program_frame (t part : Nat) (bs : Bytes) : ∃ A B b d, s.program t part bs = { s with
    flash := flashPut s.flash t ⟨bs, part, s.obj 0x7010 0 part⟩, portA := A, portB := B, bdl := b, dict := d } :=
  State.countNand_frame _ 4096

/-- An erase takes from one die the tiles of its range. -/
theorem State.eraseTiles_flash (die base n a : Nat) : flashGet (s.eraseTiles die base n).flash a
    = if base ≤ a ∧ a < base + n ∧ tileDie a = die then Tile.erased else flashGet s.flash a := by
  have hkept : flashGet (s.eraseTiles die base n).flash a
      = if (!(decide (base ≤ a) && decide (a < base + n) && decide (tileDie a = die))) = true then flashGet s.flash a
        else Tile.erased :=
    Sparse.get_keep (p := fun a => !(decide (base ≤ a) && decide (a < base + n) && decide (tileDie a = die))) s.flash a
  simp only [hkept, ← Bool.decide_and, and_assoc, ← decide_not, decide_eq_true_eq, ite_not]

/-- An ended grant is marked for release. -/
theorem State.endGrant_releasing {gid : Nat} {x : Grant} (hx : x ∈ (s.endGrant gid).pwr.grants) (hgid : x.gid = gid) :
    x.releasing = true := by
  obtain ⟨y, -, rfl⟩ := List.mem_map.1 hx
  by_cases hy : y.gid = gid
  · simp only [hy, decide_true, if_true]
  · rw [if_neg (by simpa using hy)] at hgid
    exact absurd hgid hy

end

/-! ### GRANT_RELEASE (16 R410) -/

section
variable {s : State} {gid : Nat} {g : Grant}
variable (hg : s.pwr.grants.find? (fun g => decide (g.gid = gid) && g.granted && !g.releasing) = some g)
include hg

/-- A journal tile whose items are all durable, or that holds none, is not programmed again. -/
theorem execGrantRelease_durable {die coll tile : Nat} (hkind : g.kind = .nand die coll tile) (hcid : g.cid = none)
    (hdurable : ∀ k, s.coll? coll = some k → ∀ i ∈ k.rem, i.programmed = true ∨ tile ∉ k.remTiles i.seq) :
    execGrantRelease gid s = .next (s.endGrant gid) := by
  simp only [execGrantRelease, hg, hkind, hcid]
  cases hcoll : s.coll? coll with
  | none => rfl
  | some k =>
    have hstale : k.rem.any (fun i => !i.programmed && (k.remTiles i.seq).contains tile) = false := by
      simpa [imp_iff_not_or] using hdurable k hcoll
    simp only [hstale, Bool.false_eq_true, if_false]

theorem execGrantRelease_journal {die coll tile : Nat} {k : Coll} (hkind : g.kind = .nand die coll tile) (hcid : g.cid = none)
    (hcoll : s.coll? coll = some k) (hfresh : ∃ i ∈ k.rem, i.programmed = false ∧ tile ∈ k.remTiles i.seq) :
    execGrantRelease gid s = .next ((s.programJournal coll tile).endGrant gid) := by
  have hany : k.rem.any (fun i => !i.programmed && (k.remTiles i.seq).contains tile) = true := by
    simpa using hfresh
  simp only [execGrantRelease, hg, hkind, hcid, hcoll, hany, if_true]

theorem execGrantRelease_program {u : ProgUse} {tile part : Nat} {bs : Bytes} (hkind : g.kind = .program u tile part bs) :
    execGrantRelease gid s
      = .next (((if s.tileIn tile = true then s.program tile part bs else s).endGrant gid).programmed u g.cid) := by
  simp only [execGrantRelease, hg, hkind]

theorem execGrantRelease_erase {die base n : Nat} (hkind : g.kind = .erase die base n) :
    execGrantRelease gid s = .next ((s.eraseTiles die base n).endGrant gid) := by
  simp only [execGrantRelease, hg, hkind]

theorem execGrantRelease_block {u : SysUse} {n : Nat} {bs : Bytes} (hkind : g.kind = .block u n bs) :
    execGrantRelease gid s = .next (((s.putBlock u n bs).endGrant gid).blockDone u g.cid) := by
  simp only [execGrantRelease, hg, hkind]

theorem execGrantRelease_eraseBlock {n : Nat} (hkind : g.kind = .eraseBlock n) :
    execGrantRelease gid s = .next ((s.eraseBlock n).endGrant gid) := by
  simp only [execGrantRelease, hg, hkind]

end

/-- Settles O34: one lemma for each kind of grant; on flash by `State.program_frame` and `State.eraseTiles_flash`. -/
theorem grantReleaseRow : Obligations.GrantReleaseRow := by
  unfold Obligations.GrantReleaseRow
  refine fun s gid g hg => ⟨fun die coll tile hkind hcid => ⟨execGrantRelease_durable hg hkind hcid,
      fun k hcoll => execGrantRelease_journal hg hkind hcid hcoll⟩,
    fun u tile part bs hkind => ⟨fun hin => ⟨_, ?programmed, rfl, ?alone⟩, fun hout => ?unreached⟩,
    fun die base n hkind => ⟨_, execGrantRelease_erase hg hkind, rfl, s.eraseTiles_flash die base n⟩,
    fun u n bs hkind => execGrantRelease_block hg hkind, fun n hkind => execGrantRelease_eraseBlock hg hkind,
    fun x => s.endGrant_releasing⟩
  case programmed => exact (execGrantRelease_program hg hkind).trans (by rw [if_pos hin])
  case unreached => exact (execGrantRelease_program hg hkind).trans (by rw [if_neg (ne_true_of_eq_false hout)])
  case alone =>
    rintro rfl
    obtain ⟨A, B, b, d, hprogram⟩ := s.program_frame tile part bs
    rw [hprogram]
    exact ⟨rfl, fun hwf => Sparse.get_put_self hwf, fun a ha => Sparse.get_put_other ha⟩

end Sys2Proof.Machine
end

section
namespace Sys2Proof.Machine

/-! ### The input and the rails (16 R402-R404; 19 R479, R485) -/

/-- After hold-up the rails are off and everything that power holds is lost; flash and the boot area are kept. -/
theorem State.powerDown_keeps (s : State) : s.powerDown.pwr.phase = .off ∧ s.powerDown.pwr.pwrGood = false
    ∧ s.powerDown.clk.counter = 0 ∧ s.powerDown.flash = s.flash ∧ s.powerDown.orders = [] ∧ s.powerDown.cmds = []
    ∧ s.powerDown.boot.area = s.boot.area := by
  obtain ⟨-, hflash, -, hboot⟩ := s.halt.takeDump_frame
  have hstopped : s.halt.takeDump.orders = [] ∧ s.halt.takeDump.cmds = [] := by
    unfold State.takeDump
    split
    · exact ⟨rfl, rfl⟩
    · exact ⟨rfl, rfl⟩
  obtain ⟨horders, hcmds⟩ := hstopped
  exact ⟨rfl, rfl, rfl, hflash, horders, hcmds,
    (congrArg Boot.area hboot : s.halt.takeDump.boot.area = s.halt.boot.area)⟩

/-- Raising an event leaves flash. -/
theorem State.raiseEvent_flash (s : State) (code : Nat) : (s.raiseEvent code).flash = s.flash := by
  obtain ⟨b, d, h, -⟩ := s.raiseEvent_frame code
  rw [h]

section
variable {s : State}

theorem execInputLoss_on (hon : s.pwr.phase = .on) : execInputLoss s = .next s.powerDown := by
  simp only [execInputLoss, hon]

theorem execOvervoltage_on (hon : s.pwr.phase = .on) : execOvervoltage s = .next s.powerDown := by
  simp only [execOvervoltage, hon]

theorem execInrushRestart_waited {t0 : Nat} (hwait : s.pwr.phase = .rampWait t0) (hlong : t0 + 100000 ≤ s.clk.world) :
    execInrushRestart s = .next { s with pwr := { s.pwr with phase := .off } } := by
  simp only [execInrushRestart, hwait, hlong, if_true]

/-- A fault of a rail with the rails on is counted; then the module holds up, or a running one has the fatal cause 3. -/
theorem execRailFault_on (r : Fin 12) (hon : s.pwr.phase = .on) : execRailFault r s =
    (let t : State := { s with pwr := { s.pwr with railFaults := s.pwr.railFaults.set r (s.pwr.railFaults.getD r 0 + 1) } }
     if railHoldsUp r = true then .next (t.raiseEvent 15).powerDown
     else if s.up = true then .next (t.raiseFatal 3) else .next t) := by
  unfold execRailFault
  split
  · next hoff => cases hoff.symm.trans hon
  · next hwait => cases hwait.symm.trans hon
  · rfl

end

/-- Settles O35: `State.powerDown_keeps` for every loss of the rails, `State.startBoot` for the start. -/
theorem supplyRows : Obligations.SupplyRows := by
  unfold Obligations.SupplyRows
  refine fun s => ⟨fun hoff hhigh => ?start, fun hoff hlow => ?held, fun hoff => ?ramp, fun t0 => execInrushRestart_waited,
    fun hon i hi => ⟨s.powerDown, ?loss, rfl, s.powerDown_keeps⟩, fun r hon hholds => ?rail,
    fun r hup hother => ⟨_, ?fatal, rfl⟩⟩
  case start =>
    refine ⟨State.startBoot { s with boot := { s.boot with cause := 1, cold := true }, pwr := { s.pwr with pwrGood := true } },
      ?_, rfl, rfl, rfl⟩
    simp only [exec, execColdPowerOn, hoff, hhigh, Bool.false_eq_true, if_false]
  case held =>
    refine ⟨_, s.clk.world - 1000, ?_, rfl⟩
    simp only [exec, execColdPowerOn, hoff, hlow, if_true]
  case ramp => simp only [exec, execInputLoss, hoff]
  case loss =>
    simp only [List.mem_cons, List.not_mem_nil, or_false] at hi
    obtain rfl | rfl := hi
    · exact execInputLoss_on hon
    · exact execOvervoltage_on hon
  case rail =>
    obtain ⟨hphase, hgood, hcounter, hflash, -⟩ := State.powerDown_keeps
      (({ s with pwr := { s.pwr with railFaults := s.pwr.railFaults.set r (s.pwr.railFaults.getD r 0 + 1) } } : State).raiseEvent 15)
    exact ⟨_, (execRailFault_on r hon).trans (if_pos hholds), hphase, hgood, hcounter,
      hflash.trans (State.raiseEvent_flash _ 15)⟩
  case fatal =>
    exact (execRailFault_on r (State.up_phase hup)).trans ((if_neg (ne_true_of_eq_false hother)).trans (if_pos hup))

end Sys2Proof.Machine
end

section
namespace Sys2Proof.Machine

/-! ### Boot (17 R428-R443; 02 R27) -/

section
variable {s : State} {d : StageData} {failed : List Nat}

/-- Stage 2 with an image in the boot area goes on. -/
theorem execBootStage_image (hup : s.up = true) (hready : s.boot.ready = false) (hstop : s.stopped = false)
    (hstage : s.boot.stage = 2) (harea : s.boot.area.isSome = true) :
    execBootStage (.ok failed) d s = .next s.nextStage := by
  have himage : s.boot.area.isNone = false := by rw [← Option.not_isSome, harea]; rfl
  simp only [execBootStage, hup, hready, hstop, hstage, himage, Bool.not_true, Bool.or_self, Bool.false_eq_true, if_false]

theorem execManagementStartTimeout_late (hup : s.up = true) (hready : s.boot.ready = false) (hstage : s.boot.stage = 4)
    (hstart : s.boot.managementStarted = false) (hlate : s.boot.stageStart + 500000 ≤ s.clk.world) :
    execManagementStartTimeout s = .next (s.enterRecovery 5) :=
  if_pos (by simp only [hup, hready, hstage, hstart, hlate, decide_true, Bool.not_false, Bool.and_self])

theorem execTickSyncWaitLimit_unlocked (hup : s.up = true) (hready : s.boot.ready = false) (hstage : s.boot.stage = 11)
    (hwait : s.obj 0x3000 5 = 1) (hlock : s.clk.everLocked = false) (hlimit : s.obj 0x3000 6 ≤ s.now) :
    execTickSyncWaitLimit s = .next s.tryReady :=
  if_pos (by simp only [hup, hready, hstage, hwait, hlock, hlimit, decide_true, Bool.not_false, Bool.and_self])

theorem execFullIndexAvailability_ready (hup : s.up = true) (hready : s.boot.ready = true) (hstage : s.boot.stage = 11)
    (hrecovery : s.boot.recovery = false) (hidentity : s.boot.identityFailed = false) : execFullIndexAvailability s
      = .next (({ s with boot := { s.boot with stage := 12 } } : State).setObj 0x2001 3 0 s.now) :=
  if_pos (by simp only [hup, hready, hstage, hrecovery, hidentity, decide_true, Bool.not_false, Bool.and_self])

end

/-- Settles O37: a stage that passes by its number, the other rows under the conditions of their branch. -/
theorem bootRows : Obligations.BootRows := by
  unfold Obligations.BootRows
  refine ⟨fun s failed d hup hready => ⟨fun hstop => ⟨fun hstage => ?_, execBootStage_image hup hready hstop,
      fun hstage => ?_, fun hstage => ?_, fun hstage => ?_, fun hstage => ?_, fun hstage => ?_, fun hstage => ?_,
      fun hstage => ?_, fun hstage => ?_, fun hstage => ?_⟩,
    fun hstage => ?unreadable, fun hstage hcause => ?hbm, fun hstage => execManagementStartTimeout_late hup hready hstage,
    fun hstage => execTickSyncWaitLimit_unlocked hup hready hstage, rfl⟩,
    fun s => execFullIndexAvailability_ready⟩
  case unreadable =>
    simp only [exec, execBootStage, hup, hready, hstage, Bool.not_true, Bool.or_self, Bool.false_eq_true, if_false, if_true]
  case hbm =>
    simp only [exec, execBootStage, hup, hready, hstage, hcause, Bool.not_true, Bool.or_self, Bool.false_eq_true, if_false,
      ne_eq, not_false_eq_true, and_self, if_true]
  -- the stages that pass with one outcome
  all_goals
    simp only [exec, execBootStage, hup, hready, hstop, hstage, Bool.not_true, Bool.or_self, Bool.false_eq_true, if_false]

end Sys2Proof.Machine
end

section
namespace Sys2Proof.Machine

/-! ### Map repair and the return of a unit (18 R462, R463) -/

section
variable {s : State}

theorem execReturnScan_due {r : Fin 64} (hup : s.up = true) (hready : s.boot.ready = true) (hstop : s.stopped = false)
    (hstate : s.unitState (unitRod r) = 3) (hreads : s.scanReads r ≤ s.carry.credit) : execReturnScan r s = .next
      ((((s.colls.foldl (fun s c => (s.scanColl r c).askBuckets c) s.spend).unitBack (unitRod r)).refreshBuffer).raiseEvent 3) :=
  if_pos (by simp only [hup, hready, hstop, hstate, hreads, decide_true, Bool.not_false, Bool.and_self])

end

/-- Settles O40: both rows in a running module, with the credit their reads need. -/
theorem repairRows : Obligations.RepairRows := by
  unfold Obligations.RepairRows
  refine fun s n r c hup hready hstop => ⟨fun hcoll hcode hreads => ?repair, execReturnScan_due hup hready hstop⟩
  simp only [exec, execMapRepair, hcoll]
  exact if_neg (by simp only [hcode, hup, hready, hstop, Nat.not_lt.mpr hreads, ne_eq, not_true_eq_false, decide_false,
    Bool.not_true, Bool.or_self, Bool.false_eq_true, not_false_eq_true])

end Sys2Proof.Machine
end

section
namespace Sys2Proof.Machine

/-! ### SPDM (17 R446, R447) -/

section
variable {s : State} {p : Port}

@[simp] theorem State.spdm_setSpdm (x : Spdm) : (s.setSpdm p x).spdm p = x := by cases p <;> rfl

@[simp] theorem State.setSpdm_setSpdm (x y : Spdm) : (s.setSpdm p x).setSpdm p y = s.setSpdm p y := by cases p <;> rfl

/-- A request whose phase has come is answered, and the phase goes on. -/
theorem State.spdmAnswer_due {need next : Nat} {reply : SpdmReply} (hup : s.doeUp p = true)
    (hphase : need ≤ (s.spdm p).phase) :
    s.spdmAnswer p need next reply = s.setSpdm p { s.spdm p with phase := next, reply := reply } := by
  simp only [State.spdmAnswer, hup, Nat.not_lt.mpr hphase, Bool.not_true, Bool.false_eq_true, if_false]

theorem execNegotiateAlgorithms_chosen {a h : BitVec 32} (hup : s.doeUp p = true) (hphase : 2 ≤ (s.spdm p).phase)
    (ha : chooseAsym a.toNat ≠ 0) (hh : chooseHash h.toNat ≠ 0) : execNegotiateAlgorithms p a h s
      = .next (s.setSpdm p ⟨3, chooseAsym a.toNat, .algorithms (chooseAsym a.toNat) (chooseHash h.toNat)⟩) := by
  simp only [execNegotiateAlgorithms, State.spdmAnswer_due hup hphase, hup, hphase, ha, hh, ne_eq, not_false_eq_true,
    decide_true, Bool.and_self, if_true, State.spdm_setSpdm, State.setSpdm_setSpdm]

theorem execGetCertificate_within {off len : Nat} (hup : s.doeUp p = true) (hphase : 3 ≤ (s.spdm p).phase)
    (hoff : off < Config.certChain.length) : execGetCertificate p 0 off len s
      = .next (s.setSpdm p { s.spdm p with
        phase := 3
        reply := .certificate 0 (slice Config.certChain off len)
          (Config.certChain.length - off - (slice Config.certChain off len).length) }) := by
  have hslot : ¬((0 : Fin 8).val ≠ 0 ∨ Config.certChain.length ≤ off) := by
    rintro (h | h)
    · exact h rfl
    · exact Nat.not_lt.mpr h hoff
  exact (if_neg hslot).trans (congrArg _ (State.spdmAnswer_due hup hphase))

theorem execChallenge_signed {nonce : Bytes} (hup : s.doeUp p = true) (hphase : 3 ≤ (s.spdm p).phase)
    (hidentity : s.boot.identityFailed = false) : execChallenge p 0 nonce s
      = .next (s.setSpdm p { s.spdm p with
        phase := 3
        reply := .challengeAuth 0 (sha256 Config.certChain) (Config.identitySign (sha256 Config.certChain ++ nonce)) }) := by
  have hslot : ¬((0 : Fin 8).val ≠ 0 ∨ s.boot.identityFailed = true) := by
    rintro (h | h)
    · exact h rfl
    · exact ne_true_of_eq_false hidentity h
  exact (if_neg hslot).trans (congrArg _ (State.spdmAnswer_due hup hphase))

end

/-- Settles O43: the rows that only answer are `State.spdmAnswer` of their phase (`State.spdmAnswer_due`); the three that check
more each by its lemma. -/
theorem securityRows : Obligations.SecurityRows := by
  unfold Obligations.SecurityRows
  refine fun s p hup => ⟨?version, fun hphase => ?capabilities, fun a h => execNegotiateAlgorithms_chosen hup,
    fun hphase => ?digests, fun off len => execGetCertificate_within hup, fun nonce => execChallenge_signed hup,
    fun ix nonce => if_pos hup, ?spdm, ?secured⟩
  case version => exact congrArg _ (State.spdmAnswer_due hup (Nat.zero_le _))
  case capabilities => exact congrArg _ (State.spdmAnswer_due hup hphase)
  case digests => exact congrArg _ (State.spdmAnswer_due hup hphase)
  case spdm => simp only [exec, execDoeDiscovery, hup]; rfl
  case secured => simp only [exec, execDoeDiscovery, hup]; rfl

/-! ### The debug connector (17 R448; 19 R487) -/

/-- Settles O44: each row by the conditions of its branches. -/
theorem debugRows : Obligations.DebugRows := by
  unfold Obligations.DebugRows
  refine fun s hpower => ⟨if_pos hpower, fun hoff => ?zero, fun hon => ?refused, fun b => if_pos hpower⟩
  case zero => simp only [exec, execDebugAccess, hpower, hoff, Bool.not_true, Bool.false_eq_true, if_false]
  case refused => simp only [exec, execDebugAccess, hpower, hon, Bool.not_true, Bool.false_eq_true, if_false, if_true]

end Sys2Proof.Machine
end

section
namespace Sys2Proof.Machine

/-! ### Every command answers (00; 18) -/

/-- The command answers a next state. -/
def Answers (a : Ans) : Prop := ∃ t, a = .next t

namespace Answers
variable {a b : Ans}

theorem next {t : State} : Answers (.next t) := ⟨t, rfl⟩

theorem ite {c : Prop} [Decidable c] (ha : Answers a) (hb : Answers b) : Answers (if c then a else b) := by
  split
  · exact ha
  · exact hb

end Answers

/-! The rows with lookups in several places: each split is one lookup, each `Answers.ite` one condition. -/

section
variable {s : State}

theorem execVectorRead_answers {cid ix slot : Nat} : Answers (execVectorRead cid ix slot s) := by
  unfold execVectorRead
  split
  · exact .next
  · split
    · exact .next
    · refine .ite ?_ ?_
      · split
        · split
          exacts [.ite .next .next, .next]
        · exact .next
      · split
        · split
          exacts [.ite .next .next, .next]
        · exact .next

theorem execVectorReply_answers {cid ix slot : Nat} : Answers (execVectorReply cid ix slot s) := by
  unfold execVectorReply
  split
  · exact .next
  · split
    · exact .next
    · dsimp only
      split
      exacts [.ite .next (.ite .next (.ite .next .next)), .ite .next .next, .next]

theorem execFetch_answers {cid : Nat} {inbuf : Bytes} : Answers (execFetch cid inbuf s) := by
  unfold execFetch
  split
  · exact .next
  · refine .ite .next ?_
    dsimp only
    split
    · exact .next
    · refine .ite .next (.ite .next ?_)
      split
      exacts [.next, .ite .next .next]

theorem execExpansionReply_answers {cid ix node : Nat} : Answers (execExpansionReply cid ix node s) := by
  unfold execExpansionReply
  split
  · exact .next
  · split
    · split
      · refine .ite .next ?_
        split
        exacts [.next, .ite .next .next]
      · exact .next
    · exact .next

theorem execEntryFetch_answers {q : Nat} {entry : Bytes} : Answers (execEntryFetch q entry s) := by
  unfold execEntryFetch
  split
  · exact .next
  · split
    exacts [.next, .ite .next (.ite .next (.ite .next (.ite .next .next)))]

theorem execPlan_answers : Answers (execPlan s) := by
  unfold execPlan
  split
  · exact .next
  · split
    · exact .next
    · refine .ite .next (.ite .next (.ite .next ?_))
      split
      exacts [.next, .next]

theorem execSegmentRewrite_answers {place : Nat} : Answers (execSegmentRewrite place s) := by
  unfold execSegmentRewrite
  split
  · exact .next
  · split
    · refine .ite .next (.ite .next (.ite .next (.ite .next ?_)))
      split
      exacts [.next, .next]
    · exact .next

theorem execBulkBuild_answers {cid : Nat} {inbuf : Bytes} {graph : List (List Nat)} :
    Answers (execBulkBuild cid inbuf graph s) := by
  unfold execBulkBuild
  split
  · exact .next
  · dsimp only
    split
    exacts [.next, .ite .next (.ite .next (.ite .next (.ite .next .next)))]

theorem execEncodeSearch_answers {cid : Nat} {inbuf : Bytes} : Answers (execEncodeSearch cid inbuf s) := by
  unfold execEncodeSearch
  split
  · exact .next
  · split
    · split
      exacts [.next, .ite .next (.ite .next .next)]
    · exact .next
    · exact .next

theorem execStreamTileArrival_answers {f i : Fin 16} : Answers (execStreamTileArrival f i s) := by
  unfold execStreamTileArrival
  split
  · exact .next
  · split
    · split
      · exact .next
      · refine .ite .next (.ite .next (.ite .next ?_))
        split
        exacts [.next, .next, .next]
    · exact .next

theorem execStepBoundary_answers {handle : Fin 1024} {part : Fin 16} : Answers (execStepBoundary handle part s) := by
  unfold execStepBoundary
  split
  exacts [.next, .ite (.ite .next .next) .next]

theorem execRestore_answers {f : Fin 16} : Answers (execRestore f s) := by
  unfold execRestore
  refine .ite .next ?_
  split
  · exact .next
  · split
    exacts [.next, .ite .next .next]

theorem execMoveComplete_answers {id : Fin 4096} : Answers (execMoveComplete id s) := by
  unfold execMoveComplete
  split
  · exact .next
  · refine .ite .next (.ite .next ?_)
    split
    exacts [.next, .next]

theorem execInternalFault_answers {site : FaultSite} {cids : List Nat} : Answers (execInternalFault site cids s) := by
  unfold execInternalFault
  refine .ite .next ?_
  split
  · exact .next
  · exact .next
  · exact .next
  · split
    exacts [.next, .next]
  · split
    exacts [.next, .ite .next (.ite .next .next)]

theorem execGrantRelease_answers {gid : Nat} : Answers (execGrantRelease gid s) := by
  unfold execGrantRelease
  split
  · exact .next
  · split
    · dsimp only
      split
      exacts [.next, .next]
    all_goals exact .next

theorem execBootStage_answers {result : StageResult} {data : StageData} : Answers (execBootStage result data s) := by
  unfold execBootStage
  refine .ite .next ?_
  split
  · exact .ite .next .next
  · exact .ite .next .next
  · exact .ite .next (.ite .next .next)
  · refine .ite .next ?_
    split
    · exact .next
    · exact .ite .next .next
    all_goals exact .next

theorem execOdRead_answers {fr : BdlFrame} : Answers (execOdRead fr s) := by
  unfold execOdRead
  refine .ite .next (.ite .next (.ite .next (.ite (.ite .next .next) ?_)))
  split
  exacts [.next, .ite .next .next]

theorem execOdWrite_answers {fr : BdlFrame} : Answers (execOdWrite fr s) := by
  unfold execOdWrite
  dsimp only
  refine .ite .next (.ite .next (.ite .next ?_))
  split
  exacts [.next, .ite .next .next]

theorem execFwCommit_answers {cid : Nat} {fails : Bool} : Answers (execFwCommit cid fails s) := by
  unfold execFwCommit
  split
  · exact .next
  · dsimp only
    split
    · exact .ite .next (.ite .next .next)
    · exact .ite .next (.ite .next .next)
    · exact .ite .next (.ite .next .next)
    · exact .next

end

/-- Only DEBUG_ACCESS can be refused: the branches of every other row end in a next state (log entries 7 and 64). -/
theorem exec_answers {i : Instr} {s : State} (hi : i ≠ .debugAccess) : Answers (exec i s) := by
  cases i with
  | debugAccess => exact absurd rfl hi
  | vectorRead => exact execVectorRead_answers
  | vectorReply => exact execVectorReply_answers
  | fetch => exact execFetch_answers
  | expansionReply => exact execExpansionReply_answers
  | entryFetch => exact execEntryFetch_answers
  | plan => exact execPlan_answers
  | segmentRewrite => exact execSegmentRewrite_answers
  | bulkBuild => exact execBulkBuild_answers
  | encodeSearch => exact execEncodeSearch_answers
  | streamTileArrival => exact execStreamTileArrival_answers
  | stepBoundary => exact execStepBoundary_answers
  | restore => exact execRestore_answers
  | moveComplete => exact execMoveComplete_answers
  | internalFault => exact execInternalFault_answers
  | grantRelease => exact execGrantRelease_answers
  | bootStage => exact execBootStage_answers
  | odRead => exact execOdRead_answers
  | odWrite => exact execOdWrite_answers
  | fwCommit => exact execFwCommit_answers
  -- one update, whatever the state
  | itemRelease | matmul | xorpop | ewise | curve | norm | softnorm | gather | argmax | topk | streamBase | streamLoop | streamNext
  | streamAdd | streamEnd | registerWrite | hifEvtClear | adminPairEnable | adminPairDisable | secLock | winRead | winWrite
  | winReadDescriptor | moduleReset | configDefaults | tierModeRequest | tickTableSwitch | unitTakeOut | getVersion
  | getCapabilities | getDigests | bankExchange => exact .next
  -- one condition
  | sqTailDoorbell | cqHeadDoorbell | mbxSend | mbxInHead | fatal | unitOut | returnScan | perst | hotReset | functionLevelReset
  | pwrLimitActiveClear | thermalSample | lowInput | managementStartTimeout | fullIndexAvailability | tickSyncWaitLimit
  | linkDown | syncSend | syncLoss | report | managerHeartbeatLoss | release | start | stop | reset | linkTraining | vfEnable
  | negotiateAlgorithms | getCertificate | challenge | getMeasurements | idcode | testLogicReset | tick
  | atsInvalidation | doeDiscovery | commit => exact .ite .next .next
  -- conditions in a row
  | heartbeatSend => exact .ite (.ite .next .next) .next
  | tckCount | hifEvtStatus | frameForward | powerStateExit | noReadyStatus => exact .ite .next (.ite .next .next)
  | syncFrame | delayReq | heartbeat | guard | rodLinkFailure => exact .ite .next (.ite .next (.ite .next .next))
  | assign | mrst => exact .ite (.ite .next .next) (.ite .next .next)
  | lostTile => exact .ite .next (.ite (.ite .next .next) (.ite .next .next))
  -- one lookup
  | search | searchBatch | insert | upsert | delete | queueCreate | queueDelete | queueReset | collectionCreate | collectionDrop
  | rehome | modelEvict | objWrite | tierMove | flush | prgResponse | pageRequestTimeout | atsTranslationCompletion
  | moduleResetEffect | fwLoad =>
    simp only [exec, execSearch, execSearchBatch, execInsert, execUpsert, execDelete, execQueueCreate, execQueueDelete,
      execQueueReset, execCollectionCreate, execCollectionDrop, execRehome, execModelEvict, execObjWrite, execTierMove, execFlush,
      execPrgResponse, execPageRequestTimeout, execAtsTranslationCompletion, execModuleResetEffect, execFwLoad]
    split
    exacts [.next, .next]
  | inputLoss | overvoltage =>
    simp only [exec, execInputLoss, execOvervoltage]
    split
    exacts [.next, .next, .next]
  -- one lookup, then conditions on what it finds
  | rerank | rescoringCut | replyDeadline | cutTick | objRead | tickSymbolTimeout | thermalStepFall | powerStateEntry
  | admission | remainderPassEnd | eventQueueSend | mapRepair =>
    simp only [exec, execRerank, execRescoringCut, execReplyDeadline, execCutTick, execObjRead, execTickSymbolTimeout,
      execThermalStepFall, execPowerStateEntry, execAdmission, execRemainderPassEnd, execEventQueueSend, execMapRepair]
    split
    exacts [.next, .ite .next .next]
  | streamSwap | streamReArm | sync | odTransferTimeout | inrushRestart | resetRelease | coldPowerOn | remainderPassStart
  | passStart | tickSymbol =>
    simp only [exec, execStreamSwap, execStreamReArm, execSync, execOdTransferTimeout, execInrushRestart, execResetRelease,
      execColdPowerOn, execRemainderPassStart, execPassStart, execTickSymbol]
    split
    exacts [.ite .next .next, .next]
  | loadComplete | tileRelease =>
    simp only [exec, execLoadComplete, execTileRelease]
    split
    exacts [.next, .ite (.ite .next .next) .next]
  | stage | nop | reload =>
    simp only [exec, execStage, execNop, execReload]
    split
    exacts [.next, .ite (.ite .next (.ite .next .next)) .next]
  | carry =>
    simp only [exec, execCarry]
    split
    exacts [.next, .ite .next (.ite .next .next)]
  -- one lookup behind a condition
  | linkUp | delayMeasurement =>
    simp only [exec, execLinkUp, execDelayMeasurement]
    refine .ite ?_ .next
    split
    exacts [.next, .next]
  | delayResp =>
    simp only [exec, execDelayResp]
    refine .ite .next ?_
    split
    exacts [.next, .ite .next (.ite .next .next)]
  -- two lookups, then conditions
  | round | endStep | sqReadError | run =>
    simp only [exec, execRound, execEndStep, execSqReadError, execRun]
    split
    · exact .next
    · split
      exacts [.next, .ite .next .next]
  | expansionRequest | cqStall | nopWaitEnd | save =>
    simp only [exec, execExpansionRequest, execCqStall, execNopWaitEnd, execSave]
    split
    · exact .next
    · split
      exacts [.ite .next .next, .next]
  | directorySwitch =>
    simp only [exec, execDirectorySwitch]
    split
    · exact .next
    · split
      exacts [.ite .next (.ite .next (.ite .next .next)), .next]
  | modelLoad =>
    simp only [exec, execModelLoad]
    split
    · exact .next
    · split
      exacts [.next, .next, .next]
  | streamEmit =>
    simp only [exec, execStreamEmit]
    split
    · split
      exacts [.next, .next]
    · exact .next
  | bufferReadError =>
    simp only [exec, execBufferReadError]
    split
    · exact .next
    · refine .ite .next ?_
      split
      exacts [.next, .next]
  | rotate =>
    simp only [exec, execRotate]
    split
    exacts [.ite (.ite .next .next) .next, .next]
  | railFault =>
    simp only [exec, execRailFault]
    split
    exacts [.next, .next, .ite .next (.ite .next .next)]

/-- DEBUG_ACCESS answers a next state, or is refused while debug is active (17 R448). -/
theorem execDebugAccess_answers (s : State) : Answers (execDebugAccess s)
    ∨ s.powered = true ∧ s.obj 0x7000 4 = 1 ∧ execDebugAccess s = .refused .debugAccessUnspecified := by
  unfold execDebugAccess
  split
  · exact .inl .next
  · next hpower =>
    split
    · next hactive => exact .inr ⟨by simpa using hpower, hactive, rfl⟩
    · exact .inl .next

/-- Settles O57: DEBUG_ACCESS by `execDebugAccess_answers`, every other row by `exec_answers`. -/
theorem everyCommandAnswers : Obligations.EveryCommandAnswers := by
  unfold Obligations.EveryCommandAnswers
  intro i s
  by_cases hi : i = .debugAccess
  · subst hi
    exact (execDebugAccess_answers s).imp_right (And.intro rfl)
  · exact .inl (exec_answers hi)

end Sys2Proof.Machine
end

section
namespace Sys2Proof.Machine

/-! ### A step (02; log entry 1) -/

/-- Settles O1: the two branches of `step`, on whether a command waits. -/
theorem stepRunsFront : Obligations.StepRunsFront := by
  unfold Obligations.StepRunsFront
  refine ⟨fun c s q hfront => ?front, fun s hidle => ?idle⟩
  case front => simp only [step, hfront]
  case idle => simp only [step, hidle]

end Sys2Proof.Machine
end
